-- ==== Sys2Proof/Word.lean ====
section
/-! DEFINITION. The word types of the block and the shapes its tables take (00_scope.md R3, R4, R12). -/

namespace Sys2Proof

/-- A byte. -/
abbrev Byte := BitVec 8

/-- A 32-bit register word, and the bit pattern of an IEEE 754 binary32 value (00_scope.md, Numbers and units). -/
abbrev Word := BitVec 32

/-- A 64-bit register value, and the bit pattern of a binary64 value. -/
abbrev Word64 := BitVec 64

/-- A sparse table: key and entry pairs in strictly rising order of the key. -/
abbrev Tab (α : Type) := List (Nat × α)

/-- An instant of the device counter in whole nanoseconds of TAI (R5: seconds × 10⁹ + nanoseconds). -/
abbrev Instant := Nat

/-- The instance number a command entry or an event carries when it names no instance (Tables 2.5 and 2.6). -/
abbrev noInst : Nat := 0xFFFF

end Sys2Proof
end

