-- ==== Sys2Proof/Records/Boot.lean ====
section
/-! DEFINITION. What a start meets outside the block, and firmware images (chapter 20): plain data. -/

namespace Sys2Proof

/-- A firmware image in FLA (R638), as far as the boot judges it. -/
structure Image where
  version : Nat := 0
  svn : Nat := 0
  /-- Its signature verifies and its body hashes to DIGEST. -/
  good : Bool := false
  deriving DecidableEq, Repr

/-- What a start meets (Tables 20.2 and 20.3): the levels of BOOT_SEL; the time to READY in ticks; GiB trained on MEMA and
MEMB, 0 for a failed training (R31); the units that fail the power-on self-test; whether the FIRMWARE region and the
configurations match their digests (R635); the ledger copies whose newest segment reads altered (R553); the hottest reading in 1/16 °C. -/
structure StartIn where
  bootSel : Nat
  ready : Nat
  memA : Nat
  memB : Nat
  failed : List Nat
  firmwareOk : Bool
  configOk : Bool
  badA : Bool
  badB : Bool
  tj : Int
  deriving DecidableEq, Repr

end Sys2Proof
end

