-- ==== Sys2Proof/Records/Can.lean ====
section
/-! DEFINITION. CAN frames, buffer records and schedule matrices (chapter 18). -/

namespace Sys2Proof

/-- A CAN frame on the bus. -/
structure CanFrame where
  ident : Nat
  ide : Bool := false
  fdf : Bool := false
  brs : Bool := false
  remote : Bool := false
  dlc : Nat
  data : List Nat
  deriving DecidableEq, Repr

/-- A buffer record (Table 18.2), without BUFFER. -/
structure CanRec where
  tx : Bool
  ide : Bool := false
  fdf : Bool := false
  brs : Bool := false
  oneShot : Bool := false
  scheduled : Bool := false
  inst : Nat := 0xFF
  dlc : Nat
  ident : Nat
  mask : Nat := 0
  supervise : Nat := 0
  deriving DecidableEq, Repr

/-- How a frame on the wire ends: acknowledged (with its SOF as the TSU saw it), arbitration lost, an error, or withdrawn before its
SOF. -/
inductive CanEnd where
  | acked (sof : Nat) | lost | error | withdrawn
  deriving DecidableEq, Repr

/-- A slot of a schedule matrix: its buffer and its offset in µs; none where VALID is 0. -/
abbrev CanSlot := Option (Nat × Nat)

end Sys2Proof
end

