-- ==== Sys2Proof/Records/Cle.lean ====
section
/-! DEFINITION. A CLE image (chapter 12), as its section spells it. -/

namespace Sys2Proof

/-- A variable record of a CLE image. -/
structure CleVar where
  ident : Nat
  addr : Nat
  type : Nat
  retain : Bool := false
  mirror : Bool := false
  count : Nat := 1
  deriving DecidableEq, Repr

/-- A binding record (Table 12.6). -/
structure CleBind where
  out : Bool
  kind : Nat
  addr : Nat
  valid : Nat := 0xFFFF
  type : Nat
  subst : Bool := false
  ref : Nat
  safe : Word := 0
  deriving DecidableEq, Repr

/-- A task: its header, code, bindings, variables, and the bytes of its initial VA that are not 0. -/
structure CleTask where
  index : Nat
  engine : Nat
  supervisory : Bool
  code : List Word
  vaLen : Nat
  binds : List CleBind := []
  vars : List CleVar := []
  init : Tab Nat := []
  deriving DecidableEq, Repr

/-- The CLE section of a bundle. -/
structure CleImage where
  tasks : List CleTask
  deriving DecidableEq, Repr

end Sys2Proof
end

