-- ==== Sys2Proof/Records/Confluence.lean ====
section
/-! DEFINITION. The records of chapter 8. -/

namespace Sys2Proof

/-- A channel record (Table 8.6), without SLOT. -/
structure ChanRec where
  dcEn : Bool
  dcHold : Bool
  peakEn : Bool
  rmsEn : Bool
  envEn : Bool
  drEn : Bool
  alignDelay : Nat
  delayComp : Int
  l : Int
  proto : Nat
  np : Nat
  nr : Nat
  rr : Nat
  setA : Nat
  setB : Nat
  /-- ACTIVE_BANK: 0 for A, 1 for B. -/
  bank : Nat
  dcK : Nat
  peakK : Nat
  attack : Nat
  release : Nat
  rmsW : Nat
  deriving DecidableEq, Repr

/-- A stream record (Table 8.7), without INDEX; the defaults are the table's. -/
structure StreamRec where
  latEst : Nat := 0
  a : Nat := 5
  b : Nat := 12
  lockN : Nat := 256
  lock : Nat := 10000
  outlier : Nat := 50000
  deriving DecidableEq, Repr

end Sys2Proof
end

