-- ==== Sys2Proof/Records/Host.lean ====
section
/-! DEFINITION. What a function, the host, the PCIe link or the wire hands the block in one step of chapters 2, 4 and 5. -/

namespace Sys2Proof

/-- Which accepted command a command row executes: the function it came from and its CSEQ (R67).
`bufErr`: the DMA of the host buffer met an error (Table 2.8, ST_BUF). -/
structure Cmd where
  fn : Nat
  cseq : Word
  bufErr : Bool := false
  deriving DecidableEq, Repr

/-- A command entry (Table 2.5) without its inline arguments, which the row of the command carries. -/
structure CmdEntry where
  cseq : Word
  opcode : Nat
  fence : Bool := false
  quiet : Bool := false
  bufAddr : Nat := 0
  bufLen : Nat := 0
  inst : Nat := noInst
  deriving DecidableEq, Repr

/-- The redundancy information a frame carries on a pair: a PRP trailer or an HSR tag (R183). -/
structure RedTag where
  /-- True for an HSR tag, false for a PRP trailer. -/
  hsr : Bool
  /-- LanId (0xA or 0xB) or the 4-bit path identifier. -/
  path : Nat
  seq : Nat
  /-- The LSDU size the tag or trailer states matches the frame (R184). -/
  sizeOk : Bool := true
  deriving DecidableEq, Repr

/-- What a master port announces (R214, R215). -/
structure MasterData where
  domain : Nat
  /-- grandmasterIdentity. -/
  gm : Nat
  priority1 : Nat
  clockClass : Nat
  priority2 : Nat
  stepsRemoved : Nat
  timeTraceable : Bool
  utcOffset : Int
  /-- The C37.238 profile TLV goes with it (Table 6.3). -/
  profileTlv : Bool
  deriving DecidableEq, Repr

/-- What a frame carries after its addresses and tags, as far as the block reads it. -/
inductive Payload where
  /-- Anything the block only carries. -/
  | opaqueBytes (id : Nat)
  /-- A PTP message: message type, domain, sequenceId and correctionField in 2⁻¹⁶ ns. -/
  | ptp (msg : Nat) (domain : Nat) (seqId : Nat) (correction : Int)
  /-- A PTP Announce of the device as master (R214, R215). -/
  | announce (m : MasterData)
  /-- A redundancy supervision frame (R190): the node it names, and the RedBox of its RedBox TLV where it has one. -/
  | supervision (node : Nat) (redBox : Option Nat)
  /-- A GOOSE or SV frame of the publisher: the device number, stNum and sqNum or smpCnt, its fields, and its octets after the
  Ethertype, with the twin trailer where it has one. -/
  | published (goose : Bool) (number : Nat) (st sq : Nat) (data : List Int) (octets : List Nat)
  /-- A Tributary frame: its tick and its items. -/
  | tributary (second : Nat) (tick : Nat) (items : List (List Int))
  deriving DecidableEq, Repr

/-- A frame as the MACs and the switch see it. Lengths run as R137 says. -/
structure Frame where
  /-- Destination and source address, 48 bits each, the group bit as bit 40 (the low bit of the first octet sent). -/
  da : Nat
  sa : Nat
  /-- The outer 0x8100 tag, if there is one: VID 12 bits, PCP 3 bits, DEI. -/
  vid : Option Nat := none
  pcp : Nat := 0
  dei : Bool := false
  /-- Ethertype after any VLAN and HSR tag. -/
  etype : Nat
  len : Nat
  red : Option RedTag := none
  /-- For a received frame: the counter when its first byte after the SFD crossed the PCS boundary (R224, R225),
  before the port's RX_LAT is taken off. -/
  stamp : Instant := 0
  payload : Payload := .opaqueBytes 0
  deriving DecidableEq, Repr

/-- The group bit of an address: the least significant bit of the first octet sent. -/
def isGroup (addr : Nat) : Bool := (addr >>> 40) % 2 == 1

/-- What the MAC found of a frame at the end of its reception (Table 4.2), beside its header. -/
structure RxVerdict where
  /-- An invalid code group or block inside the frame, or a loss of PCS synchronisation before its end. -/
  codeErr : Bool := false
  fcsErr : Bool := false
  /-- Behind a second tag, which the header does not hold: the length/type field is a length that R138 calls odd. -/
  lenOdd : Bool := false
  deriving DecidableEq, Repr

/-- What has read a word with an uncorrectable error, or waits for a cell of Cistern (R178, R180, R626). -/
inductive Reader where
  /-- Nothing whose work is in flight. -/
  | nothing
  /-- A frame, and the number of the Cistern cell concerned. -/
  | frame (fid cell : Nat)
  /-- The job of a node in execution: on a core pair, a lane, an engine, in Millrace or in the publisher. -/
  | job (inst node : Nat)
  /-- The ingest engine, on the frame at its head. -/
  | ingest
  /-- A command in execution. -/
  | command (fn : Nat) (cseq : Word)
  /-- A tick of Confluence, on the entry `index` of the input ring of a slot. -/
  | sample (slot index : Nat)
  /-- Rows of a recorder's buffer or of its records: those of `count` Q ticks from `first` on. -/
  | rows (recorder first count : Nat)
  /-- The points of a Millrace capture. -/
  | capture (slot : Nat)
  /-- A flush of the Cellar, on the staged record of this SEQ. -/
  | flush (seq : Nat)
  /-- A controller of the field bus, on a message buffer. -/
  | canBuffer (channel buffer : Nat)
  /-- The publisher, on the frame of a GOOSE retransmission that is due. -/
  | retransmission (number : Nat)
  deriving DecidableEq, Repr

/-- What the wire and the port island supply at a transmit opportunity. -/
structure TxStep where
  /-- Bytes of each frame still arriving that are in Cistern now, by frame number. -/
  present : Tab Nat := []
  /-- The frame in transmission needed a byte that is not yet in Cistern (R142). -/
  underrun : Bool := false
  /-- An uncorrectable ECC error was read from this cell of the frame (R180). -/
  eccCell : Option Nat := none
  /-- Port-island cycles for which the frame occupies the wire. -/
  sendCycles : Nat := 0
  deriving DecidableEq, Repr

/-- A parameter record of PARAM_SET (R77): ID, TYPE and the eight bytes of VALUE. -/
structure ParamRec where
  ident : Nat
  type : Nat
  value : Nat
  deriving DecidableEq, Repr

/-- A receive descriptor as the host filled it (Table 2.12). -/
structure RxDesc where
  addr : Nat
  len : Nat
  deriving DecidableEq, Repr

/-- A transmit descriptor as the host filled it (R93). -/
structure TxDesc where
  addr : Nat
  len : Nat
  sof : Bool
  eof : Bool
  deriving DecidableEq, Repr

end Sys2Proof
end

