-- ==== Sys2Proof/Records/Ingest.lean ====
section
/-! DEFINITION. What the ingest engine reads of a frame (chapter 7), and the subscription records hosts write. -/

namespace Sys2Proof

/-- One ASDU of a savPDU. -/
structure SvAsdu where
  svId : List Nat
  smpCnt : Nat
  confRev : Nat
  smpSynch : Nat
  smpRate : Option Nat := none
  smpMod : Option Nat := none
  gmIdentity : Option Nat := none
  /-- The pairs of an INT32 value and a 32-bit quality of seqData; none where seqData does not hold such pairs. -/
  pairs : Option (List (Int × Nat))
  deriving DecidableEq, Repr

/-- One element of allData: its BER tag and content octets. -/
structure BerElem where
  tag : Nat
  octets : List Nat
  deriving DecidableEq, Repr

/-- The goosePdu. -/
structure GoosePdu where
  goId : Option (List Nat)
  gocbRef : List Nat
  stNum : Nat
  sqNum : Nat
  confRev : Nat
  ndsCom : Bool := false
  simulation : Bool := false
  /-- timeAllowedtoLive in ms. -/
  live : Nat
  numEntries : Nat
  allData : List BerElem
  deriving DecidableEq, Repr

/-- The APDU, as its outer element spells it. -/
inductive Apdu where
  /-- savPDU (tag 0x60): noASDU and the ASDUs. -/
  | sv (noAsdu : Nat) (asdus : List SvAsdu)
  /-- goosePdu (tag 0x61). -/
  | goose (g : GoosePdu)
  deriving DecidableEq, Repr

/-- The authentication extension of IEC 62351-6 as the engine uses it. -/
structure AuthExt where
  keyId : Nat
  /-- True for AES-GMAC-128, false for HMAC-SHA256-128. -/
  gmac : Bool
  mac : Nat
  /-- The octets the MAC is computed over, and the initialisation vector IEC 62351-6 prescribes. -/
  covered : List Nat
  iv : Nat
  deriving DecidableEq, Repr

/-- What an extension's own fields say, whose layout IEC 62351-6 gives: the key identifier, the algorithm (true for AES-GMAC-128), and
where the 16 octets of the MAC value begin, counted from the first octet of APPID.
PRESUMED, assumption 97: unsafe. -/
structure ExtFields where
  keyId : Nat
  gmac : Bool
  macAt : Nat
  deriving DecidableEq, Repr

/-- What stands behind the Ethertype of an SV or GOOSE frame: the octets from the first of APPID to the end of the frame, and what its
authentication extension says where it has one. -/
structure IngestPdu where
  octets : List Nat
  ext : Option ExtFields := none
  deriving DecidableEq, Repr

/-- A channel of an SV subscription: MEMBER, SLOT and SCALE. -/
structure SvChan where
  member : Nat
  slot : Nat := 0xFFFF
  scale : Word
  deriving DecidableEq, Repr

/-- An SV subscription record (Table 7.1), without INDEX. -/
structure SvRec where
  auth : Nat
  localOk : Bool
  sim : Bool
  le : Bool
  da : Nat
  appid : Nat
  rate : Nat
  fnom : Nat
  noAsdu : Nat
  confRev : Nat
  nMembers : Nat
  id : List Nat
  timeout : Nat
  keyA : Nat
  keyB : Nat
  chans : List SvChan
  deriving DecidableEq, Repr

/-- A GOOSE subscription record (Table 7.2), without INDEX; `members` holds data point and TYPE. -/
structure GooseRec where
  auth : Nat
  useGocbRef : Bool
  sim : Bool
  da : Nat
  appid : Nat
  confRev : Nat
  id : List Nat
  maxRate : Nat
  keyA : Nat
  keyB : Nat
  members : List (Nat × Nat)
  deriving DecidableEq, Repr

/-- A subscription record of either kind. -/
inductive SubRec where
  | sv (x : SvRec)
  | goose (x : GooseRec)
  deriving DecidableEq, Repr

end Sys2Proof
end

