-- ==== Sys2Proof/Records/Sluice.lean ====
section
/-! DEFINITION. A graph image (chapters 9 to 11), as its sections spell it. -/

namespace Sys2Proof

/-- A source of a node input (Table 10.2). -/
inductive Src where
  /-- CHAN: a Confluence slot. -/
  | chan (slot : Nat)
  /-- NODE: an output element of another node. -/
  | node (n elem : Nat)
  /-- POINT: a member of a GOOSE subscription, or a signal-database point. -/
  | member (index m : Nat)
  | point (n : Nat)
  /-- CONST. -/
  | const (v : Word)
  deriving DecidableEq, Repr

/-- An input binding: source, ACCEPT byte, and the safe value of substitution mode 1 (R320; none for mode 0). -/
structure Input where
  src : Src
  estOk : Bool
  qOk : Bool := true
  safe : Option Word := none
  deriving DecidableEq, Repr

/-- A node entry (Table 9.2) with its descriptor and data block. -/
structure GNode where
  prio : Nat
  any : Bool
  flags : Word
  mask : Word
  budget : Nat
  cls : Nat
  unit : Nat
  op : Nat
  /-- EDGE_HEAD. -/
  edges : Nat := 0xFFFF
  stateId : Nat := 0
  /-- Parameters in the order of the operator's table; one value, or eight for the setting groups (R381). -/
  params : List (List Rat) := []
  /-- Inputs in the order of the operator's section; none for an optional one not bound. -/
  inputs : List (Option Input) := []
  /-- Data length of the descriptor, in units of 16 bytes, and the data offset (Table 9.13). -/
  dataLen : Nat := 0
  dataOff : Nat := 0
  /-- The initial state in the data area (R330): exact values, binary64 and binary32 values by the operator's own numbering. -/
  initVals : List (Nat × Rat) := []
  initWide : List (Nat × Word64) := []
  initWords : List (Nat × Word) := []
  deriving DecidableEq, Repr

/-- An edge entry (Table 9.4). -/
structure GEdge where
  node : Nat
  bit : Nat
  cancel : Bool := false
  last : Bool := false
  deriving DecidableEq, Repr

/-- A binding (R327). -/
structure GBind where
  kind : Nat
  index : Nat := 0
  edges : Nat
  param : Nat := 1
  deriving DecidableEq, Repr

/-- A chain (R327): DEADLINE in ns. -/
structure GChain where
  ident : Nat
  bind : Nat
  last : Nat
  deadline : Nat
  deriving DecidableEq, Repr

/-- A declared group selector (R409): MIN_HOLD in units of 0.01 s. -/
structure GSel where
  init : Nat := 0
  allowed : Nat := 1
  minHold : Nat := 100
  deriving DecidableEq, Repr

/-- An entry of the publication map (R481): element `elem` of a node writes a member of a GOOSE publication, by index. -/
structure GPub where
  node : Nat
  elem : Nat
  pub : Nat
  member : Nat
  deriving DecidableEq, Repr

/-- A graph image (Table 9.13). -/
structure Graph where
  magic : Nat := 0x31474C53
  format : Nat := 1
  /-- CATALOGUE: major and minor. -/
  catalogue : Nat := 0
  /-- Every section lies within TOTAL_LEN. -/
  sections : Bool := true
  nodes : List GNode
  edges : List GEdge
  binds : List GBind
  chains : List GChain := []
  sels : List GSel := [{}, {}, {}, {}]
  /-- The publication map, in the data area. -/
  pubs : List GPub := []
  deriving DecidableEq, Repr

end Sys2Proof
end

