-- ==== Sys2Proof/Records/Loop.lean ====
section
/-! DEFINITION. A Millrace loop record (Table 13.4). -/

namespace Sys2Proof

/-- A stage: TYPE, E, AW, and P0 to P6. -/
structure Stage where
  type : Nat
  e : Int
  aw : Bool := false
  p : List Word
  deriving DecidableEq, Repr

/-- A field of a CAN message buffer (Table 12.7, kind 0x04). -/
structure CanField where
  chan : Nat
  buffer : Nat
  byte : Nat
  bit : Nat
  width : Nat
  deriving DecidableEq, Repr

/-- A destination of OUT. -/
inductive LoopDest where
  | none
  | sv (stream member : Nat)
  | can (f : CanField)
  deriving DecidableEq, Repr

/-- A loop record, without INDEX. REF is none for kind 4, the loop variable. -/
structure LoopRec where
  gridQ : Bool
  preset : Nat
  toManual : Bool
  fallback : Nat
  initAuto : Bool
  dl : Nat
  manualInit : Word
  ref : Option Input
  fb : Input
  dests : List LoopDest
  stages : List Stage
  deriving DecidableEq, Repr

end Sys2Proof
end

