-- ==== Sys2Proof/Records/Pub.lean ====
section
/-! DEFINITION. Publication records and mirrored items (chapter 14). -/

namespace Sys2Proof

/-- A GOOSE publication record (Table 14.1), without INDEX. -/
structure GoosePub where
  trip : Bool := false
  twin : Bool := false
  sim : Bool := false
  auth : Nat := 0
  da : Nat
  appid : Nat
  pcp : Nat
  vid : Nat
  tag : Nat := 0
  confRev : Nat
  minT : Nat
  maxT : Nat
  talFactor : Nat
  key : Nat := 0xFFFF
  ports : List Nat
  goId : List Nat
  gocbRef : List Nat
  datSet : List Nat
  members : List Nat
  deriving DecidableEq, Repr

/-- An SV publication record (Table 14.2), without INDEX. -/
structure SvPub where
  twin : Bool := false
  gridQ : Bool := false
  sim : Bool := false
  auth : Nat := 0
  da : Nat
  appid : Nat
  pcp : Nat
  vid : Nat
  tag : Nat := 0
  confRev : Nat
  key : Nat := 0xFFFF
  ports : List Nat
  svId : List Nat
  scales : List Word
  deriving DecidableEq, Repr

/-- A publication record of either kind. -/
inductive PubRec where
  | goose (x : GoosePub)
  | sv (x : SvPub)
  deriving DecidableEq, Repr

/-- A mirrored item (Table 14.5). Ticks are P ticks from the TAI epoch. -/
inductive Mirror where
  /-- 0x01: state and change count of each latch. -/
  | latches (l : List (Bool × Nat))
  /-- 0x02. -/
  | block (dev stNum sqNum ts crc : Nat)
  /-- 0x03: (group, FORCED) of each selector. -/
  | groups (inst : Nat) (l : List (Nat × Bool))
  /-- 0x04. -/
  | loopMode (dev : Nat) (auto : Bool) (value : Word)
  /-- 0x05: bytes of a variable from an offset. -/
  | var (inst task ident offset : Nat) (bytes : List Nat)
  /-- 0x06. -/
  | ledger (counter k0 n : Nat)
  deriving DecidableEq, Repr

/-- Which item of the mirror: what a change or the rotation names, before the frame that carries its state. -/
inductive MirrorKey where
  | latches
  | block (dev : Nat)
  | groups (inst : Nat)
  | loopMode (dev : Nat)
  | var (inst task ident offset : Nat)
  | ledger (counter k0 n : Nat)
  deriving DecidableEq, Repr

/-- A Tributary frame as received (Table 14.4). -/
structure TribMsg where
  version : Nat := 1
  twinId : Nat
  pairId : Nat
  tseq : Nat
  second : Nat
  tick : Nat
  keyId : Nat
  tag : Nat
  /-- The octets the tag covers. -/
  covered : List Nat
  items : List Mirror
  deriving DecidableEq, Repr

end Sys2Proof
end

