-- ==== Sys2Proof/Records/Recorder.lean ====
section
/-! DEFINITION. A recorder record (Table 15.1) and its mask tests (R527). -/

namespace Sys2Proof

/-- Where an analog channel takes its value. -/
inductive DrAnalog where
  | chan (slot : Nat)
  | node (n elem : Nat)
  deriving DecidableEq, Repr

/-- Where a binary channel takes its value. -/
inductive DrBinary where
  | bi (n : Nat)
  | node (n elem : Nat)
  | goose (index member : Nat)
  | point (n : Nat)
  deriving DecidableEq, Repr

/-- A mask test: its analog channel, and per breakpoint the time in µs from T_first, LOWER and UPPER. -/
structure MaskTest where
  chan : Nat
  points : List (Int × Word × Word)
  deriving DecidableEq, Repr

/-- A recorder record, without INDEX; an analog channel has its UNIT and NAME, a binary one its NORMAL and NAME. -/
structure DrRec where
  rate : Nat
  extend : Bool := false
  auto : Bool := false
  overwrite : Bool := false
  maskStop : Bool := false
  mean : Bool := false
  pre : Nat
  post : Nat
  rearm : Nat := 1000
  autoT : Nat
  bufMib : Nat
  xout : List Nat := []
  xin : List Nat := []
  xtrigW : Nat := 10
  biRise : List Nat := []
  biFall : List Nat := []
  analog : List (DrAnalog × Nat × List Nat)
  binary : List (DrBinary × Bool × List Nat)
  deriving DecidableEq, Repr

end Sys2Proof
end

