-- ==== Sys2Proof/Records/Strong.lean ====
section
/-! DEFINITION. What a host hands the Strongroom in a command's buffer (chapter 17). -/

namespace Sys2Proof

/-- A wrapped blob (Table 17.7), its reserved bytes 40 to 43, 47 and 54 to 63 among its fields. -/
structure Blob where
  magic : Nat
  format : Nat
  root : Nat
  type : Nat
  keyId : Nat
  gen : Nat
  attr : Nat
  serial : Nat
  slot : Nat
  created : Nat
  wrappedLen : Nat
  wrapped : Nat
  reserved40 : Nat := 0
  reserved47 : Nat := 0
  reserved54 : Nat := 0
  deriving DecidableEq, Repr

/-- The input of SRM_CRYPT: the fields its operation uses, and the bytes they take. -/
structure CryptData where
  len : Nat
  iv : Nat := 0
  aad : Nat := 0
  text : Nat := 0
  tag : Nat := 0
  deriving DecidableEq, Repr

end Sys2Proof
end

