-- ==== Sys2Proof/State/Time.lean ====
section
/-! DEFINITION. The time unit (chapter 6): plain data. -/

namespace Sys2Proof.Machine

/-- The states of Table 6.1. -/
inductive TsuPhase where
  | freerun | acquiring | locked | holdPending | holdover
  deriving DecidableEq, Repr

/-- TSU_STATUS.STATE (Table 6.1). -/
def TsuPhase.code : TsuPhase → Nat
  | .freerun => 0 | .acquiring => 1 | .locked => 2 | .holdPending => 3 | .holdover => 4

/-- The identity of a reference: grandmasterIdentity (64 bits) and parentPortIdentity (80 bits); (0, 0) for pulses. -/
structure RefId where
  gm : Nat := 0
  parentPort : Nat := 0
  deriving DecidableEq, Repr

/-- The servo (R202 to R206). Offsets are in ns, rates in ppb, exact. -/
structure Servo where
  /-- The last measured θ, outliers included (TSU_OFFSET). -/
  theta : Rat := 0
  /-- The integrator I and the rate y, in ppb. -/
  integ : Rat := 0
  y : Rat := 0
  /-- The rate frozen at the last loss of reference (R205). -/
  yHold : Rat := 0
  /-- The last accepted measurement: θ and the reference instant it was taken at, in ns (R203's T runs between these). -/
  last : Option (Rat × Rat) := none
  /-- Consecutive measurements within LOCK_THRESH. -/
  inThresh : Nat := 0
  /-- Consecutive outliers (R206). -/
  outlierRun : Nat := 0
  deriving DecidableEq, Repr

/-- One transmit timestamp (Table of TSU_TXQ_POP). -/
structure TxStamp where
  kind : Nat
  tq : Nat
  port : Nat
  id : Nat
  time : Instant
  deriving DecidableEq, Repr

/-- The transmit timestamp queue of a port island (R226, R227). -/
structure TxQueue where
  entries : List TxStamp := []
  lost : Nat := 0
  ovf : Bool := false
  /-- The time of the entry last popped, latched for TSU_TXQ_NS and _SEC. -/
  latched : Instant := 0
  deriving DecidableEq, Repr

/-- The decoding of IRIG-B (R219 to R221). -/
structure Irig where
  /-- The label of the previous valid frame, in TAI seconds. -/
  prev : Option Nat := none
  accepted : Bool := false
  mismatchRun : Nat := 0
  /-- A valid frame has come since the last PPS edge. -/
  fresh : Bool := false
  /-- The last frame's time-quality nibble was 0xF, or 0, under CF_EXT (R220, R212). -/
  noRef : Bool := false
  traceable : Bool := false
  deriving DecidableEq, Repr

/-- What the best-master algorithm knows (R214): the parent and the Announce fields it gave. -/
structure Parent where
  ref : RefId
  port : Nat
  traceable : Bool
  utcOffset : Int
  utcValid : Bool
  leap59 : Bool
  leap61 : Bool
  /-- Instant of the last Announce and of the last accepted Sync. -/
  announceAt : Instant
  syncAt : Instant
  /-- The clock class it announced. -/
  clockClass : Nat := 248
  /-- priority1, clock class, accuracy, variance, priority2 and steps removed, in comparison order. -/
  rank : List Nat
  /-- The grandmasterID its profile TLV gave, read with PROFILE 1 (Table 6.3). -/
  profileTlv : Option Nat := none
  deriving DecidableEq, Repr

/-- What an Announce offers the comparison of masters (R214). -/
structure DataSet where
  /-- priority1, clock class, accuracy, variance and priority2, in comparison order. -/
  rank : List Nat
  /-- grandmasterIdentity, stepsRemoved, the port identity of the sender, and the port that heard it. -/
  gm : Nat
  steps : Nat
  sender : Nat
  port : Nat
  deriving DecidableEq, Repr

/-- The registers of chapter 6. -/
structure TsuRegs where
  tcEn : Bool := true
  outGate : Nat := 0
  gmEn : Bool := false
  servoEn : Bool := true
  role : Nat := 0
  profile : Nat := 0
  src : Nat := 0
  kp : Nat := 0xC000
  ki : Nat := 0x4000
  lockCount : Nat := 8
  slewMax : Nat := 10
  lockThresh : Nat := 100
  inPol : Bool := false
  outWidth : Nat := 100
  inDelay : Nat := 0
  irigLocal : Bool := false
  irigCfExt : Bool := false
  irigAuto : Bool := true
  irigFormat : Nat := 0
  leapDir : Bool := false
  leapPending : Bool := false
  fromPtp : Bool := false
  utcOffset : Int := 37
  /-- The UTC_OFFSET of the configuration, which holds while FROM_PTP is 0 (R223). -/
  utcConfig : Int := 37
  /-- DOMAIN, PRIORITY1 and PRIORITY2 in effect; DOMAIN none stands for the profile's default. -/
  domain : Option Nat := none
  priority1 : Nat := 128
  priority2 : Nat := 128
  /-- Ports with PTP_PORT_EN set. -/
  ptpPorts : List Nat := []
  /-- RX_LAT and TX_LAT of the ports, where not 0. -/
  rxLat : Tab Int := []
  txLat : Tab Int := []
  deriving DecidableEq, Repr

/-- The time unit. -/
structure Tsu where
  /-- The counter in units of 2⁻³² ns of TAI (R198). -/
  counter : Nat := 0
  /-- INC, 32.32 ns (R199). -/
  inc : Nat := 0x400000000
  phase : TsuPhase := .freerun
  regs : TsuRegs := {}
  servo : Servo := {}
  lockedOnce : Bool := false
  stepped : Bool := false
  traceable : Bool := false
  /-- The instant of the last loss of reference. -/
  lossAt : Option Instant := none
  /-- The reference in use before HOLD_PENDING, and the one being measured. -/
  ref : RefId := {}
  newRef : Bool := false
  /-- The last accepted reference event of a pulse source (R208). -/
  lastEdge : Instant := 0
  /-- The counter has run without interruption since it last held LOCKED (R200). -/
  ranSinceLock : Bool := false
  parent : Option Parent := none
  /-- The identity of the last parent, whose change is a change of reference (R208). -/
  lastParent : Option RefId := none
  /-- The best Announce heard on each PTP port, and its instant (R214). -/
  foreign : Tab (DataSet × Instant) := []
  /-- meanLinkDelay per port, ns, where measured (R216). -/
  linkDelay : Tab Rat := []
  /-- The sequenceId and instant of each port's last Pdelay_Req (R216). -/
  pdelayAt : Tab (Nat × Instant) := []
  irig : Irig := {}
  /-- The transmit timestamp queues of PI_0 to PI_15 that are not at reset. -/
  txq : Tab TxQueue := []
  /-- Each PTP port's last Sync sent: its sequenceId and instant (Table 6.3). -/
  syncSent : Tab (Nat × Instant) := []
  /-- TSU_NOW_SEC latch of each function (R201). -/
  secLatch : Tab Nat := []
  ppsOut : Bool := false
  ppsOutSince : Instant := 0
  outliers : Nat := 0
  irigMismatch : Nat := 0
  /-- The last leap second that took effect: its instant, and UTC_OFFSET before it. -/
  lastLeap : Option (Instant × Int) := none
  /-- TQ and the instants from which it held, newest first (R213); the last 64 changes. -/
  tqLog : List (Instant × Nat) := []
  deriving DecidableEq, Repr

end Sys2Proof.Machine
end

