-- ==== Sys2Proof/Records/Time.lean ====
section
/-! DEFINITION. What the wire and the time inputs hand the time unit in one step of chapter 6. -/

namespace Sys2Proof

/-- A Sync, or its Follow_Up, as received (R202). -/
structure SyncMsg where
  port : Nat
  domain : Nat
  parentPort : Nat
  /-- t1, the origin timestamp, in ns. -/
  origin : Nat
  /-- t2, the receive timestamp before RX_LAT, in ns. -/
  stamp : Nat
  /-- correctionField in 2⁻¹⁶ ns. -/
  correction : Int
  deriving DecidableEq, Repr

/-- An Announce message as received (R214). -/
structure AnnounceMsg where
  port : Nat
  domain : Nat
  ref : Machine.RefId
  /-- The fields the default best-master algorithm compares, in its order; smaller is better. -/
  rank : List Nat
  clockClass : Nat
  traceable : Bool
  utcOffset : Int
  utcValid : Bool
  leap59 : Bool
  leap61 : Bool
  /-- The grandmasterID of the C37.238 profile TLV, where the message carries one. -/
  profileTlv : Option Nat := none
  deriving DecidableEq, Repr

/-- One exchange of peer delay messages (R216): the timestamps of the request sent and received (t1, t2) and of the answer sent
and received (t3, t4), in ns, and the sum of the answer's correctionFields in 2⁻¹⁶ ns. t1 and t4 are before TX_LAT and RX_LAT. -/
structure PdelayTimes where
  t1 : Int
  t2 : Int
  t3 : Int
  t4 : Int
  correction : Int
  deriving DecidableEq, Repr

/-- A complete IRIG-B frame (R219 to R221). -/
structure IrigMsg where
  /-- x of B00x. -/
  format : Nat
  /-- The width in µs of each of its 100 pulses, from the reference marker Pr on. -/
  pulses : List Nat
  /-- The counter at the leading edge of the reference marker, in ns. -/
  onTime : Nat
  deriving DecidableEq, Repr

end Sys2Proof
end

