-- ==== Sys2Proof/Syntax.lean ====
section
/-! DEFINITION. The commands and events of the block: one constructor per row of spec/opcode_table.json. -/

namespace Sys2Proof

/-- A step of the block. Every row of the table of operations and events is one constructor.
`dt` is the number of 250 MHz ticks that pass before the step (assumption 3). -/
inductive Instr where
  /-- COMMAND_FETCH (R66). The device takes the next command entry from a function's command ring once intake capacity allows and judges its CSEQ. -/
  | commandFetch (fn : Nat) (octets : List Nat) (poisoned : Bool)
  /-- EVENT_RING_POST (R70). The device posts a generated completion, event or loss marker to a function's event ring once the ring has space. -/
  | eventRingPost (fn : Nat)
  /-- RING_HOST_WRITE (R53). A host write of the doorbell count MBX_RING_HOST is accepted, or ignored with RING_ERR and EV_RING_ERROR if it is invalid. -/
  | ringHostWrite (fn : Nat) (ring : Nat) (count : Word)
  /-- CMD_ENABLE_RISE (R50). CMD_ENABLE rises; the command ring counts reset to 0 and acceptance resumes at MBX_SEQ[0] + 1. -/
  | cmdEnableRise (fn : Nat)
  /-- CMD_ENABLE_FALL (R51). CMD_ENABLE falls; the device finishes the entry it is reading, takes no more entries and clears SEQ_STALL. -/
  | cmdEnableFall (fn : Nat)
  /-- EVT_ENABLE_RISE (R52). EVT_ENABLE rises; the event ring restarts at slot 0 and the held entries are posted in order. -/
  | evtEnableRise (fn : Nat)
  /-- EVT_ENABLE_FALL (R52). EVT_ENABLE falls; posting stops and completions and events are held. -/
  | evtEnableFall (fn : Nat)
  /-- VNIC_ENABLE_RISE (R50). VNIC_ENABLE rises and the virtual NIC rings start at slot 0. -/
  | vnicEnableRise (fn : Nat)
  /-- VNIC_ENABLE_FALL (R92). VNIC_ENABLE falls and frames for the function are then dropped at IPORT_HOST. -/
  | vnicEnableFall (fn : Nat)
  /-- IMASK_WRITE (R62). A write to MBX_IMASK; a mask bit that falls while its cause bit is 1 sends one MSI-X message. -/
  | imaskWrite (fn : Nat) (index : Nat) (value : Word)
  /-- REGISTER_WRITE (R7). A write to a register that has no row of its own, applied under the access codes of its fields. -/
  | registerWrite (fn offset value : Nat)
  /-- REG64_LOW_READ (R11). A read of the low word of a 64-bit register latches the high word for the same function. -/
  | reg64LowRead (fn : Nat) (offset : Nat)
  /-- DEV_NOP (R76). Command that does nothing. -/
  | devNop (c : Cmd)
  /-- DEV_IDENTIFY (R76). Command that returns the part number, MBX_ID, EPOCH and serial number. -/
  | devIdentify (c : Cmd)
  /-- DEV_REPLAY_COMPLETIONS (R84). Command that reposts the completed commands from FROM_CSEQ on, flagged REPLAYED. -/
  | devReplayCompletions (c : Cmd) (fromCseq : Word)
  /-- DEV_REPLAY_EVENTS (R85). Command that reposts the held events from FROM_ESEQ on, flagged REPLAYED. -/
  | devReplayEvents (c : Cmd) (fromEseq : Word)
  /-- DEV_SNAPSHOT (R86). Command that captures the state in scope of the function at one instant. -/
  | devSnapshot (c : Cmd)
  /-- PARAM_GET (R685). Command that reads parameter records, each judged on its own. -/
  | paramGet (c : Cmd) (ids : List Nat)
  /-- PARAM_SET (R78). Command that writes parameter records, all of them or none. -/
  | paramSet (c : Cmd) (records : List ParamRec)
  /-- PARAM_DESCRIBE (R686). Command that returns a parameter's type, class, unit, range, step and default. -/
  | paramDescribe (c : Cmd) (id : Nat)
  /-- DIRTY_LOG_START (R95). Command that starts dirty-page logging of a VF's DMA writes into host bitmaps. -/
  | dirtyLogStart (c : Cmd) (m : Nat) (base length bitmapA bitmapB : Nat)
  /-- DIRTY_LOG_SYNC (R98). Command that switches the active dirty bitmap once the earlier writes are visible. -/
  | dirtyLogSync (c : Cmd) (m : Nat)
  /-- DIRTY_LOG_STOP (R99). Command that ends dirty-page logging, optionally freezing the VF's DMA writes. -/
  | dirtyLogStop (c : Cmd) (m : Nat) (freeze : Bool)
  /-- DEV_COMMIT (R80). Command that applies the staged device items, stores the device configuration and locks the RWL items. -/
  | devCommit (c : Cmd)
  /-- DEV_UNLOCK (R81). Command that reopens every RWL item until the next DEV_COMMIT. -/
  | devUnlock (c : Cmd)
  /-- VNIC_RX_FRAME (R89). A frame queued for a function at IPORT_HOST is written to host receive descriptors once one is available. -/
  | vnicRxFrame (fn : Nat) (descs : List (List Nat))
  /-- VNIC_TX_FRAME (R93). The device reads a transmit frame from host descriptors, checks its length and passes it into IPORT_HOST. -/
  | vnicTxFrame (fn : Nat) (descs : List (List Nat)) (frame : Frame) (dmaErr : Bool)
  /-- FUNCTION_LEVEL_RESET (R44). An FLR resets only the host interface of the function, leaves accepted commands and instance state unchanged, and ends a freeze. -/
  | functionLevelReset (fn : Nat)
  /-- PCIE_LINK_LOSS (R44). A loss of the PCIe link or a hot reset acts as an FLR of every function. -/
  | pcieLinkLoss
  /-- D3HOT_ENTRY (R44). A D3hot transition affects only the host interface of the function. -/
  | d3hotEntry (fn : Nat)
  /-- PERST_N_FALL (R669). A fall of PERST_N acts on the host interface as a loss of link does. -/
  | perstNFall
  /-- INST_CREATE (R111). Command that creates an instance with its shares and rank. -/
  | instCreate (c : Cmd) (sluice cistern ingest rank : Nat)
  /-- INST_DESTROY (R102). Command that releases an instance's claims, shares, keys and buffers and returns it to FREE. -/
  | instDestroy (c : Cmd)
  /-- INST_COMMIT (R112). Command that checks claims, quotas and admission and makes the staged configuration committed. -/
  | instCommit (c : Cmd)
  /-- INST_START (R102). Command that moves a READY instance to ACTIVE and opens its intake. -/
  | instStart (c : Cmd)
  /-- INST_STOP (R120). Command that stops an ACTIVE instance as INST_RESET with WARM = 1. -/
  | instStop (c : Cmd)
  /-- INST_RESET (R116). Command that closes an instance's intake, increments GEN and discards its work and outstanding commands. -/
  | instReset (c : Cmd) (warm : Bool)
  /-- INST_RESET_DONE (R116). No work of the old GEN remains in any engine; the instance becomes READY and the reset completes. -/
  | instResetDone (n dt : Nat)
  /-- INST_SET_SHARE (R113). Command that sets an instance's share of one resource from the next period boundary. -/
  | instSetShare (c : Cmd) (resource share : Nat)
  /-- INST_SET_RANK (R121). Command that sets an instance's shedding rank. -/
  | instSetRank (c : Cmd) (rank : Nat)
  /-- INST_RESUME (R115). Command that re-runs admission and returns a SHED instance to ACTIVE if it passes. -/
  | instResume (c : Cmd)
  /-- INST_QUERY (R127). Command that returns an instance's state, GEN, rank, shares and quota usage. -/
  | instQuery (c : Cmd)
  /-- ACCOUNTING_PERIOD (R108). At each 1 ms TAI boundary the rate counters restart and pending share changes take effect. -/
  | accountingPeriod (dt : Nat)
  /-- MAC_FRAME_RECEIVE (R138). A port MAC receives a frame, classifies it into one counter and passes it to the switch or drops it. -/
  | macFrameReceive (port fid : Nat) (f : Frame) (v : RxVerdict) (dt : Nat)
  /-- MAC_FRAME_TRANSMIT (R146). At a transmit opportunity the MAC selects the head frame of an eligible queue and sends it. -/
  | macFrameTransmit (port : Nat) (t : TxStep) (dt : Nat)
  /-- LINK_DOWN (R150). The PCS declares the link down; queues 4 to 7 and the frame in transmission are dropped and the hold starts. -/
  | linkDown (port : Nat) (rx : Option (Nat × Frame)) (dt : Nat)
  /-- LINK_UP (R152). The link comes up; HOLDING clears, CUR returns to BASE and held frames resume. -/
  | linkUp (port speed : Nat) (half : Bool) (dt : Nat)
  /-- LINK_HOLD_EXPIRY (R151). The link-flap hold elapses with the link down and the held frames are dropped. -/
  | linkHoldExpiry (port dt : Nat)
  /-- PORT_ENABLE_FALL (R136). A fall of MAC_CFG.ENABLE acts on queued frames as a loss of link. -/
  | portEnableFall (port dt : Nat)
  /-- MAC_CFG_WRITE (R135). A write to MAC_CFG, ignored whole when it sets an unlisted mode, FEC 3 or an out-of-range MAX_FRAME. -/
  | macCfgWrite (port : Nat) (value : Word)
  /-- TX_THRESH_BASE_WRITE (R145). A valid write of BASE sets the start threshold and restores CUR. -/
  | txThreshBaseWrite (port base : Nat)
  /-- TX_THRESH_RESTORE (R145). A write of 1 to RESTORE sets CUR to BASE. -/
  | txThreshRestore (port : Nat)
  /-- SNAP_TAKE (R155). A write of 1 to MAC_SNAP_CTRL.TAKE sets BUSY and fixes the snapshot instant T. -/
  | snapTake
  /-- SNAPSHOT_LATCH (R156). At instant T every port island copies its counters into MAC_SNAPSTAT and BUSY falls. -/
  | snapshotLatch (dt : Nat)
  /-- PORT_SNAPSHOT (R159). Command that latches all port counters and returns those of the masked ports. -/
  | portSnapshot (c : Cmd) (mask : Nat)
  /-- PORT_THRESH_RESTORE (R145). Command that restores CUR to BASE on the masked ports. -/
  | portThreshRestore (c : Cmd) (mask : Nat)
  /-- FRAME_FORWARD (R169). The switch classifies a frame, applies redundancy and forwarding and admits it to each output queue. -/
  | frameForward (inp fid : Nat) (f : Frame) (dt : Nat)
  /-- FDB_ENTRY_AGE (R164). A learned entry not refreshed within FDB_AGE is removed. -/
  | fdbEntryAge (mac vid dt : Nat)
  /-- NODE_ENTRY_FORGET (R189). A node-table entry not refreshed within NODE_FORGET is freed. -/
  | nodeEntryForget (pair mac dt : Nat)
  /-- CISTERN_CENSUS (R179). Every 100 ms the switch latches its cell counts and starts a walk if they do not sum correctly. -/
  | cisternCensus (skew : Int) (dt : Nat)
  /-- CISTERN_WALK_DONE (R179). The two-pass cell walk ends; orphans are reclaimed and double-held cells are reported. -/
  | cisternWalkDone (orphans : Nat) (doubles : List (Nat × Nat)) (dt : Nat)
  /-- SUPERVISION_SEND (R190). Once per LIFE_CHECK the device sends supervision frames on both ports of each redundancy pair. -/
  | supervisionSend (pair dt : Nat)
  /-- SUPERVISION_SILENCE (R192). No supervision frame from a node has arrived on one side for 3 × LIFE_CHECK and EV_RED_PAIR is raised. -/
  | supervisionSilence (pair mac : Nat) (b : Bool) (dt : Nat)
  /-- SW_VLAN_SET (R163). Command that sets the member and untagged sets of a VID. -/
  | swVlanSet (c : Cmd) (vid members untagged : Nat)
  /-- SW_FDB_ADD (R163). Command that adds or replaces a static FDB entry. -/
  | swFdbAdd (c : Cmd) (mac vid ports fns : Nat)
  /-- SW_FDB_DEL (R194). Command that deletes an FDB entry. -/
  | swFdbDel (c : Cmd) (mac vid : Nat)
  /-- SW_FDB_FLUSH (R194). Command that removes FDB entries of one VID or of all VIDs. -/
  | swFdbFlush (c : Cmd) (vid : Nat) (static : Bool)
  /-- SW_FDB_READ (R194). Command that returns the FDB entries. -/
  | swFdbRead (c : Cmd)
  /-- SW_HOST_VLAN (R168). Command that sets a function's permitted VIDs, default VID and MAX_PCP. -/
  | swHostVlan (c : Cmd) (m maxPcp defVid : Nat) (vids : List Nat)
  /-- SW_RED_SET (R182). Command that sets the redundancy mode of a port pair. -/
  | swRedSet (c : Cmd) (j mode : Nat)
  /-- SW_NODE_READ (R194). Command that returns the node-table entries of a pair. -/
  | swNodeRead (c : Cmd) (j : Nat)
  /-- SW_CENSUS_NOW (R194). Command that takes a Cistern census at once. -/
  | swCensusNow (c : Cmd) (skew : Int)
  /-- PTP_SYNC_RECEIVE (R202). A Sync or Follow_Up from the parent yields a measured offset θ for the servo. -/
  | ptpSyncReceive (m : SyncMsg) (dt : Nat)
  /-- PTP_ANNOUNCE_RECEIVE (R214). An Announce message is received and taken into the best-master algorithm. -/
  | ptpAnnounceReceive (m : AnnounceMsg) (dt : Nat)
  /-- PTP_SYNC_SEND (R214). A master PTP port sends Sync and Announce at each interval. -/
  | ptpSyncSend (port dt : Nat)
  /-- PDELAY_REQ_RECEIVE (R216). A port answers a received Pdelay_Req. -/
  | pdelayReqReceive (port domain seqId dt : Nat)
  /-- PDELAY_MEASURE (R216). Once per second each port measures its meanLinkDelay. -/
  | pdelayMeasure (port : Nat) (x : PdelayTimes) (dt : Nat)
  /-- PPS_IN_EDGE (R218). An active edge of PPS_IN is timestamped and yields a measured offset. -/
  | ppsInEdge (falling : Bool) (dt : Nat)
  /-- IRIG_FRAME (R221). A complete IRIG-B frame is decoded, labelled and compared with the counter. -/
  | irigFrame (m : IrigMsg) (dt : Nat)
  /-- REFERENCE_LOSS (R208). The reference timeout expires and the TSU leaves LOCKED or ACQUIRING. -/
  | referenceLoss (dt : Nat)
  /-- HOLD_TIMER_EXPIRY (R210). 10 s after the loss of reference the TSU enters HOLDOVER. -/
  | holdTimerExpiry (dt : Nat)
  /-- LEAP_SECOND (R223). At the end of the UTC day with LEAP_PENDING set, UTC_OFFSET changes and EV_LEAP is raised. -/
  | leapSecond (dt : Nat)
  /-- PPS_OUT_EDGE (R222). At each whole TAI second PPS_OUT rises unless OUT_GATE holds it low. -/
  | ppsOutEdge (dt : Nat)
  /-- SERVO_EN_FALL (R209). SERVO_EN falls; the TSU enters FREERUN and LOCKED_ONCE clears. -/
  | servoEnFall
  /-- SERVO_EN_RISE (R207). SERVO_EN rises and acquisition starts from FREERUN. -/
  | servoEnRise
  /-- TSU_NOW_NS_READ (R201). A read of TSU_NOW_NS latches the seconds of the same tick. -/
  | tsuNowNsRead (fn dt : Nat)
  /-- TSU_TXQ_POP_READ (R226). A read of TSU_TXQ_POP removes the head timestamp entry and latches its time. -/
  | tsuTxqPopRead (q : Nat)
  /-- TIME_QUERY (R228). Command that returns the time, TSU state, TQ, offset and rate. -/
  | timeQuery (c : Cmd)
  /-- TIME_SET (R228). Command that sets the counter when SRC is 0. -/
  | timeSet (c : Cmd) (sec ns : Nat)
  /-- TIME_REACQUIRE (R228). Command that returns the TSU to FREERUN with LOCKED_ONCE cleared. -/
  | timeReacquire (c : Cmd)
  /-- INGEST_FRAME (R239). The ingest engine takes a frame from IPORT_INGEST and judges it through the check sequence for every matching entry. -/
  | ingestFrame (p : IngestPdu) (dt : Nat)
  /-- SUB_SUPERVISION_EXPIRY (R254). A subscription's supervision deadline passes and the entry goes to LOST or AUTH_ERR. -/
  | subSupervisionExpiry (goose : Bool) (index dt : Nat)
  /-- SUB_SV_SET (R234). Command that stages an SV subscription record and allocates channel slots. -/
  | subSvSet (c : Cmd) (index : Nat) (x : SvRec)
  /-- SUB_GOOSE_SET (R236). Command that stages a GOOSE subscription record. -/
  | subGooseSet (c : Cmd) (index : Nat) (x : GooseRec)
  /-- SUB_DELETE (R259). Command that stages the deletion of a subscription. -/
  | subDelete (c : Cmd) (kind index : Nat)
  /-- SUB_READ (R259). Command that returns a committed subscription and its state. -/
  | subRead (c : Cmd) (kind index : Nat)
  /-- SUB_KEY_SET (R246). Command that changes a subscription's key slots for frames verified afterwards. -/
  | subKeySet (c : Cmd) (kind index keyA keyB : Nat)
  /-- SUB_LIST (R259). Command that lists the instance's subscriptions. -/
  | subList (c : Cmd) (kind : Nat)
  /-- TICK_PROCESS (R265). At t + H Confluence resamples, filters and writes the outputs of a grid tick and raises the tick flags. -/
  | tickProcess (n dt : Nat)
  /-- DEC_SYNC_EDGE (R288). An active edge on the DEC_SYNC ball makes a decimator reset request. -/
  | decSyncEdge (falling : Bool) (dt : Nat)
  /-- CFL_CHAN_SET (R301). Command that stages a channel record. -/
  | cflChanSet (c : Cmd) (slot : Nat) (x : ChanRec)
  /-- CFL_STREAM_SET (R301). Command that stages a stream tracking record. -/
  | cflStreamSet (c : Cmd) (index : Nat) (x : StreamRec)
  /-- CFL_COEF_SET (R292). Command that writes an FIR coefficient set that is not in use. -/
  | cflCoefSet (c : Cmd) (set delay : Nat) (taps : List Word)
  /-- CFL_PROTO_LOAD (R277). Command that loads an interpolator prototype table. -/
  | cflProtoLoad (c : Cmd) (proto : Nat) (table : List (List Word))
  /-- CFL_BANK_SELECT (R291). Command that requests a fade to a coefficient bank. -/
  | cflBankSelect (c : Cmd) (slot bank len : Nat)
  /-- CFL_DC_HOLD (R294). Command that sets or clears DC_HOLD of a channel. -/
  | cflDcHold (c : Cmd) (slot : Nat) (hold : Bool)
  /-- CFL_DEC_SYNC (R288). Command that makes a decimator reset request for a given instant. -/
  | cflDecSync (c : Cmd) (sec ns : Nat)
  /-- CFL_CHAN_READ (R301). Command that returns a channel's committed record, state and delay. -/
  | cflChanRead (c : Cmd) (slot : Nat)
  /-- NODE_DISPATCH (R315). Sluice dispatches the oldest, most urgent queued node to a free unit of its class. -/
  | nodeDispatch (dt : Nat)
  /-- JOB_FINISH (R318). A unit reports a job's completion, its outputs are written and its successor edges fire. -/
  | jobFinish (n node gen : Nat) (cancelOut : Bool) (dt : Nat)
  /-- BUDGET_ABORT (R317). A node not complete at the end of its budget is aborted and its successors fire on held outputs. -/
  | budgetAbort (n node gen dt : Nat)
  /-- GRAPH_EXCHANGE (R330). At the first P-tick flag with no old node in flight, the new graph replaces the old one. -/
  | graphExchange (n dt : Nat)
  /-- EXCHANGE_TIMEOUT (R330). No exchange point within 96 P ticks; the old graph stays and INST_COMMIT completes with ST_BUSY. -/
  | exchangeTimeout (n dt : Nat)
  /-- SLC_GRAPH_LOAD (R328). Command that verifies and stages a graph image. -/
  | slcGraphLoad (c : Cmd) (octets : List Nat) (sig : Nat) (image : Graph)
  /-- SLC_GRAPH_UNLOAD (R332). Command that stages the removal of the instance's graph. -/
  | slcGraphUnload (c : Cmd)
  /-- SLC_ADMIT_CHECK (R323). Command that runs admission on the staged configuration without change. -/
  | slcAdmitCheck (c : Cmd)
  /-- SLC_CANCEL (R316). Command that cancels a node. -/
  | slcCancel (c : Cmd) (node : Nat)
  /-- SLC_TRIGGER (R311). Command that fires a command-trigger binding. -/
  | slcTrigger (c : Cmd) (bind : Nat)
  /-- SLC_NODE_READ (R332). Command that returns a node's status, flags and counts. -/
  | slcNodeRead (c : Cmd) (node : Nat)
  /-- SLC_CHAIN_READ (R688). Command that returns a chain's stored bound and measured interval. -/
  | slcChainRead (c : Cmd) (ident : Nat)
  /-- GRP_FORCE (R416). Command that forces a selector to a group. -/
  | grpForce (c : Cmd) (sel group : Nat)
  /-- GRP_RELEASE (R416). Command that returns a selector to AUTO. -/
  | grpRelease (c : Cmd) (sel : Nat)
  /-- GRP_QUERY (R416). Command that returns the state of every group selector. -/
  | grpQuery (c : Cmd)
  /-- CLE_CYCLE (R423). A logic engine runs one task cycle through its input, execute and output phases. -/
  | cleCycle (n task dt : Nat)
  /-- CLE_EMPTY_JOB (R443). A release in STOP, HOLD or HALTED, or after a supervisory fault, completes as an empty job. -/
  | cleEmptyJob (n task dt : Nat)
  /-- CLE_CYCLE_FAULT (R440). A cycle overruns or meets a BOUND error and the task is halted or skipped by its class. -/
  | cleCycleFault (n task dt : Nat)
  /-- RETAIN_CHECKPOINT (R447). At a whole TAI second the HKP checkpoints changed RETAIN variables to CLE_RETAIN within the write allowance. -/
  | retainCheckpoint (dt : Nat)
  /-- CLE_PROG_LOAD (R432). Command that verifies and stages a CLE program image. -/
  | cleProgLoad (c : Cmd) (octets : List Nat) (sig : Nat) (image : CleImage)
  /-- CLE_PROG_UNLOAD (R453). Command that stages the removal of every task. -/
  | cleProgUnload (c : Cmd)
  /-- CLE_TASK_MODE (R444). Command that changes a task's mode. -/
  | cleTaskMode (c : Cmd) (index mode : Nat)
  /-- CLE_TASK_START (R446). Command that starts a stopped or halted task warm or cold. -/
  | cleTaskStart (c : Cmd) (index : Nat) (warm : Bool)
  /-- CLE_TASK_STEP (R445). Command that runs one cycle of a held task. -/
  | cleTaskStep (c : Cmd) (index : Nat)
  /-- CLE_VAR_READ (R453). Command that reads task variables between cycles. -/
  | cleVarRead (c : Cmd) (index addr len : Nat)
  /-- CLE_VAR_WRITE (R453). Command that writes task variables between cycles. -/
  | cleVarWrite (c : Cmd) (index addr : Nat) (octets : List Byte)
  /-- CLE_TASK_READ (R453). Command that returns a task's mode, class, engine and counts. -/
  | cleTaskRead (c : Cmd) (index : Nat)
  /-- LOOP_EVALUATION (R465). Millrace evaluates a loop and commits its state and destinations if the deadline is met. -/
  | loopEvaluation (n index dt : Nat)
  /-- MLR_LOOP_SET (R474). Command that stages a loop record. -/
  | mlrLoopSet (c : Cmd) (index : Nat) (x : LoopRec)
  /-- MLR_LOOP_DELETE (R476). Command that stages the deletion of a loop. -/
  | mlrLoopDelete (c : Cmd) (index : Nat)
  /-- MLR_MODE (R471). Command that requests MANUAL or AUTO for a loop. -/
  | mlrMode (c : Cmd) (index mode : Nat) (value : Option Word)
  /-- MLR_INJECT (R472). Command that schedules a test-signal injection into a loop. -/
  | mlrInject (c : Cmd) (index stage kind order : Nat) (a fStart fEnd : Word) (len hold seconds tick : Nat)
  /-- MLR_INJECT_STOP (R476). Command that stops an injection. -/
  | mlrInjectStop (c : Cmd) (index : Nat)
  /-- MLR_CAPTURE (R473). Command that starts a capture in a slot. -/
  | mlrCapture (c : Cmd) (slot index sigA sigB points seconds tick : Nat)
  /-- MLR_CAPTURE_READ (R476). Command that returns captured points and clears DONE. -/
  | mlrCaptureRead (c : Cmd) (slot : Nat)
  /-- MLR_LOOP_READ (R476). Command that returns a loop's mode, output and status. -/
  | mlrLoopRead (c : Cmd) (index : Nat)
  /-- GOOSE_RETRANSMIT (R484). At a scheduled instant a GOOSE block is retransmitted with sqNum advanced. -/
  | gooseRetransmit (d dt : Nat)
  /-- TRIB_SEND (R493). At t_k + 100 µs a twin sends one Tributary frame of mirrored records. -/
  | tribSend (dt : Nat)
  /-- TRIB_RECEIVE (R494). A Tributary frame is authenticated and its mirrored items are applied. -/
  | tribReceive (m : TribMsg) (dt : Nat)
  /-- TWIN_JOIN_END (R654). A join ends when every item is received or 4,800 P ticks have passed. -/
  | twinJoinEnd (complete : Bool) (dt : Nat)
  /-- TRIB_TIMEOUT (R497). No accepted Tributary frame within TRIB_TIMEOUT ticks; the pair becomes LONE. -/
  | tribTimeout (dt : Nat)
  /-- SOFB_MISMATCH (R499). A readback mismatch lasting more than 40 µs faults the output and drives it safe. -/
  | sofbMismatch (n : Nat) (level : Bool) (cause dt : Nat)
  /-- OFF_PULSE_START (R500). At its slot an energised output is driven off for its off-pulse test. -/
  | offPulseStart (n dt : Nat)
  /-- OFF_PULSE_END (R500). After OFFPULSE the output is driven on again. -/
  | offPulseEnd (n dt : Nat)
  /-- BI_CHANGE (R501). A binary input level stable for DEBOUNCE is accepted as a change. -/
  | biChange (n : Nat) (level : Bool) (edge dt : Nat)
  /-- LATCH_RESET (R502). The 20 ms high of the reset sequence completes and the latch resets unless R503 refuses it. -/
  | latchReset (l dt : Nat)
  /-- SIO_SESSION_EXPIRY (R506). An unlocked safety session ends 600 s after it opened. -/
  | sioSessionExpiry (fn dt : Nat)
  /-- PUB_GOOSE_SET (R481). Command that stages a GOOSE publication record. -/
  | pubGooseSet (c : Cmd) (index : Nat) (x : GoosePub)
  /-- PUB_SV_SET (R485). Command that stages an SV publication record. -/
  | pubSvSet (c : Cmd) (index : Nat) (x : SvPub)
  /-- PUB_DELETE (R511). Command that stages the deletion of a publication. -/
  | pubDelete (c : Cmd) (kind index : Nat)
  /-- PUB_READ (R511). Command that returns a publication's counters and state. -/
  | pubRead (c : Cmd) (kind index : Nat)
  /-- TRIB_SET (R492). Command that configures Tributary for the twin. -/
  | tribSet (c : Cmd) (twinId pairId portA : Nat) (portB : Option Nat) (key da timeout vid : Nat)
  /-- TRIB_QUERY (R511). Command that returns the Tributary state. -/
  | tribQuery (c : Cmd)
  /-- SIO_UNLOCK (R506). Command that verifies the safety password and opens a session. -/
  | sioUnlock (c : Cmd) (password : List Nat)
  /-- SIO_LOCK (R506). Command that ends a safety session. -/
  | sioLock (c : Cmd)
  /-- SIO_PASSWORD_SET (R507). Command that sets or changes the safety password. -/
  | sioPasswordSet (c : Cmd) (old new : List Nat)
  /-- SIO_CFG_SET (R505). Command that changes a safety configuration item. -/
  | sioCfgSet (c : Cmd) (item index value : Nat)
  /-- SIO_FAULT_CLEAR (R499). Command that clears a faulted safety output. -/
  | sioFaultClear (c : Cmd) (n : Nat) (sofb : List Bool)
  /-- SIO_QUERY (R511). Command that returns output, readback, fault, latch and input levels. -/
  | sioQuery (c : Cmd) (sofb : Word)
  /-- DR_ROW_WRITE (R519). At t + H + 208,333⅓ ns a recorder writes the row of a grid instant. -/
  | drRowWrite (d dt : Nat)
  /-- XTRIG_IN_EDGE (R520). A falling edge of XTRIG_IN is timestamped and triggers enabled recorders. -/
  | xtrigInEdge (n dt : Nat)
  /-- DR_AUTO_TRIGGER (R526). A recorder with AUTO and no trigger for AUTO_T triggers itself. -/
  | drAutoTrigger (d dt : Nat)
  /-- DR_REARM_EXPIRY (R524). REARM µs pass; the record closes and the recorder is ARMED. -/
  | drRearmExpiry (d dt : Nat)
  /-- XTRIG_OUT_PULSE_END (R523). XTRIG_W after its last drive the recorder releases XTRIG_OUT. -/
  | xtrigOutPulseEnd (n dt : Nat)
  /-- DRC_SET (R516). Command that stages a recorder record. -/
  | drcSet (c : Cmd) (index : Nat) (x : DrRec)
  /-- DRC_DELETE (R534). Command that stages the deletion of a recorder. -/
  | drcDelete (c : Cmd) (index : Nat)
  /-- DRC_MASK_SET (R527). Command that stages a mask test. -/
  | drcMaskSet (c : Cmd) (index test chan : Nat) (points : List (Int × Word × Word))
  /-- DRC_TRIGGER (R520). Command that triggers a recorder. -/
  | drcTrigger (c : Cmd) (index seconds ns : Nat)
  /-- DRC_ARM (R524). Command that arms a stopped or full recorder. -/
  | drcArm (c : Cmd) (index : Nat)
  /-- DRC_STOP (R524). Command that stops a recorder. -/
  | drcStop (c : Cmd) (index : Nat)
  /-- DRC_LIST (R534). Command that returns the headers of held records. -/
  | drcList (c : Cmd) (index : Nat)
  /-- DRC_READ (R534). Command that returns raw rows of a held record. -/
  | drcRead (c : Cmd) (index number first rows : Nat)
  /-- DRC_EXPORT (R533). Command that exports a held record as COMTRADE files. -/
  | drcExport (c : Cmd) (index number : Nat)
  /-- DRC_RELEASE (R528). Command that frees a held record. -/
  | drcRelease (c : Cmd) (index number : Nat)
  /-- CELLAR_FLUSH_SECOND (R541). A whole TAI second passes with unflushed records and a flush starts. -/
  | cellarFlushSecond (dt : Nat)
  /-- CELLAR_FLUSH_DONE (R541). A flush of staged records to FLB ends, with page tags and block erases. -/
  | cellarFlushDone (tagErases : Nat) (err : Option (Nat × Nat)) (dt : Nat)
  /-- STAGE_LOSS_RECORD (R543). Once the stage has room, a STAGE_LOSS record is staged and EV_CEL_LOSS is raised. -/
  | stageLossRecord (dt : Nat)
  /-- CEL_READ (R556). Command that returns Cellar records with their verification state. -/
  | celRead (c : Cmd) (start count : Nat) (bad : List Nat)
  /-- CEL_FLUSH (R541). Command that flushes the Cellar stage. -/
  | celFlush (c : Cmd)
  /-- CEL_CHALLENGE (R547). Command that returns a clearing nonce. -/
  | celChallenge (c : Cmd)
  /-- CEL_CLEAR (R547). Command that clears Cellar records under a signed authorisation. -/
  | celClear (c : Cmd) (slot limit sig : Nat)
  /-- LGR_READ (R556). Command that returns ledger counters. -/
  | lgrRead (c : Cmd) (first count : Nat)
  /-- LGR_ASSIGN (R551). Command that assigns a ledger counter to an instance. -/
  | lgrAssign (c : Cmd) (counter inst : Nat)
  /-- LGR_ADD (R556). Command that adds to an assigned ledger counter. -/
  | lgrAdd (c : Cmd) (counter n : Nat)
  /-- OPERATING_HOUR (R548). Each 3,600 s of core power increments OPERATING_HOURS. -/
  | operatingHour (dt : Nat)
  /-- TEMP_BIN_MINUTE (R548). Each minute of operation increments the bin of the highest junction temperature. -/
  | tempBinMinute (tj : Int) (dt : Nat)
  /-- SERVICE_DAY (R549). A TAI day with known time and core power is counted in DAYS_IN_SERVICE. -/
  | serviceDay (dt : Nat)
  /-- LEDGER_WRITE (R554). Pending ledger values are written to copy A and then copy B. -/
  | ledgerWrite (copyB : Bool) (dt : Nat)
  /-- LEDGER_WEAR_CHECK (R555). Each day the remaining ledger life is estimated and EV_LGR_WEAR may be raised. -/
  | ledgerWearCheck (dt : Nat)
  /-- KEY_REMASK (R583). Every 100 ms each loaded slot and delivered context is re-masked with fresh TRNG data. -/
  | keyRemask (dt : Nat)
  /-- TRNG_HEALTH_FAIL (R565). A TRNG health test fails; the TRNG stops and EV_SRM_TRNG is raised. -/
  | trngHealthFail (test dt : Nat)
  /-- SRM_QUERY (R589). Command that returns the Strongroom state. -/
  | srmQuery (c : Cmd)
  /-- SRM_LC_CHALLENGE (R562). Command that returns a life-cycle nonce. -/
  | srmLcChallenge (c : Cmd)
  /-- SRM_LC_ADVANCE (R563). Command that advances the life-cycle state under a signature. -/
  | srmLcAdvance (c : Cmd) (target sig ownerKey fuses : Nat)
  /-- SRM_KEY_GENERATE (R589). Command that generates a key into a slot. -/
  | srmKeyGenerate (c : Cmd) (slot type keyId attr : Nat)
  /-- SRM_KEY_LOAD (R575). Command that loads a key from a blob. -/
  | srmKeyLoad (c : Cmd) (slot : Nat) (blob : Blob)
  /-- SRM_KEY_LOAD_CLEAR (R582). Command that loads a key given in the clear. -/
  | srmKeyLoadClear (c : Cmd) (slot type keyId attr material : Nat)
  /-- SRM_KEY_IMPORT (R576). Command that unwraps an imported key under a derived KEK. -/
  | srmKeyImport (c : Cmd) (slot type kekSlot keyId attr cipher : Nat)
  /-- SRM_KEY_DERIVE (R576). Command that derives a key-wrapping key by ECDH. -/
  | srmKeyDerive (c : Cmd) (slot privSlot keyId attr peer : Nat)
  /-- SRM_KEY_REPLACE (R579). Command that replaces a slot's key through the journalled replacement. -/
  | srmKeyReplace (c : Cmd) (slot source kekSlot : Nat) (check : Option Nat) (keyId : Nat) (blob : Blob) (cipher : Nat) (testOk : Bool) (reach : Nat)
  /-- SRM_KEY_UNLOAD (R589). Command that unloads a key and clears its bus contexts. -/
  | srmKeyUnload (c : Cmd) (slot : Nat) (purge : Bool)
  /-- SRM_KEY_ATTR (R572). Command that clears attribute bits of a key. -/
  | srmKeyAttr (c : Cmd) (slot bits : Nat)
  /-- SRM_KEY_INFO (R589). Command that returns a slot's key information. -/
  | srmKeyInfo (c : Cmd) (slot : Nat)
  /-- SRM_KEY_EXPORT (R576). Command that exports an exportable key wrapped under a KEK. -/
  | srmKeyExport (c : Cmd) (slot kekSlot : Nat)
  /-- SRM_CRYPT (R570). Command that runs a cryptographic operation with a slot's key. -/
  | srmCrypt (c : Cmd) (slot op : Nat) (d : CryptData)
  /-- SRM_RANDOM (R589). Command that returns random bytes. -/
  | srmRandom (c : Cmd) (len : Nat)
  /-- SRM_ATTEST_KEY (R585). Command that returns a signed key statement. -/
  | srmAttestKey (c : Cmd) (slot nonce : Nat)
  /-- SRM_ATTEST_DEVICE (R585). Command that returns a signed device statement. -/
  | srmAttestDevice (c : Cmd) (nonce : Nat)
  /-- SRM_IDENTITY (R587). Command that returns the identity point and its factory endorsement. -/
  | srmIdentity (c : Cmd)
  /-- SRM_DEBUG_UNLOCK (R588). Command that unlocks debug under an owner signature. -/
  | srmDebugUnlock (c : Cmd) (sig : Nat)
  /-- CAN_FRAME_RECEIVE (R598). A received CAN frame is stored in the lowest matching receive buffer or its shadow. -/
  | canFrameReceive (n : Nat) (f : CanFrame) (sof : Nat) (locked : Bool) (tec rec' dt : Nat)
  /-- CAN_FRAME_END (R601). A transmitted CAN frame ends with a status of Table 18.4. -/
  | canFrameEnd (n b : Nat) (e : CanEnd) (tec rec' : Nat) (tdcv : Option Nat) (dt : Nat)
  /-- CAN_SLOT_INSTANT (R603). At a schedule slot instant a scheduled buffer becomes pending. -/
  | canSlotInstant (n cycle slot dt : Nat)
  /-- CAN_SLOT_WINDOW_EXPIRY (R603). A scheduled frame not sent by the slot window end is withdrawn as SLOT_MISSED. -/
  | canSlotWindowExpiry (n cycle slot dt : Nat)
  /-- CAN_SUPERVISION_EXPIRY (R600). A receive buffer's supervision expires and it becomes invalid. -/
  | canSupervisionExpiry (n b dt : Nat)
  /-- CAN_RECOVERY_DONE (R607). After 128 recessive sequences bus-off recovery completes. -/
  | canRecoveryDone (n dt : Nat)
  /-- FB_BUF_SET (R597). Command that configures a message buffer. -/
  | fbBufSet (c : Cmd) (n b : Nat) (x : CanRec)
  /-- FB_SCHED_SET (R602). Command that loads a schedule matrix. -/
  | fbSchedSet (c : Cmd) (n len window : Nat) (cycles : List (List CanSlot))
  /-- FB_TX (R601). Command that requests transmission of a buffer. -/
  | fbTx (c : Cmd) (n b : Nat) (data : List Nat)
  /-- FB_CANCEL (R608). Command that cancels a pending transmission. -/
  | fbCancel (c : Cmd) (n b : Nat) (onWire : Bool)
  /-- FB_BUF_READ (R599). Command that reads a receive buffer under its lock. -/
  | fbBufRead (c : Cmd) (n b : Nat)
  /-- FB_RECOVER (R607). Command that starts bus-off recovery. -/
  | fbRecover (c : Cmd) (n : Nat)
  /-- ERROR_REPORT (R614). An error report against a unit takes it out of service and starts its self-test. -/
  | errorReport (unit kind : Nat) (by' : Reader) (dt : Nat)
  /-- SELF_TEST_DONE (R615). A targeted self-test ends; the unit returns to service or is retired. -/
  | selfTestDone (unit : Nat) (pass : Bool) (dt : Nat)
  /-- ISLAND_RELOCK_TIMEOUT (R619). An island PLL not relocked within 10 ms has a lasting fault. -/
  | islandRelockTimeout (island dt : Nat)
  /-- HKP_RETURN (R622). The HKP returns from its restart and discards the commands left uncompleted. -/
  | hkpReturn (pass : Bool) (dt : Nat)
  /-- ADMISSION_RUN (R623). An admission run after a unit loss completes and sheds instances if it fails. -/
  | admissionRun (dt : Nat)
  /-- FLT_LIST (R629). Command that lists suspect, retired and recently transient units. -/
  | fltList (c : Cmd)
  /-- FLT_UNIT_RETEST (R621). Command that retests a suspect or retired unit. -/
  | fltUnitRetest (c : Cmd) (unit : Nat)
  /-- FLT_INJECT (R629). Command that delivers one error report to a unit. -/
  | fltInject (c : Cmd) (unit kind : Nat)
  /-- COLD_START (R633). Power-up, a rise of PORST_N or a cold restart runs the cold start sequence. -/
  | coldStart (k : StartIn) (dt : Nat)
  /-- WARM_START (R633). A rise of SYSRST_N or a warm restart runs the warm start sequence. -/
  | warmStart (k : StartIn) (dt : Nat)
  /-- PROTECTION_START (R105). The start completes, instances return to ACTIVE, PROTECTION rises and HEALTHY goes high. -/
  | protectionStart (dt : Nat)
  /-- SYSRST_N_FALL (R634). A fall of SYSRST_N puts the SDRAM into self-refresh and the device into reset. -/
  | sysrstNFall (dt : Nat)
  /-- PORST_N_FALL (R636). A fall of PORST_N puts the device into reset. -/
  | porstNFall (dt : Nat)
  /-- DEV_RESTART (R658). Command that restarts the device warm or cold. -/
  | devRestart (c : Cmd) (cold : Bool)
  /-- DEV_IMAGE_WRITE (R658). Command that writes part of the image not running. -/
  | devImageWrite (c : Cmd) (offset len : Nat) (content : Image) (erased : Nat)
  /-- DEV_IMAGE_COMMIT (R658). Command that verifies the written image and sets it as trial. -/
  | devImageCommit (c : Cmd) (tries : Nat)
  /-- DEV_IMAGE_CONFIRM (R641). Command that makes a running trial image active. -/
  | devImageConfirm (c : Cmd)
  /-- DEV_BOOT_QUERY (R658). Command that returns the boot state and image versions. -/
  | devBootQuery (c : Cmd)
  /-- TRIAL_BOOT_TIMEOUT (R641). A trial image not raising PROTECTION within 1.5 s restarts cold. -/
  | trialBootTimeout (k : StartIn) (dt : Nat)
  /-- AUTO_CONFIRM_EXPIRY (R641). HEALTHY high for AUTO_CONFIRM makes the trial image active. -/
  | autoConfirmExpiry (dt : Nat)
  /-- PWRFAIL_N_FALL (R646). A 10 µs fall of PWRFAIL_N starts the power-fail sequence and the final flush. -/
  | pwrfailNFall (lowNs dt : Nat)
  /-- POWER_FAIL_RESET (R649). At 2.0 ms the power-fail sequence ends with the device in reset. -/
  | powerFailReset (dt : Nat)
  /-- PWRFAIL_N_RISE (R649). PWRFAIL_N rising after a power-fail sequence makes a warm start. -/
  | pwrfailNRise (k : StartIn) (dt : Nat)
  /-- AON_FEED_CHANGE (R650). A change of VAON_A or VAON_B lasting 1 ms is reported and raises EV_AON_FEED. -/
  | aonFeedChange (a b : Bool) (dt : Nat)
  /-- CORE_POWER_LOSS (R651). Core power is removed; with both feeds absent the counter and non-persistent slots are lost. -/
  | corePowerLoss (dt : Nat)
  /-- THERMAL_TRIP (R680). A sensor at 125 °C for 1 ms puts the device into reset as if PORST_N fell. -/
  | thermalTrip (tj : Int) (dt : Nat)
  /-- THERMAL_RECOVER (R680). Every sensor below 100 °C releases the thermal reset into a cold start. -/
  | thermalRecover (k : StartIn) (dt : Nat)
  /-- SRAM_SCRUB (R28). The background scrubber reads an SRAM word, corrects and writes back a single-bit error, counts it against the bank, and may raise an error report. -/
  | sramScrub (bank found dt : Nat)
  /-- ISLAND_PLL_RELOCK (R619). An island PLL or lane clock that lost lock regains it, and the loss is judged transient when the relock comes within 1 ms. -/
  | islandPllRelock (island dt : Nat)
  /-- PPS_OUT_PULSE_END (R222). OUT_WIDTH ms after its rising edge, PPS_OUT is driven low. -/
  | ppsOutPulseEnd (dt : Nat)
  deriving DecidableEq, Repr

end Sys2Proof
end

