-- ==== Sys2Proof/Machine/Crc.lean ====
section
/-! DEFINITION. CRC-32 of IEEE 802.3, as R163, R552 and R639 use it. -/

namespace Sys2Proof.Machine

/-- One bit of the division: `c` holds the remainder, bit 31 the coefficient of x^31. -/
def crcBit (c : Nat) (b : Bool) : Nat :=
  let top := c.testBit 31 != b
  let c := (c <<< 1) % 2 ^ 32
  if top then c ^^^ 0x04C11DB7 else c

/-- One octet, in the order of transmission: its least significant bit first. -/
def crcOctet (c octet : Nat) : Nat := (List.range 8).foldl (fun c i => crcBit c (octet.testBit i)) c

/-- The CRC-32 of an FCS over the octets, final complement included, bit 31 the coefficient of x^31 (R163). -/
def crc32 (octets : List Nat) : Nat := (octets.foldl crcOctet 0xFFFFFFFF) ^^^ 0xFFFFFFFF

/-- The 32 bits of a number in the opposite order. -/
def reverse32 (n : Nat) : Nat := (List.range 32).foldl (fun acc i => acc * 2 + (if n.testBit i then 1 else 0)) 0

/-- The `n` octets of a number, most significant first. -/
def octetsOf (n v : Nat) : List Nat := (List.range n).map fun i => (v >>> (8 * (n - 1 - i))) % 256

/-- The FDB bucket of an address and a VID (R163). -/
def fdbBucket (mac vid : Nat) : Nat := crc32 (octetsOf 6 mac ++ octetsOf 2 (vid % 4096)) % 4096

end Sys2Proof.Machine
end

