-- ==== Sys2Proof/Machine/Flb.lean ====
section
/-! DEFINITION. The regions of FLB (Tables 16.3, 17.8 and 20.7). -/

namespace Sys2Proof.Machine

/-- A region of FLB. -/
inductive Flb where
  | celRing | celTags | celJournal | lgrA | lgrB | srmStore | srmJournal | devState | cleRetain | configStore
  deriving DecidableEq, Repr

/-- The offset of a region. -/
def Flb.offset : Flb → Nat
  | .celRing => 0x00000000 | .celTags => 0x10000000 | .celJournal => 0x10200000 | .lgrA => 0x10400000 | .lgrB => 0x10C00000
  | .srmStore => 0x11400000 | .srmJournal => 0x11480000 | .devState => 0x11500000 | .cleRetain => 0x11600000
  | .configStore => 0x12000000

/-- The size of a region in bytes. -/
def Flb.size : Flb → Nat
  | .celRing => 2 ^ 28 | .celTags => 2 ^ 21 | .celJournal => 2 ^ 17 | .lgrA | .lgrB => 2 ^ 23
  | .srmStore => 2 ^ 19 | .srmJournal => 2 ^ 17 | .devState => 2 ^ 20 | .cleRetain => 10 * 2 ^ 20 | .configStore => 2 ^ 27

/-- An address lies in a region. -/
def Flb.holds (x : Flb) (address : Nat) : Bool := decide (x.offset ≤ address) && decide (address < x.offset + x.size)

/-- Erase blocks of 64 KiB of a region (R544). -/
def Flb.blocks (x : Flb) : Nat := x.size / 65536

/-- Erases that an FLB block is rated for (R555). -/
def flbRating : Nat := 100000

/-- The place of a record in the ring, as a byte address (R544). -/
def recordAddress (seq : Nat) : Nat := Flb.celRing.offset + (seq - 1) % 4194304 * 64

/-- An address that a flush of the Cellar writes to (R544): in its ring, its tags or its journal. -/
def flushAddress (address : Nat) : Bool := [Flb.celRing, .celTags, .celJournal].any fun x => x.holds address

end Sys2Proof.Machine
end

