-- ==== Sys2Proof/Machine/Tab.lean ====
section
/-! DEFINITION. Sparse tables and ascending sets: the one place that reads and writes them. -/

namespace Sys2Proof.Machine

/-- The entry at key `k`, if there is one. -/
def tabGet {α : Type} : Tab α → Nat → Option α
  | [], _ => none
  | (k', v) :: t, k => if k = k' then some v else tabGet t k

/-- The entry at key `k`, or `d`. -/
def tabGetD {α : Type} (t : Tab α) (k : Nat) (d : α) : α := (tabGet t k).getD d

/-- `t` with entry `v` at key `k`; the keys stay strictly rising. -/
def tabSet {α : Type} : Tab α → Nat → α → Tab α
  | [], k, v => [(k, v)]
  | (k', v') :: t, k, v =>
    if k < k' then (k, v) :: (k', v') :: t
    else if k = k' then (k, v) :: t
    else (k', v') :: tabSet t k v

/-- `t` without its entry at key `k`. -/
def tabDel {α : Type} (t : Tab α) (k : Nat) : Tab α := t.filter (fun e => e.1 != k)

/-- `t` with entry `v` at key `k`, where an entry that equals the default is left out. -/
def tabPut {α : Type} [DecidableEq α] (t : Tab α) (k : Nat) (v d : α) : Tab α :=
  if v = d then tabDel t k else tabSet t k v

/-- A 64-bit counter of a table plus `n` (R12: it wraps). -/
def tabAdd (t : Tab Nat) (k n : Nat) : Tab Nat := tabPut t k ((tabGetD t k 0 + n) % 2 ^ 64) 0

/-- A 64-bit counter of a table plus 1. -/
def tabInc (t : Tab Nat) (k : Nat) : Tab Nat := tabAdd t k 1

/-- An ascending set with `k` in it. -/
def setIns : List Nat → Nat → List Nat
  | [], k => [k]
  | x :: t, k => if k < x then k :: x :: t else if k = x then x :: t else x :: setIns t k

/-- A set without `k`. -/
def setDel (s : List Nat) (k : Nat) : List Nat := s.filter (· != k)

/-- A list with its entry `i` changed by `f`. -/
def modAt {α : Type} (l : List α) (i : Nat) (f : α → α) : List α :=
  match l, i with
  | [], _ => []
  | x :: t, 0 => f x :: t
  | x :: t, i + 1 => x :: modAt t i f

/-- The last `n` entries of a list. -/
def lastN {α : Type} (n : Nat) (l : List α) : List α := l.drop (l.length - n)

/-- The numbers of the bits of `w` that are set, below `n`, ascending. -/
def bitsOf (n w : Nat) : List Nat := (List.range n).filter (fun i => w.testBit i)

/-- The bits [h:l] of `w` (R3). -/
def field (w h l : Nat) : Nat := (w >>> l) % 2 ^ (h + 1 - l)

/-- The little-endian number in the `n` octets at offset `off` of some octets (R4). -/
def leNat (l : List Nat) (off n : Nat) : Nat := ((l.drop off).take n).foldr (fun o a => o % 256 + 256 * a) 0

/-- The signed reading of a field of `n` bits. -/
def signedOf (n w : Nat) : Int := if w % 2 ^ n < 2 ^ (n - 1) then (w % 2 ^ n : Nat) else (w % 2 ^ n : Nat) - (2 ^ n : Nat)

/-- The `n` bits of a signed value. -/
def bitsOfInt (n : Nat) (z : Int) : Nat := (z % (2 ^ n : Nat)).toNat

end Sys2Proof.Machine
end

