-- ==== Sys2Proof/Config.lean ====
section
/-! DEFINITION. What the manual fixes by table (status codes, event codes and their severities) and what it leaves open
(the opaque values: no body, so no proof can see one). -/

namespace Sys2Proof.Config

/-- A value the manual leaves open, as `w` bits, for the `n`-th such value a run meets (assumption 1, DESIGN CHOICE).
DESIGN CHOICE: nothing constrains it. -/
opaque freeValue : (w : Nat) → Nat → BitVec w

/-- The sections of a snapshot of what was captured for a function (R86): their numbers and data, which no chapter gives
(assumption 6, DESIGN CHOICE). -/
opaque snapshotSections {α : Type} : Nat → α → List (Nat × List Nat)

/-- The digest of a bank of CONFIG_STORE, which R80 names and no rule defines (assumption 93, DESIGN CHOICE). -/
opaque configDigest {α : Type} : Nat → α → BitVec 256

/-- EV_MEM_MISMATCH (R31, R34) is named by the manual without a code, a source or a severity: open values (assumption 4, DESIGN CHOICE). -/
opaque memMismatchCode : Nat

/-- See `memMismatchCode`.
DESIGN CHOICE, assumption 4: safe. -/
opaque memMismatchSource : Nat

/-- See `memMismatchCode`.
DESIGN CHOICE, assumption 4: safe. -/
opaque memMismatchSeverity : Nat

/-- The MAC address of the device, which the manual names and does not give (assumption 8, DESIGN CHOICE). -/
opaque deviceMac : Nat

/-- The latency of the device's own lane of a port, in ns, on transmit or on receive, by which R224 corrects a timestamp to the
ball; no rule gives it (assumption 78, DESIGN CHOICE). -/
opaque laneLatency : (transmit : Bool) → (port : Nat) → Nat

/-- The payload of a NaN that an operation produces: IEEE 754 leaves it open (assumption 20, DESIGN CHOICE). -/
opaque nanPayload : Nat

/-! The elementary functions that the rules name without an algorithm, on binary64 patterns (assumption 20). -/

/-- Sine, in radians.
DESIGN CHOICE, assumption 20: safe. -/
opaque sin : Word64 → Word64

/-- Cosine, in radians.
DESIGN CHOICE, assumption 20: safe. -/
opaque cos : Word64 → Word64

/-- The angle of a point from its second and first coordinates, in radians, above −π and at most π.
DESIGN CHOICE, assumption 20: safe. -/
opaque atan2 : (y x : Word64) → Word64

/-- The exponential function.
DESIGN CHOICE, assumption 20: safe. -/
opaque exp : Word64 → Word64

/-- The natural logarithm.
DESIGN CHOICE, assumption 20: safe. -/
opaque ln : Word64 → Word64

/-- A power of a base.
DESIGN CHOICE, assumption 20: safe. -/
opaque pow : (base exponent : Word64) → Word64

/-! The algorithms of Table 17.3. The manual names their standards and gives none: their results are open (assumption 17).
Keys, messages, points, tags and signatures are the numbers their octet strings spell. -/

/-- HMAC-SHA-256 of a message under a key.
DESIGN CHOICE, assumption 17: safe. -/
opaque hmac : (key : Nat) → (msg : List Nat) → Nat

/-- SHA-256.
DESIGN CHOICE, assumption 17: safe. -/
opaque sha256 : List Nat → Nat

/-- SHA-384.
DESIGN CHOICE, assumption 17: safe. -/
opaque sha384 : List Nat → Nat

/-- AES-KWP under a key-encryption key.
DESIGN CHOICE, assumption 17: safe. -/
opaque kwpWrap : (kek : Nat) → (plain : List Nat) → Nat

/-- The inverse of AES-KWP: none where its integrity check fails.
DESIGN CHOICE, assumption 17: safe. -/
opaque kwpUnwrap : (kek : Nat) → (cipher : Nat) → Option (List Nat)

/-- ECDSA verification of a message's SHA-384 (or SHA-256) under a public key.
DESIGN CHOICE, assumption 17: safe. -/
opaque ecdsaVerify : (pub : Nat) → (msg : List Nat) → (sig : Nat) → Bool

/-- ECDSA signature of a message under a private key.
DESIGN CHOICE, assumption 17: safe. -/
opaque ecdsaSign : (key : Nat) → (msg : List Nat) → Nat

/-- The public point of a private key.
DESIGN CHOICE, assumption 17: safe. -/
opaque ecPublic : (key : Nat) → Nat

/-- The x-coordinate of ECDH: none where the peer point is not on the curve.
DESIGN CHOICE, assumption 17: safe. -/
opaque ecdh : (key : Nat) → (peer : Nat) → Option Nat

/-- AES-GCM encryption: ciphertext and tag.
DESIGN CHOICE, assumption 17: safe. -/
opaque gcmEncrypt : (key iv aad text : Nat) → Nat × Nat

/-- AES-GCM decryption: none where the tag does not match.
DESIGN CHOICE, assumption 17: safe. -/
opaque gcmDecrypt : (key iv aad cipher tag : Nat) → Option Nat

/-- AES-GMAC.
DESIGN CHOICE, assumption 17: safe. -/
opaque gmac : (key iv : Nat) → (msg : List Nat) → Nat

/-- PBKDF2-HMAC-SHA-256 of a password with a salt and an iteration count.
DESIGN CHOICE, assumption 17: safe. -/
opaque pbkdf2 : (password : List Nat) → (salt iterations : Nat) → Nat

/-- UDS, the fused device secret (R561).
DESIGN CHOICE, assumption 17: safe. -/
opaque uds : Nat

/-- The Kwarel factory public key, whose hash is in mask ROM (Table 17.2).
DESIGN CHOICE, assumption 17: safe. -/
opaque factoryKey : Nat

/-- The estimate of the remaining life of FLB in days, from FLB_ERASES, the erases a block is rated for and the days in service (R555): how
it is formed is not stated.
DESIGN CHOICE, assumption 79: unsafe. -/
opaque lifeLeft : (erases rating days : Nat) → Nat

/-- The private part of `factoryKey`, under which the factory signed the endorsement that the device holds (R587).
DESIGN CHOICE, assumption 17: safe. -/
opaque factorySecret : Nat

/-- ROOT of the identity key's blob, for whose root Table 17.7 has no code.
DESIGN CHOICE, assumption 17: safe. -/
opaque idenRootCode : Nat

/-- SHA-384 of the running HKP firmware of an image, of the protection-core firmware and of the operator catalogue (Table 17.11).
DESIGN CHOICE, assumption 17: safe. -/
opaque firmwareHash : (imageB : Bool) → Nat

/-- See `firmwareHash`.
DESIGN CHOICE, assumption 17: safe. -/
opaque coreFirmwareHash : Nat

/-- See `firmwareHash`.
DESIGN CHOICE, assumption 17: safe. -/
opaque catalogueHash : Nat

/-- The version of the firmware's operator catalogue, as CATALOGUE of a graph image has it (Table 9.13): the manual names none
(assumption 22, DEDUCED). -/
opaque catalogueVersion : BitVec 16

/-- Whether the firmware takes images for another version too: the manual does not say (assumption 22, DEDUCED). -/
opaque catalogueAlso : Nat → Bool

/-- A CATALOGUE version of a graph image is in the firmware (R328 step 2).
DEDUCED, assumption 22: safe. -/
def catalogueHas (v : Nat) : Bool := v == catalogueVersion.toNat || catalogueAlso v

/-- The tangent in binary64 (R464).
DESIGN CHOICE, assumption 20: safe. -/
opaque tan : Word64 → Word64

/-- The number that stands for a binary32 pattern that is infinite or a NaN where a stage of Millrace needs an exact value: the
manual states none (assumption 28, DESIGN CHOICE). -/
opaque notFinite : Word → Rat

/-- The initialisation vector that IEC 62351-6 prescribes for AES-GMAC, of the extension's octets (R243, assumption 97, DESIGN CHOICE). -/
opaque authIv : List Nat → Nat

/-- Bytes there are for the data blocks of the nodes of a class (R329): the manual sizes the SRAM of the engines (Table 1.4), and says
neither which part of it holds the blocks nor what else it holds (assumption 96, DESIGN CHOICE). -/
opaque dataRoom : (cls : Nat) → Nat

/-- CHAIN_ID of the chain that admission includes for a loop (R459): the manual gives it none (assumption 29, DESIGN CHOICE). -/
opaque loopChainId : Nat → Nat

/-- A shift of the maximal-length Fibonacci register of an order, and its output bit (R472): no rule gives the taps.
DESIGN CHOICE, assumption 76: unsafe. -/
opaque prbsNext : (order lfsr : Nat) → Nat

/-- See `prbsNext`.
DESIGN CHOICE, assumption 76: unsafe. -/
opaque prbsBit : (order lfsr : Nat) → Bool

/-- The octets of the .cfg file and of the .inf file of a COMTRADE export, from the items Table 15.5 maps: IEEE C37.111
gives their text, and no rule gives the station name (assumption 25, DESIGN CHOICE). -/
opaque comtradeCfg : List Int → List Nat

/-- See `comtradeCfg`.
DESIGN CHOICE, assumption 25: safe. -/
opaque comtradeInf : List Int → List Nat

/-- The code by which PARAM_DESCRIBE names a class: 0 LIVE, 1 STAGED, 2 RWL (the manual gives no codes; assumption 1, DESIGN CHOICE). -/
opaque paramClassCode : Nat → BitVec 8

/-- The octets of allData for members given as (TYPE, value) (IEC 61850-8-1, assumption 26, DESIGN CHOICE). -/
opaque allData : List (Nat × Nat) → List Nat

/-- The octets of a publication's frame from APPID to the end of any authentication extension, from its fields, AUTH and the key
material (IEC 61850-8-1, IEC 61850-9-2, IEC 62351-6; assumption 26, DESIGN CHOICE). -/
opaque pubOctets : (goose : Bool) → List Int → (auth key : Nat) → List Nat

end Sys2Proof.Config

namespace Sys2Proof

/-- The completion status codes: Table 2.8 (R74) and the class codes of R128, R195, R260, R302, R333, R417, R454, R477,
R512, R535, R557, R590, R610, R630 and R659. -/
inductive Status where
  | ok
  | discarded
  | opcode
  | denied
  | range
  | seq
  | buf
  | state
  | busy
  | window
  | noParam
  | readOnly
  | locked
  | conflict
  | admission
  | auth
  | type
  | internal
  | imageSig
  | imageSvn
  | imageState
  | shareSum
  | shareFloor
  | latchSet
  | fdbFull
  | pairMismatch
  | redConflict
  | subFull
  | subDup
  | subSlots
  | keyAttr
  | cflMem
  | cflSet
  | cflProto
  | cflChan
  | slcImage
  | slcCycle
  | slcCatalogue
  | slcTable
  | grpAllowed
  | cleImage
  | cleMem
  | cleClass
  | cleBind
  | mlrLoop
  | mlrDest
  | mlrFull
  | pubRecord
  | pubFull
  | sioLocked
  | sioLockout
  | sioNopass
  | pubKey
  | tribPort
  | drCfg
  | drFull
  | drBuf
  | drRecord
  | celNonce
  | lgrOwner
  | srmState
  | srmAttr
  | srmSlot
  | srmBlob
  | srmVerify
  | srmKeyid
  | srmTrng
  | srmLimit
  | srmNonce
  | fbTiming
  | fbBuf
  | fbSched
  | fltUnit
  deriving DecidableEq, Repr

/-- The 16-bit code of a status (Table 2.8 and the class tables). -/
def Status.code : Status → Nat
  | .ok => 0x0000
  | .discarded => 0x0001
  | .opcode => 0x0002
  | .denied => 0x0003
  | .range => 0x0004
  | .seq => 0x0005
  | .buf => 0x0006
  | .state => 0x0007
  | .busy => 0x0008
  | .window => 0x0009
  | .noParam => 0x000A
  | .readOnly => 0x000B
  | .locked => 0x000C
  | .conflict => 0x000D
  | .admission => 0x000E
  | .auth => 0x000F
  | .type => 0x0010
  | .internal => 0x0011
  | .imageSig => 0x0140
  | .imageSvn => 0x0141
  | .imageState => 0x0142
  | .shareSum => 0x0201
  | .shareFloor => 0x0202
  | .latchSet => 0x0203
  | .fdbFull => 0x0301
  | .pairMismatch => 0x0302
  | .redConflict => 0x0303
  | .subFull => 0x0501
  | .subDup => 0x0502
  | .subSlots => 0x0503
  | .keyAttr => 0x0504
  | .cflMem => 0x0601
  | .cflSet => 0x0602
  | .cflProto => 0x0603
  | .cflChan => 0x0604
  | .slcImage => 0x0701
  | .slcCycle => 0x0702
  | .slcCatalogue => 0x0703
  | .slcTable => 0x0704
  | .grpAllowed => 0x0705
  | .cleImage => 0x0801
  | .cleMem => 0x0802
  | .cleClass => 0x0803
  | .cleBind => 0x0804
  | .mlrLoop => 0x0901
  | .mlrDest => 0x0902
  | .mlrFull => 0x0903
  | .pubRecord => 0x0A01
  | .pubFull => 0x0A02
  | .sioLocked => 0x0A03
  | .sioLockout => 0x0A04
  | .sioNopass => 0x0A05
  | .pubKey => 0x0A06
  | .tribPort => 0x0A07
  | .drCfg => 0x0B01
  | .drFull => 0x0B02
  | .drBuf => 0x0B03
  | .drRecord => 0x0B04
  | .celNonce => 0x0C01
  | .lgrOwner => 0x0C02
  | .srmState => 0x0D01
  | .srmAttr => 0x0D02
  | .srmSlot => 0x0D03
  | .srmBlob => 0x0D04
  | .srmVerify => 0x0D05
  | .srmKeyid => 0x0D06
  | .srmTrng => 0x0D07
  | .srmLimit => 0x0D08
  | .srmNonce => 0x0D09
  | .fbTiming => 0x0E01
  | .fbBuf => 0x0E02
  | .fbSched => 0x0E03
  | .fltUnit => 0x0F01

/-- The events of Table 2.13 (R684). -/
inductive Ev where
  | ringError
  | seqStall
  | eventLoss
  | lockedWrite
  | vfReset
  | dirtyOverflow
  | devConfig
  | devStart
  | aonFeed
  | pwrfail
  | image
  | post
  | twinJoin
  | instState
  | instShed
  | portLink
  | portUnderrun
  | portHoldExpired
  | cisternLeak
  | cisternDouble
  | cisternEcc
  | fdbFull
  | nodeTableFull
  | redPair
  | timeState
  | timeStep
  | refChange
  | ppsMiss
  | irigError
  | leap
  | tsqOverflow
  | subState
  | subAuth
  | subSynch
  | subKey
  | cflTickLate
  | decSync
  | cflChan
  | cflTrack
  | cflBank
  | slcOverrun
  | slcIncomplete
  | slcChain
  | grpChange
  | cleOverrun
  | cleHalted
  | cleOutFail
  | cleMode
  | cleExchange
  | cleSlip
  | mlrMiss
  | mlrMode
  | mlrCapture
  | mlrOutFail
  | pubError
  | twinDiverge
  | tribState
  | tribAuth
  | sioConfig
  | sioAuthFail
  | sioFault
  | sioLatch
  | drRecord
  | drState
  | drMask
  | drRate
  | drMissed
  | celLoss
  | celCleared
  | celVerify
  | celFlushErr
  | lgrCopy
  | lgrWear
  | lgrSaturated
  | srmLc
  | srmKey
  | srmJournal
  | srmTrng
  | srmDebug
  | srmLimit
  | srmBlobFail
  | fbState
  | fbSupervision
  | fbSlot
  | fbTx
  | healthy
  | fltReport
  | fltTest
  | fltUnit
  | fltSpares
  | hkpRestart
  /-- EV_MEM_MISMATCH (R31). -/
  | memMismatch
  deriving DecidableEq, Repr

/-- The event code (Table 2.13). -/
def Ev.code : Ev → Nat
  | .ringError => 0x0101
  | .seqStall => 0x0102
  | .eventLoss => 0x0103
  | .lockedWrite => 0x0104
  | .vfReset => 0x0105
  | .dirtyOverflow => 0x0106
  | .devConfig => 0x0107
  | .devStart => 0x0140
  | .aonFeed => 0x0141
  | .pwrfail => 0x0142
  | .image => 0x0143
  | .post => 0x0144
  | .twinJoin => 0x0145
  | .instState => 0x0201
  | .instShed => 0x0202
  | .portLink => 0x0301
  | .portUnderrun => 0x0302
  | .portHoldExpired => 0x0303
  | .cisternLeak => 0x0310
  | .cisternDouble => 0x0311
  | .cisternEcc => 0x0312
  | .fdbFull => 0x0313
  | .nodeTableFull => 0x0314
  | .redPair => 0x0315
  | .timeState => 0x0401
  | .timeStep => 0x0402
  | .refChange => 0x0403
  | .ppsMiss => 0x0404
  | .irigError => 0x0405
  | .leap => 0x0406
  | .tsqOverflow => 0x0407
  | .subState => 0x0501
  | .subAuth => 0x0502
  | .subSynch => 0x0503
  | .subKey => 0x0504
  | .cflTickLate => 0x0601
  | .decSync => 0x0602
  | .cflChan => 0x0603
  | .cflTrack => 0x0604
  | .cflBank => 0x0605
  | .slcOverrun => 0x0701
  | .slcIncomplete => 0x0702
  | .slcChain => 0x0703
  | .grpChange => 0x0704
  | .cleOverrun => 0x0801
  | .cleHalted => 0x0802
  | .cleOutFail => 0x0803
  | .cleMode => 0x0804
  | .cleExchange => 0x0805
  | .cleSlip => 0x0806
  | .mlrMiss => 0x0901
  | .mlrMode => 0x0902
  | .mlrCapture => 0x0903
  | .mlrOutFail => 0x0904
  | .pubError => 0x0A01
  | .twinDiverge => 0x0A02
  | .tribState => 0x0A03
  | .tribAuth => 0x0A04
  | .sioConfig => 0x0A05
  | .sioAuthFail => 0x0A06
  | .sioFault => 0x0A07
  | .sioLatch => 0x0A08
  | .drRecord => 0x0B01
  | .drState => 0x0B02
  | .drMask => 0x0B03
  | .drRate => 0x0B04
  | .drMissed => 0x0B05
  | .celLoss => 0x0C01
  | .celCleared => 0x0C02
  | .celVerify => 0x0C03
  | .celFlushErr => 0x0C04
  | .lgrCopy => 0x0C05
  | .lgrWear => 0x0C06
  | .lgrSaturated => 0x0C07
  | .srmLc => 0x0D01
  | .srmKey => 0x0D02
  | .srmJournal => 0x0D03
  | .srmTrng => 0x0D04
  | .srmDebug => 0x0D05
  | .srmLimit => 0x0D06
  | .srmBlobFail => 0x0D07
  | .fbState => 0x0E01
  | .fbSupervision => 0x0E02
  | .fbSlot => 0x0E03
  | .fbTx => 0x0E04
  | .healthy => 0x0F01
  | .fltReport => 0x0F02
  | .fltTest => 0x0F03
  | .fltUnit => 0x0F04
  | .fltSpares => 0x0F05
  | .hkpRestart => 0x0F06
  | .memMismatch => Config.memMismatchCode

/-- The SEVERITY of each event (R684, Table 2.13): 0 info, 1 warning, 2 error, 3 fault. EV_EVENT_LOSS has none and is
never posted; EV_AON_FEED is 2 while both feeds are absent (R651), which its raiser supplies. -/
def Ev.severity : Ev → Nat
  | .ringError => 2
  | .seqStall => 2
  | .eventLoss => 0
  | .lockedWrite => 1
  | .vfReset => 0
  | .dirtyOverflow => 1
  | .devConfig => 1
  | .devStart => 0
  | .aonFeed => 1
  | .pwrfail => 3
  | .image => 1
  | .post => 1
  | .twinJoin => 0
  | .instState => 0
  | .instShed => 2
  | .portLink => 1
  | .portUnderrun => 1
  | .portHoldExpired => 1
  | .cisternLeak => 1
  | .cisternDouble => 3
  | .cisternEcc => 2
  | .fdbFull => 1
  | .nodeTableFull => 1
  | .redPair => 1
  | .timeState => 1
  | .timeStep => 1
  | .refChange => 1
  | .ppsMiss => 1
  | .irigError => 1
  | .leap => 0
  | .tsqOverflow => 1
  | .subState => 1
  | .subAuth => 2
  | .subSynch => 1
  | .subKey => 0
  | .cflTickLate => 3
  | .decSync => 0
  | .cflChan => 1
  | .cflTrack => 1
  | .cflBank => 0
  | .slcOverrun => 2
  | .slcIncomplete => 2
  | .slcChain => 3
  | .grpChange => 0
  | .cleOverrun => 1
  | .cleHalted => 2
  | .cleOutFail => 1
  | .cleMode => 0
  | .cleExchange => 0
  | .cleSlip => 1
  | .mlrMiss => 1
  | .mlrMode => 0
  | .mlrCapture => 0
  | .mlrOutFail => 1
  | .pubError => 2
  | .twinDiverge => 2
  | .tribState => 1
  | .tribAuth => 2
  | .sioConfig => 1
  | .sioAuthFail => 1
  | .sioFault => 3
  | .sioLatch => 1
  | .drRecord => 0
  | .drState => 0
  | .drMask => 1
  | .drRate => 1
  | .drMissed => 1
  | .celLoss => 2
  | .celCleared => 1
  | .celVerify => 2
  | .celFlushErr => 2
  | .lgrCopy => 1
  | .lgrWear => 1
  | .lgrSaturated => 1
  | .srmLc => 1
  | .srmKey => 0
  | .srmJournal => 1
  | .srmTrng => 3
  | .srmDebug => 2
  | .srmLimit => 1
  | .srmBlobFail => 2
  | .fbState => 1
  | .fbSupervision => 1
  | .fbSlot => 1
  | .fbTx => 0
  | .healthy => 3
  | .fltReport => 1
  | .fltTest => 1
  | .fltUnit => 2
  | .fltSpares => 2
  | .hkpRestart => 2
  | .memMismatch => Config.memMismatchSeverity

end Sys2Proof
end

