-- ==== Sys2Proof/State/Host.lean ====
section
/-! DEFINITION. The host interface of one function and the instances (chapters 2 and 3): plain data. -/

namespace Sys2Proof.Machine

/-- One ring of a function (Table 2.4): MBX_RING_BASE, _SIZE.LOG2, _HOST and _DEV. -/
structure Ring where
  /-- MBX_RING_BASE[63:12]·4 KiB. -/
  base : Nat := 0
  log2 : Nat := 4
  host : Word := 0
  dev : Word := 0
  /-- Stopped after a ring error; cleared when the ring's enable falls (MBX_STATUS.RING_ERR). -/
  err : Bool := false
  deriving DecidableEq, Repr

/-- A command accepted and not completed (R66 to R68). -/
structure Accepted where
  entry : CmdEntry
  /-- The instance it targets and that instance's GEN when the command was accepted (R101). -/
  target : Option Nat
  gen : Nat
  /-- Started: its row has run and its completion waits for a later step. -/
  started : Bool := false
  /-- The place of its acceptance in the order of all functions (R125). -/
  order : Nat := 0
  deriving DecidableEq, Repr

/-- A completion (Table 2.6). `result` holds the RESULT fields in the order of the command's table,
`buffer` the fields written to the host buffer and `resultLen` the bytes they take. -/
structure Completion where
  status : Status
  cseq : Word
  opcode : Nat
  epoch : Word
  resultLen : Nat := 0
  result : List Int := []
  buffer : List Int := []
  quiet : Bool := false
  /-- The host buffer that still waits for its result bytes, because the function was frozen when the command completed (R99). -/
  unwritten : Option Nat := none
  deriving DecidableEq, Repr

/-- An event entry (Table 2.6). -/
structure Event where
  ev : Ev
  severity : Nat
  eseq : Word
  source : Nat
  inst : Nat
  epoch : Word
  time : Instant
  data : List Int
  deriving DecidableEq, Repr

/-- An entry waiting for the event ring, in the order of generation (R70, R71). -/
inductive Post where
  | completion (c : Completion) (replayed : Bool)
  /-- The ST_SEQ completion of a command that was not accepted (R65). -/
  | rejected (c : Completion)
  | event (e : Event) (replayed : Bool)
  /-- The loss marker: first and last ESEQ lost, and EPOCH. -/
  | loss (first last epoch : Word)
  deriving DecidableEq, Repr

/-- Dirty-page logging of a VF (R95 to R99). `bitsA` and `bitsB` are the page numbers set, ascending. -/
structure DirtyLog where
  base : Nat
  length : Nat
  bitmapA : Nat
  bitmapB : Nat
  activeB : Bool := false
  bitsA : List Nat := []
  bitsB : List Nat := []
  /-- Pages written outside the range since the last sync. -/
  outside : Nat := 0
  deriving DecidableEq, Repr

/-- The register pages and protocol state of one function (chapter 2). -/
structure FnState where
  cmdEn : Bool := false
  evtEn : Bool := false
  vnicEn : Bool := false
  eventLoss : Bool := false
  frozen : Bool := false
  seqStall : Bool := false
  /-- MBX_SEQ[0], [2], [3]; MBX_SEQ[1] follows from `accepted` (R68). -/
  cseqAccepted : Word := 0
  eseqRaised : Word := 0
  eseqPosted : Word := 0
  ring0 : Ring := {}
  ring1 : Ring := {}
  ring2 : Ring := {}
  ring3 : Ring := {}
  /-- MBX_VNIC_CNT[0..4]. -/
  vnicRx : Nat := 0
  vnicTx : Nat := 0
  vnicRxOff : Nat := 0
  vnicTrunc : Nat := 0
  vnicTxErr : Nat := 0
  /-- MBX_IVEC[s] where it differs from its default. -/
  ivec : Tab Nat := []
  /-- The MSI-X table (Table 2.2): vectors whose mask bit is 0, vectors pending, and the words written to the table. -/
  msixUnmasked : List Nat := []
  msixPending : List Nat := []
  msixTable : Tab Nat := []
  /-- The 64-bit read latches (R11): register offset of the low word and the latched high word. -/
  latch : Tab Nat := []
  /-- Accepted and not completed, in CSEQ order. -/
  accepted : List Accepted := []
  /-- The completed commands whose CSEQ is one of the last 256 accepted, in the order of completion (R84). -/
  completed : List Completion := []
  /-- Entries generated and not posted, oldest first (R70). -/
  post : List Post := []
  /-- The last 4,096 events, oldest first (R71). -/
  events : List Event := []
  dirty : Option DirtyLog := none
  /-- The function's MSI-X Enable in PCI Express configuration space. -/
  msixEn : Bool := false
  /-- EV_LOCKED_WRITE has been raised for this function since the last DEV_COMMIT (R80). -/
  lockedRaised : Bool := false
  deriving DecidableEq, Repr

/-- The states of an instance (Table 3.1). -/
inductive InstPhase where
  | free | idle | ready | active | shed | resetting
  deriving DecidableEq, Repr

/-- The code of a state (Table 3.1). -/
def InstPhase.code : InstPhase → Nat
  | .free => 0 | .idle => 1 | .ready => 2 | .active => 3 | .shed => 4 | .resetting => 5

/-- One share for each of the three resources, in units of 1/1,024 (R107). -/
structure Shares where
  sluice : Nat := 0
  cistern : Nat := 0
  ingest : Nat := 0
  deriving DecidableEq, Repr

/-- The kinds of claimant of Table 3.6. -/
inductive ClaimKind where
  | graphNode | cleTask | loop | recorder | publication | device
  deriving DecidableEq, Repr

/-- A_KIND and B_KIND of Table 3.6. -/
def ClaimKind.code : ClaimKind → Nat
  | .graphNode => 1 | .cleTask => 2 | .loop => 3 | .recorder => 4 | .publication => 5 | .device => 6

/-- One claim on a resource of Table 3.5. -/
structure Claim where
  res : Nat
  index : Nat
  kind : ClaimKind
  object : Nat
  deriving DecidableEq, Repr

/-- What a reset in progress completes when it ends (R116 step 5): the command, whether it is warm, and, should the command be
discarded (R72), what it found: the state, GEN, the resets counted, the kind of the next start, and the routing. -/
structure ResetWait where
  fn : Nat
  cseq : Word
  warm : Bool
  was : InstPhase := .ready
  gen : Nat := 0
  resets : Nat := 0
  warmNext : Bool := false
  routed : Bool := false
  deriving DecidableEq, Repr

/-- One virtual IED instance (chapter 3), beside the objects that the chapters of the blocks hold for it. -/
structure InstState where
  phase : InstPhase := .free
  gen : Nat := 0
  rank : Nat := 0
  /-- Shares accepted (R111) and shares in effect this period (R113). -/
  granted : Shares := {}
  inEffect : Shares := {}
  /-- Rate counters of this period (R108): dispatches, authenticated and parsed frames. -/
  dispatches : Nat := 0
  authFrames : Nat := 0
  parsedFrames : Nat := 0
  /-- Level usage (R107): nodes ready or executing, and cells holding frames of the function. -/
  inFlight : Nat := 0
  cells : Nat := 0
  refusedCells : Nat := 0
  refusedIngest : Nat := 0
  deferred : Nat := 0
  resets : Nat := 0
  /-- The instance's sources are routed to its VF (R39, R40). -/
  routedVf : Bool := false
  /-- Committed claims (R124). -/
  claims : List Claim := []
  reset : Option ResetWait := none
  /-- It was ACTIVE before the restart, and returns to ACTIVE when protection is ready (R105). -/
  wasActive : Bool := false
  /-- The next start keeps RETAIN variables, selectors and thermal state (R120). -/
  warmNext : Bool := false
  deriving DecidableEq, Repr

end Sys2Proof.Machine
end

