-- ==== Sys2Proof/State/Out.lean ====
section
/-! DEFINITION. What the block puts out: entries and messages to the host, frames on the wires, levels on its balls. -/

namespace Sys2Proof.Machine

/-- The output balls whose level a step can change. -/
inductive Ball where
  | ppsOut
  | clk10m
  | healthy
  /-- FLA_RESET_N (false) and FLB_RESET_N; MEMA_RESET_N (false) and MEMB_RESET_N. -/
  | flashReset (b : Bool)
  | memReset (b : Bool)
  | so (n : Nat)
  | xtrigOut (n : Nat)
  | fbStb (n : Nat)
  /-- FB_n_TX between frames. -/
  | fbTx (n : Nat)
  deriving DecidableEq, Repr

/-- The level of an output: driven low, driven high, high-impedance, or running as a clock. -/
inductive Level where
  | low | high | z | clock
  deriving DecidableEq, Repr

/-- One thing the block puts out.
DESIGN CHOICE, assumption 2: safe. -/
inductive Out where
  /-- An entry written to slot `slot` of the event ring with its phase bit (R56). -/
  | ringEntry (fn slot : Nat) (phase : Bool) (entry : Post)
  /-- One MSI-X message on a vector of a function (R62). -/
  | msix (fn vector : Nat)
  /-- An error reported through AER (R58). -/
  | aer (fn : Nat)
  /-- The result bytes of a completion written to the host buffer of its command (R60). -/
  | hostBuffer (fn addr : Nat) (completion : Completion)
  /-- Bytes of a received frame written to a buffer: `len` of them, from its byte `start` on (R87). -/
  | frameData (fn addr len : Nat) (frame : Frame) (start : Nat)
  /-- A closed bitmap of dirty-page logging as it stands in host memory: the numbers of its bits that are set (R98, R99). -/
  | dirtyBitmap (addr : Nat) (bits : List Nat)
  /-- What a read of a 32-bit word of BAR0 returns (R7, R11). -/
  | readData (fn offset : Nat) (value : Nat)
  /-- A receive descriptor returned (Table 2.12): DATA_LEN; SOF, EOF and TRUNCATED_DROP; the tag where VLAN_STRIPPED is set; the
  timestamp where TS_VALID is set; PORT; PHASE. -/
  | rxDesc (fn slot dataLen : Nat) (sof eof truncated : Bool) (vlan : Option Nat) (time : Option Instant) (port : Nat) (phase : Bool)
  /-- A transmit descriptor returned with its STATUS and PHASE (R93). -/
  | txDesc (fn slot status : Nat) (phase : Bool)
  /-- A frame sent on a port; `bad` when it ends with an inverted CRC (R142, R144). -/
  | wire (port : Nat) (frame : Frame) (bad : Bool)
  /-- A ball takes a level. -/
  | ball (b : Ball) (l : Level)
  /-- A CAN frame sent on a channel, and the ESI bit of a CAN FD frame (Table 18.1). -/
  | can (channel : Nat) (frame : CanFrame) (esi : Bool)
  deriving DecidableEq, Repr

end Sys2Proof.Machine
end

