-- ==== Sys2Proof/Machine/Wire.lean ====
section
/-! DEFINITION. The octets of the frames the device sends, in network order (R4, R183, R489). -/

namespace Sys2Proof

/-- Octets the model holds, and `n` that it does not. -/
def somes (l : List Nat) : List (Option Nat) := l.map some

/-- The octets of a PTP message (IEEE 1588): messageType and domainNumber, the correctionField, and the sequenceId; an Announce with
currentUtcOffset, the grandmaster's priorities and identity, and stepsRemoved.
PRESUMED, assumption 100: safe. -/
def ptpOctets (msg domain seqId : Nat) (correction : Int) : List (Option Nat) :=
  List.replicate 4 none ++ [some (domain % 256)] ++ List.replicate 3 none ++
    somes (Machine.octetsOf 8 (BitVec.ofInt 64 correction).toNat) ++ List.replicate 14 none ++ somes (Machine.octetsOf 2 seqId) ++
    List.replicate (if msg = 11 then 32 else 12) none

/-- The octets of an Announce. PRESUMED, assumption 100: safe. -/
def MasterData.octets (m : MasterData) : List (Option Nat) :=
  List.replicate 4 none ++ [some (m.domain % 256)] ++ List.replicate 39 none ++
    somes (Machine.octetsOf 2 (BitVec.ofInt 16 m.utcOffset).toNat) ++ [none] ++
    somes [m.priority1 % 256, m.clockClass % 256] ++ List.replicate 3 none ++ somes [m.priority2 % 256] ++
    somes (Machine.octetsOf 8 m.gm) ++ somes (Machine.octetsOf 2 m.stepsRemoved) ++ [none]

/-- What a frame carries after its Ethertype, each field most significant octet first (R4); none for an octet that the model does not
hold. PRESUMED, assumption 100: safe. -/
def Payload.octets : Payload → List (Option Nat)
  | .opaqueBytes _ => []
  | .ptp msg domain seqId correction => ptpOctets msg domain seqId correction
  | .announce m => m.octets
  | .supervision node redBox =>
    List.replicate 6 none ++ somes (Machine.octetsOf 6 node) ++
      match redBox with | some b => [none, none] ++ somes (Machine.octetsOf 6 b) | none => []
  | .published _ _ _ _ _ octets => somes octets
  | .tributary _ _ items => somes ((items.headD []).map Int.toNat) ++
      somes (((items.drop 1).headD []).flatMap fun t => Machine.octetsOf 16 t.toNat)

/-- The 12-bit LSDU size of a frame with a redundancy trailer or tag: what follows the Ethertype, and the 6 bytes (R183, R489). -/
def Frame.lsduSize (f : Frame) : Nat := f.len - 18 - if f.vid.isSome then 4 else 0

/-- The octets of a frame sent, from the destination address up to its padding and FCS, every field in network order (R4): addresses,
VLAN tag, HSR tag, Ethertype, what it carries, and the redundancy control trailer (R183).
PRESUMED, assumption 100: safe. -/
def Frame.octets (f : Frame) : List (Option Nat) :=
  let o := Machine.octetsOf
  let vlan := match f.vid with
    | some v => o 2 0x8100 ++ o 2 (f.pcp * 8192 + (if f.dei then 4096 else 0) + v)
    | none => []
  let word (t : RedTag) : List Nat := o 2 (t.path % 16 * 4096 + f.lsduSize % 4096)
  let hsr := match f.red with | some t => if t.hsr then o 2 0x892F ++ word t ++ o 2 t.seq else [] | none => []
  let prp := match f.red with | some t => if t.hsr then [] else o 2 t.seq ++ word t ++ o 2 0x88FB | none => []
  somes (o 6 f.da ++ o 6 f.sa ++ vlan ++ hsr ++ o 2 f.etype) ++ f.payload.octets ++ somes prp

end Sys2Proof
end

