-- ==== Sys2Proof/Machine/Layout.lean ====
section
/-! DEFINITION. The octets of what passes through host memory: entries, descriptors, RESULT, DATA and buffers (R4, Tables 2.5, 2.6,
2.11, 2.12). -/

namespace Sys2Proof.Machine

/-! ### Fields in octets (R4) -/

/-- The octets of a number, least significant first. -/
def leOctets (n v : Nat) : List Nat := (List.range n).map fun i => v / 256 ^ i % 256

/-- The octets of a signed number, least significant first. -/
def leOctetsInt (n : Nat) (v : Int) : List Nat := leOctets n (bitsOfInt (8 * n) v)

/-- Where a field lies: its offset and size, and whether it is a string of octets, its first octet the most significant of the number
that stands for it.
DEDUCED, assumption 99: unsafe. -/
structure Place where
  off : Nat
  size : Nat
  str : Bool := false
  deriving DecidableEq, Repr

/-- Places of numbers, as offset and size. -/
def places (l : List (Nat × Nat)) : List Place := l.map fun e => { off := e.1, size := e.2 }

/-- The octets of a field. -/
def Place.octets (p : Place) (v : Int) : List Nat :=
  if p.str then octetsOf p.size v.toNat else leOctetsInt p.size v

/-- Octets put over others from offset `off` on; what lies past the end is cut. -/
def putOctets (l : List (Option Nat)) (off : Nat) (o : List Nat) : List (Option Nat) :=
  l.take off ++ (o.take (l.length - off)).map some ++ l.drop (off + o.length)

/-- Fields in their places over `base`. -/
def laidOver (base : List (Option Nat)) (ps : List Place) (fields : List Int) : List (Option Nat) :=
  (ps.zip fields).foldl (fun l e => putOctets l e.1.off (e.1.octets e.2)) base

/-- `n` octets of zeros: reserved bytes. -/
def zeroed (n : Nat) : List (Option Nat) := List.replicate n (some 0)

/-- Fields in their places in `n` octets, the rest zero. -/
def laid (n : Nat) (ps : List Place) (fields : List Int) : List (Option Nat) := laidOver (zeroed n) ps fields

/-- Records of the same places, `stride` octets each, that begin at octet `start`. -/
def repeated (start stride count : Nat) (ps : List Place) : List Place :=
  (List.range count).flatMap fun i => ps.map fun p => { p with off := start + stride * i + p.off }

/-- As many records as the fields make. -/
def records (start stride : Nat) (ps : List Place) (fields : List Int) : List Place :=
  repeated start stride (fields.length / max ps.length 1) ps

/-! ### Commands and descriptors as the host writes them -/

/-- The command entry of 64 octets (Table 2.5); ARGS, bytes 24 to 63, are the operands of the command's row. -/
def entryOf (o : List Nat) : CmdEntry :=
  { cseq := BitVec.ofNat 32 (leNat o 0 4), opcode := leNat o 4 2, fence := (leNat o 6 2).testBit 0, quiet := (leNat o 6 2).testBit 1,
    bufAddr := leNat o 8 8, bufLen := leNat o 16 4, inst := leNat o 20 2 }

/-- The receive descriptor of 32 octets, as the host fills it (Table 2.12). -/
def rxDescOf (o : List Nat) : RxDesc := { addr := leNat o 0 8, len := leNat o 8 2 }

/-- The transmit descriptor of 32 octets, as the host fills it (R93).
DEDUCED, assumption 54: unsafe. -/
def txDescOf (o : List Nat) : TxDesc :=
  { addr := leNat o 0 8, len := leNat o 8 2, sof := (leNat o 10 2).testBit 0, eof := (leNat o 10 2).testBit 1 }

/-- The descriptors of one frame: those up to the first with EOF; none where no EOF is among them.
DEDUCED, assumption 54: unsafe. -/
def frameDescs : List TxDesc → Option (List TxDesc)
  | [] => none
  | d :: t => if d.eof then some [d] else (frameDescs t).map (d :: ·)

/-! ### Record layouts -/

/-- A parameter record (R77). -/
def paramPlaces : List Place := places [(0, 4), (4, 1), (6, 2), (8, 8)]

/-- A conflict record (Table 3.6). -/
def conflictPlaces : List Place := places [(0, 1), (2, 2), (4, 2), (6, 1), (8, 4), (12, 2), (14, 1), (16, 4)]

/-- A refusal record (Table 9.11). -/
def refusalPlaces : List Place := places [(0, 1), (2, 2), (4, 2), (8, 8), (16, 8)]

/-- A boot control block (R639). -/
def bootBlockPlaces : List (Nat × Nat) := [(0, 4), (4, 8), (12, 1), (13, 1), (14, 1), (15, 1)]

/-- A record header of a recorder (Table 15.4). -/
def recordPlaces : List Place :=
  places [(0, 2), (2, 1), (3, 1), (4, 4), (8, 6), (14, 4), (18, 1), (19, 1), (20, 4), (24, 4), (28, 4), (32, 8), (40, 1), (41, 1),
          (42, 2), (44, 4)] ++
  repeated 48 8 5 (places [(0, 4), (4, 1)]) ++ places [(88, 1)] ++
  repeated 96 12 16 (places [(0, 6), (6, 4), (10, 1), (11, 1)])

/-- The header of a Cellar record (Table 16.1), and its state after the 64 bytes (Table 16.6); DATA stands as octets. -/
def cellarPlaces : List Place :=
  places ([(0, 8), (8, 6), (14, 4), (18, 2), (20, 2), (22, 2), (24, 4), (28, 1), (29, 1), (30, 2)] ++
    (List.range 32).map (fun i => (32 + i, 1)) ++ [(64, 1)])

/-- A blob (Table 17.7) of `n` bytes. -/
def blobPlaces (n : Nat) : List Place :=
  places [(0, 4), (4, 2), (6, 1), (7, 1), (8, 4), (12, 4), (16, 8), (24, 16), (40, 4), (44, 2), (46, 1), (47, 1), (48, 6), (54, 10)] ++
    [⟨64, n - 64, true⟩]

/-- A statement (Table 17.11) of `n` bytes: the header, the body of a key or of the device, and the signature. -/
def statementPlaces (n : Nat) : List Place :=
  places [(0, 4), (4, 2), (6, 1), (7, 1), (8, 16)] ++ [⟨24, 16, true⟩] ++ places [(40, 6), (46, 4), (50, 4), (54, 2)] ++
  (if n = 288 then places [(64, 1), (65, 1), (68, 4), (72, 8), (80, 4)] ++ [⟨88, 97, true⟩]
   else [⟨64, 48, true⟩, ⟨112, 48, true⟩, ⟨160, 48, true⟩, ⟨208, 48, true⟩] ++ places [(256, 1), (257, 1), (260, 4)]) ++
  [⟨n - 96, 96, true⟩]

/-- A subscription record (Tables 7.1 and 7.2); the fields give the length of ID. -/
def subPlaces (goose : Bool) (fields : List Int) : List Place :=
  let idLen := (fields.getD (if goose then 6 else 10) 0).toNat
  let ids := repeated 32 1 idLen (places [(0, 1)])
  if goose then
    places [(0, 2), (2, 2), (4, 6), (10, 2), (12, 4), (16, 1), (17, 1), (18, 2), (20, 2), (22, 2)] ++ ids ++
      records 164 4 (places [(0, 4)]) (fields.drop (10 + idLen))
  else
    places [(0, 2), (2, 2), (4, 6), (10, 2), (12, 2), (14, 1), (15, 1), (16, 4), (20, 1), (21, 1), (22, 1), (24, 4), (28, 2), (30, 2)] ++
      ids ++ records 168 8 (places [(0, 1), (2, 2), (4, 4)]) (fields.drop (14 + idLen))

/-! ### RESULT (the command tables) -/

/-- Where the RESULT fields of a command lie, by its opcode and status. The length of ST_BUF takes 4 bytes, as BUF_LEN does.
DEDUCED, assumption 99: unsafe. -/
def resultPlaces (op : Nat) (status : Status) : List Place :=
  if status = .buf then places [(0, 4)]
  else if op = 0x0106 ∨ status = .conflict then conflictPlaces
  else match op with
    | 0x0101 => places [(0, 8), (8, 4), (12, 4), (16, 16)]
    | 0x0102 | 0x0305 => places [(0, 4)]
    | 0x0103 | 0x0700 => places [(0, 4), (4, 4)]
    | 0x0105 => paramPlaces
    | 0x0107 => places [(0, 1), (1, 1), (2, 2), (4, 8), (12, 8), (20, 8)]
    | 0x0109 | 0x010A => places [(0, 1), (4, 4)]
    | 0x0144 => places ((0, 4) :: bootBlockPlaces.map (fun e => (4 + e.1, e.2)) ++ [(20, 4), (24, 4)])
    | 0x0202 | 0x0208 | 0x0702 => refusalPlaces
    | 0x0209 => places [(0, 1), (1, 1), (2, 1), (4, 2), (6, 2), (8, 2), (12, 4), (16, 4), (20, 4), (24, 4), (28, 4)]
    | 0x030A => places [(0, 4), (4, 4), (8, 4)]
    | 0x0400 => places [(0, 6), (6, 4), (10, 1), (11, 1), (12, 8), (20, 4), (24, 8)]
    | 0x0500 | 0x0501 | 0x0A00 | 0x0A01 => places [(0, 2)]
    | 0x0503 => places [(0, 1), (2, 2), (4, 4), (8, 4), (12, 6), (18, 4)]
    | 0x0604 | 0x0703 | 0x0E03 | 0x0F01 => places [(0, 1)]
    | 0x0606 => places [(0, 6), (6, 2)]
    | 0x0607 => places [(0, 2), (4, 4)]
    | 0x0705 => places [(0, 1), (1, 1), (4, 4), (8, 8), (16, 8)]
    | 0x0706 => places [(0, 8), (8, 8), (16, 8)]
    | 0x0709 => repeated 0 8 4 (places [(0, 1), (1, 1), (2, 1), (4, 4)])
    | 0x0800 => places [(0, 2), (4, 4)]
    | 0x0807 => places [(0, 1), (1, 1), (2, 1), (3, 1), (4, 4), (8, 1), (12, 4)]
    | 0x0907 => places [(0, 1), (1, 1), (2, 1), (3, 1), (4, 4), (8, 4), (12, 4)]
    | 0x0A03 => places [(0, 4), (4, 4), (8, 1)]
    | 0x0A05 => places [(0, 1), (1, 1), (2, 2), (4, 4)]
    | 0x0A0B => repeated 0 4 5 (places [(0, 4)])
    | 0x0C02 => ⟨0, 16, true⟩ :: places [(16, 2)]
    | 0x0D00 => places [(0, 1), (1, 1), (2, 2), (4, 1)]
    | 0x0D01 => ⟨0, 16, true⟩ :: places [(16, 1)]
    | 0x0D0B => places [(0, 8), (8, 8), (16, 4), (20, 4)]
    | 0x0E04 => places [(0, 1), (1, 1), (2, 1), (4, 4), (8, 6), (14, 4)]
    | _ => []

/-- The 32 bytes of RESULT. -/
def Completion.resultOctets (c : Completion) : List Nat :=
  (laid 32 (resultPlaces c.opcode c.status) c.result).map (·.getD 0)

/-! ### Buffers -/

/-- SLC_ADMIT_CHECK: refusal records of 5 fields and 24 bytes, then chains of 2 fields and 16 bytes; the length tells how many of
each. -/
def admitPlaces (n : Nat) (fields : List Int) : List Place :=
  let refusals := (8 * fields.length - n) / 16
  repeated 0 24 refusals refusalPlaces ++ records (24 * refusals) 16 (places [(0, 2), (8, 8)]) (fields.drop (5 * refusals))

/-- SRM_CRYPT: an IV of 12 bytes first and a tag of 16 bytes last, where there are any. -/
def cryptPlaces (n : Nat) (fields : List Int) : List Place :=
  match fields.length with
  | 3 => [⟨0, 12, true⟩, ⟨12, n - 28, true⟩, ⟨n - 16, 16, true⟩]
  | 2 => [⟨0, 12, true⟩, ⟨12, 16, true⟩]
  | _ => [⟨0, n, true⟩]

/-- Where the fields a command writes to its host buffer lie, by its opcode and status, the length written and the fields.
DESIGN CHOICE, assumption 99: unsafe. -/
def bufferPlaces (op : Nat) (status : Status) (n : Nat) (fields : List Int) : List Place :=
  match op with
  | 0x0104 =>
    places [(0, 2), (2, 2), (4, 4), (8, 4), (12, 4), (16, 4), (20, 4), (24, 6), (30, 4), (36, 4)] ++
      records 64 1 (places [(0, 1)]) (fields.drop 10)
  | 0x0105 => records 0 16 paramPlaces fields
  | 0x0106 => records 0 16 (places [(6, 2)]) fields
  | 0x0107 | 0x0C04 => records 0 8 (places [(0, 8)]) fields
  | 0x0202 => if status = .conflict then records 0 32 conflictPlaces fields else records 0 24 refusalPlaces fields
  | 0x0208 => records 0 24 refusalPlaces fields
  | 0x0300 => places [(0, 6), (6, 4)] ++ records 16 8 (places [(0, 8)]) (fields.drop 2)
  | 0x0306 => records 0 24 (places [(0, 6), (6, 2), (8, 9), (17, 5), (22, 2)]) fields
  | 0x0309 => records 0 32 (places [(0, 6), (6, 2), (8, 8), (16, 8), (24, 4), (28, 4)]) fields
  | 0x0500 => records 168 8 (places [(2, 2)]) fields
  | 0x0503 => subPlaces (n == 424) fields
  | 0x0505 => records 0 4 (places [(0, 2), (2, 1)]) fields
  | 0x0607 => places [(0, 2), (2, 2), (4, 4), (8, 4), (12, 1), (13, 1), (14, 1), (15, 1), (16, 2), (18, 2), (20, 2), (22, 1), (23, 1),
                      (24, 1), (25, 1), (26, 1), (28, 2)]
  | 0x0702 => admitPlaces n fields
  | 0x0906 => records 0 16 (places [(0, 4), (4, 4), (8, 2), (10, 2), (12, 4)]) fields
  | 0x0B05 => records 0 288 recordPlaces fields
  | 0x0B07 => repeated 0 4 6 (places [(0, 4)]) ++ records 32 1 (places [(0, 1)]) (fields.drop 6)
  | 0x0F00 => records 0 24 (places [(0, 4), (4, 1), (5, 1), (8, 6), (14, 4)]) fields
  | 0x0C00 => records 0 72 cellarPlaces fields
  | 0x0C02 => places [(0, 16)]
  | 0x0D0C | 0x0D0E => [⟨0, n, true⟩]
  | 0x0D0D => cryptPlaces n fields
  | 0x0D0F | 0x0D10 => statementPlaces n
  | 0x0D11 => [⟨0, 97, true⟩, ⟨97, 96, true⟩]
  | _ => if op / 256 = 0x0D then blobPlaces n else records 0 1 (places [(0, 1)]) fields

/-- The bytes a command writes to its host buffer. PARAM_SET and SUB_SV_SET write statuses and SLOTs back and leave the other bytes of
the host's records. -/
def Completion.bufferOctets (c : Completion) : List (Option Nat) :=
  let base := if c.opcode = 0x0106 ∨ c.opcode = 0x0500 then List.replicate c.resultLen none else zeroed c.resultLen
  laidOver base (bufferPlaces c.opcode c.status c.resultLen c.buffer) c.buffer

/-! ### DATA (the event tables) -/

/-- The sizes of an event's DATA fields, which follow one another. The tables give some of them; a field whose size they leave out
takes 1 byte where it is a state, a cause or a small number, and 4 or 8 where its range asks for them.
DESIGN CHOICE, assumption 99: unsafe. -/
def dataSizes (code : Nat) : List Nat :=
  match code with
  | 0x0101 | 0x0106 | 0x0A06 => [1, 4]
  | 0x0102 => [4, 4]
  | 0x0F02 => [4, 1, 2]
  | 0x0301 => [1, 1, 1, 1]
  | 0x0302 | 0x0904 => [1, 1, 2]
  | 0x0303 | 0x0407 => [1, 4]
  | 0x0310 => [4, 4]
  | 0x0313 => [2, 2]
  | 0x0315 => [1, 1, 6]
  | 0x0402 => [8]
  | 0x0403 => [1, 8]
  | 0x0404 => [6]
  | 0x0501 => [1, 2, 1, 1]
  | 0x0502 => [1, 2, 1, 4]
  | 0x0503 => [1, 2, 1, 1]
  | 0x0504 => [1, 2, 4, 2]
  | 0x0601 => [1, 8, 8]
  | 0x0602 => [1, 6, 2]
  | 0x0603 => [2, 1, 2]
  | 0x0604 => [2, 1, 1, 8]
  | 0x0605 => [2, 1, 1]
  | 0x0701 => [2, 1, 1, 4, 2]
  | 0x0702 => [1, 2, 2]
  | 0x0703 => [2, 4, 4]
  | 0x0801 | 0x0802 => [1, 1, 4, 1]
  | 0x0803 => [1, 1, 4, 2, 2]
  | 0x0804 => [1, 1, 1, 1]
  | 0x0805 | 0x0806 => [1, 1, 4, 4]
  | 0x0901 => [1, 2]
  | 0x0A01 => [2, 1]
  | 0x0A02 => [2, 4, 4]
  | 0x0A04 | 0x0D05 | 0x0D07 => [2]
  | 0x0A05 => [1, 1, 2]
  | 0x0B01 => [1, 2, 1, 4]
  | 0x0B03 => [1, 2, 1, 4]
  | 0x0B05 => [1, 1, 2]
  | 0x0C02 => [2, 8]
  | 0x0C03 => [4, 8]
  | 0x0C04 => [4, 4]
  | 0x0D02 => [1, 1, 4, 4]
  | 0x0D06 => [1, 4]
  | 0x0E02 => [1, 1, 2]
  | 0x0E03 => [1, 1, 1, 4]
  | 0x0F01 => [1, 4]
  | 0x0F03 | 0x0F04 => [4, 1]
  | 0x0F06 => [1, 2]
  | 0x0140 => [1, 1, 4, 4]
  | 0x0144 => [2, 2]
  | 0x0145 => [1, 2]
  | 0x0104 | 0x0142 | 0x0406 | 0x0C01 | 0x0C06 | 0x0C07 => [4]
  | _ => []

/-- The octets of DATA: each field in its size, one byte where none is named. -/
def dataOctets (code : Nat) (data : List Int) : List Nat :=
  (List.range data.length).flatMap fun i => leOctetsInt ((dataSizes code).getD i 1) (data.getD i 0)

/-! ### Entries and descriptors as the device writes them -/

/-- The 64 octets of an event-ring entry (Table 2.6). -/
def Post.octets (p : Post) (phase : Bool) : List Nat :=
  let b (x : Bool) (n : Nat) : Nat := if x then n else 0
  let completion (c : Completion) (replayed : Bool) : List Nat :=
    [1, 0] ++ leOctets 2 c.status.code ++ leOctets 4 c.cseq.toNat ++ leOctets 2 c.opcode ++ [0, 0] ++ leOctets 4 c.epoch.toNat ++
      List.replicate 6 0 ++ leOctets 4 c.resultLen ++ [0, 0] ++ c.resultOctets ++ [0, 0, 0, b phase 1 + b replayed 2]
  match p with
  | .completion c replayed => completion c replayed
  | .rejected c => completion c false
  | .event e replayed =>
    let data := (dataOctets e.ev.code e.data).take 32
    [2, e.severity % 256] ++ leOctets 2 e.ev.code ++ leOctets 4 e.eseq.toNat ++ leOctets 2 e.source ++ leOctets 2 e.inst ++
      leOctets 4 e.epoch.toNat ++ leOctets 6 (e.time / 1000000000) ++ leOctets 4 (e.time % 1000000000) ++ [0, 0] ++
      data ++ List.replicate (32 - data.length) 0 ++ [0, 0, 0, b phase 1 + b replayed 2]
  | .loss first last epoch =>
    [3, 0, 0, 0] ++ leOctets 4 first.toNat ++ [0, 0, 0, 0] ++ leOctets 4 epoch.toNat ++ leOctets 4 last.toNat ++
      List.replicate 43 0 ++ [b phase 1]

/-- What an output puts into host memory, octet by octet, where it writes there: none stands for a byte left as the host has it; of a
frame sent, its octets on the wire (R4). The
device fills a descriptor from byte 10 or 12 on (Table 2.12, R93).
DESIGN CHOICE, assumption 99: unsafe. -/
def Out.octets : Out → Option (List (Option Nat))
  | .ringEntry _ _ phase entry => some ((entry.octets phase).map some)
  | .hostBuffer _ _ c => some c.bufferOctets
  | .rxDesc _ _ dataLen sof eof truncated vlan time port phase =>
    let b (x : Bool) (n : Nat) : Nat := if x then n else 0
    let status := b sof 1 + b eof 2 + b truncated 4 + b time.isSome 8 + b vlan.isSome 16
    let t := time.getD 0
    some (List.replicate 10 none ++
      (leOctets 2 dataLen ++ leOctets 2 status ++ leOctets 2 (vlan.getD 0) ++ leOctets 6 (t / 1000000000) ++ leOctets 4 (t % 1000000000) ++
        leOctets 2 port ++ [0, 0, 0, b phase 1]).map some)
  | .txDesc _ _ status phase =>
    some (List.replicate 12 none ++ (leOctets 2 status).map some ++ List.replicate 17 none ++ [some (if phase then 1 else 0)])
  | .wire _ f _ => some f.octets
  | _ => none

/-! ### Cellar records -/

/-- The sizes and places of DATA by TYPE (Table 16.2). -/
def celPlaces (type : Nat) : List Place :=
  match type with
  | 0x0001 => places [(0, 2), (2, 8), (10, 8), (18, 4), (22, 2), (24, 4)]
  | 0x0002 => places [(0, 1), (1, 1), (4, 4)]
  | 0x0003 => places [(0, 1), (4, 4)]
  | 0x0004 => places [(0, 4)]
  | 0x0011 => places [(0, 2), (2, 2), (4, 2), (6, 1), (8, 2), (10, 2)]
  | 0x0012 => places [(0, 1), (1, 1)]
  | 0x0013 => places [(0, 1), (1, 1), (2, 1), (4, 2)]
  | 0x0020 => places [(0, 1), (1, 1), (4, 4), (8, 4), (12, 2), (16, 4)]
  | 0x0021 => places [(0, 1), (1, 1), (2, 2), (4, 4)]
  | 0x0022 => places [(0, 1), (2, 2), (4, 4)]
  | _ => places [(0, 2)]

/-- The 32 octets of a record's DATA: those of an EVENT copy are the code and bytes 0 to 27 of the event's DATA. -/
def celData (type : Nat) (data : List Int) : List Nat :=
  let l := (laid 32 (celPlaces type) data).map (·.getD 0)
  if type = 0x0010 then
    let o := (dataOctets (data.headD 0).toNat (data.drop 1)).take 28
    l.take 4 ++ o ++ List.replicate (28 - o.length) 0
  else l

end Sys2Proof.Machine
end

