-- ==== Sys2Proof/State/Boot.lean ====
section
/-! DEFINITION. Reset, boot, power and the device configuration (chapters 2 and 20): plain data. -/

namespace Sys2Proof.Machine

/-- Where the device stands between reset and protection (Tables 20.2 and 20.3). -/
inductive Phase where
  /-- In reset or in boot: before power-up, with PORST_N or SYSRST_N low, after a power failure, in a thermal reset, or stopped in boot (R31). -/
  | reset
  /-- READY has risen and PROTECTION has not. -/
  | ready
  /-- PROTECTION has risen. -/
  | running
  /-- Recovery (R643). -/
  | recovery
  deriving DecidableEq, Repr

/-- What a boot control block holds (R639). -/
structure BootBlock where
  seq : Nat := 0
  /-- False for image A, true for image B. -/
  active : Bool := false
  trial : Option Bool := none
  tries : Nat := 0
  deriving DecidableEq, Repr

/-- A copy of the boot control block as FLA holds it (BCB_0, BCB_1 of Table 20.4): its fields and its bytes 16 to 19, the CRC-32. -/
structure BootCopy where
  block : BootBlock := {}
  crc : Nat := 0
  deriving DecidableEq, Repr

/-- The running image and how it was chosen (HKP_BOOT). -/
structure BootState where
  warm : Bool := false
  imageB : Bool := false
  trial : Bool := false
  fallback : Bool := false
  bootSel : Nat := 0
  readyMs : Nat := 0
  /-- Local time in ticks at which the start began. -/
  startedAt : Nat := 0
  deriving DecidableEq, Repr

/-- The device configuration (R80): every RWL field and parameter, and every STAGED parameter that no instance owns. -/
structure DevConfig where
  /-- MODE, FEC and MAX_FRAME of each port. -/
  ports : List (Nat × Nat × Nat)
  /-- The ports with TRIB set, and the modes of the pairs that are not 0. -/
  tribs : List Nat
  redMode : Tab Nat
  lifeCheck : Nat
  nodeForget : Nat
  gmEn : Bool
  role : Nat
  profile : Nat
  src : Nat
  domain : Option Nat
  priority1 : Nat
  priority2 : Nat
  ptpPorts : List Nat
  soFall : Bool
  halt : Bool
  ballMux : Nat
  /-- DR_REGION in GiB, where it has been set. -/
  drRegion : Option Nat
  deriving DecidableEq, Repr

/-- A bank of CONFIG_STORE (R80, R645): the sequence number of its header, the device configuration and its digest. The committed
configuration of the instances, which the bank holds too, is that of their blocks.
DESIGN CHOICE, assumption 93: unsafe. -/
structure ConfigBank where
  seq : Nat
  dev : Option DevConfig
  digest : BitVec 256
  deriving DecidableEq, Repr

/-- CONFIG_STORE: the banks whose header has been written, and whether bank B is the active one. -/
structure ConfigStore where
  bankA : Option ConfigBank := none
  bankB : Option ConfigBank := none
  activeB : Bool := false
  deriving DecidableEq, Repr

/-- The active bank. -/
def ConfigStore.active (s : ConfigStore) : Option ConfigBank := if s.activeB then s.bankB else s.bankA

/-- The committed device configuration, where one is held (R80). -/
def ConfigStore.dev (s : ConfigStore) : Option DevConfig := s.active.bind (·.dev)

/-- A commit writes the inactive bank and then its header, which makes it the active one (R80, R645).
DESIGN CHOICE, assumption 93: unsafe. -/
def ConfigStore.commit (s : ConfigStore) (dev : Option DevConfig) : ConfigStore :=
  let seq := match s.active with | some b => b.seq + 1 | none => 1
  let bank : ConfigBank := { seq := seq, dev := dev, digest := Config.configDigest seq dev }
  if s.activeB then { s with bankA := some bank, activeB := false } else { s with bankB := some bank, activeB := true }

/-- The mode in which the device drives the flash buses (R675): 1S-1S-1S at 50 MHz, or 8D-8D-8D with DQS at 200 MHz. -/
inductive FlashMode where
  | single | octal
  deriving DecidableEq, Repr

/-- Reset, boot, power and configuration lock. -/
structure Sys where
  phase : Phase := .reset
  /-- The levels of PORST_N, SYSRST_N and PWRFAIL_N. -/
  porstN : Bool := false
  sysrstN : Bool := true
  pwrfailN : Bool := true
  /-- Local time in ticks of the fall at which the running power-fail sequence began (R646); one has ended in reset (R649). -/
  pwrfailAt : Option Nat := none
  pwrfailReset : Bool := false
  /-- MEMA and MEMB are in self-refresh (R634). -/
  selfRefresh : Bool := false
  /-- A start has stopped in boot because a memory channel failed its training (R31). -/
  stuck : Bool := false
  /-- The thermal reset holds (R680); the reset before the next start is or was one; HKP_TEMP.TRIPPED. -/
  thermal : Bool := false
  tripReset : Bool := false
  tripped : Bool := false
  /-- Highest junction temperature now and since the start, in 1/16 °C (HKP_TEMP). -/
  tj : Int := 0
  maxTj : Int := 0
  /-- Core supplies present; the always-on feeds (HKP_POWER). -/
  corePower : Bool := false
  vaonA : Bool := false
  vaonB : Bool := false
  aonLosses : Nat := 0
  pwrfailCount : Nat := 0
  /-- The always-on domain lost its content since the last start (R651). -/
  aonLost : Bool := true
  /-- EPOCH held in FLB (R633). -/
  epochStored : Word := 0
  /-- The two copies of the boot control block (R639). BCB_0 holds a block with its CRC from the factory, BCB_1 none whose CRC matches.
  DESIGN CHOICE, assumption 38: unsafe. -/
  bcb0 : BootCopy := { crc := 0x10FC638C }
  bcb1 : BootCopy := {}
  imageA : Image := { good := true }
  imageB : Image := {}
  svnMin : Nat := 0
  boot : BootState := {}
  /-- The mode of the flash buses (R675). -/
  flash : FlashMode := .single
  /-- AUTO_CONFIRM in seconds (R660). -/
  autoConfirm : Nat := 86400
  /-- Local time in ticks since which HEALTHY has been high. -/
  healthySince : Nat := 0
  /-- A restart DEV_RESTART has asked for: true for cold. -/
  restartAsked : Option Bool := none
  /-- RWL items are locked (R80). -/
  locked : Bool := false
  /-- STAGED device parameters not yet committed, by parameter ID (R79). -/
  devStaged : Tab Int := []
  /-- DR_REGION in GiB set for the next cold start, if set; the region laid out; capacity per channel (R30 to R34). -/
  drRegion : Option Nat := none
  drLaid : Nat := 8
  capacity : Nat := 16
  serial : Nat := 0
  deriving DecidableEq, Repr

end Sys2Proof.Machine
end

