-- ==== Sys2Proof/State/Strong.lean ====
section
/-! DEFINITION. The Strongroom (chapter 17): plain data. -/

namespace Sys2Proof.Machine

/-- A key of a slot or of the store (R569). -/
structure Key where
  type : Nat
  keyId : Nat
  gen : Nat
  /-- ATTR (Table 17.5). -/
  attr : Nat
  material : Nat
  /-- The share S2 = M; S1 is `material` ⊕ M (R583). -/
  mask : Nat := 0
  /-- Invocations counted under R567. -/
  uses : Nat := 0
  /-- CREATED of its entry in the store, in TAI seconds (Table 17.7). -/
  created : Nat := 0
  deriving DecidableEq, Repr

/-- An entry of the journal in FLB (R579). -/
structure JournalEntry where
  magic : Nat := 0x4E524A53
  /-- 1 PREPARED, 2 COMMIT, 3 DONE, 4 ABORTED. -/
  kind : Nat
  slot : Nat
  oldGen : Nat
  newGen : Nat
  /-- SHA-256 of the new store entry. -/
  sha : Nat
  crc : Nat := 0
  deriving DecidableEq, Repr

/-- A key context that the key bus has delivered (R584): the slot, the receiver as its bit of MASTERS, 2 the ingest engine and 3 the
publisher, and the two shares. -/
structure KeyContext where
  slot : Nat
  master : Nat
  s1 : Nat
  s2 : Nat
  deriving DecidableEq, Repr

/-- A replacement in progress (R579): the command, the new key with the old KEY_GEN and the SHA-256 of its store entry, and the last step
it has completed. -/
structure Replace where
  fn : Nat
  cseq : Word
  slot : Nat
  new : Key
  oldGen : Nat := 0
  sha : Nat := 0
  /-- The serial number that its blob carries. -/
  serial : Nat := 0
  /-- 1 verified, 2 PREPARED written, 3 entry written, 4 COMMIT written. -/
  step : Nat
  deriving DecidableEq, Repr

/-- The Strongroom. -/
structure Strong where
  /-- Fuses blown of each bit of LC_FUSE: three per bit. -/
  fuses : List Nat := [3, 0, 0, 0]
  ownerHash : Nat := 0
  /-- Loaded slots. -/
  slots : Tab Key := []
  /-- The live entries of the active store bank (R577), by slot; 0 to 2 and 4 as the factory left them. -/
  store : Tab Key :=
    [(0, { type := 5, keyId := 0, gen := 0, attr := 0xA101E2001, material := 0 }),
     (1, { type := 3, keyId := 1, gen := 0, attr := 0x4A0C0E2010, material := 0 }),
     (2, { type := 3, keyId := 2, gen := 0, attr := 0x4A0C0E2010, material := 0 }),
     (4, { type := 7, keyId := 4, gen := 0, attr := 0x8201F2001, material := 0 })]
  /-- The KEYBLOB region (Table 1.5, R35): the blobs that the HKP copied there at the start (R578), by slot. -/
  keyblob : Tab Blob := []
  bankB : Bool := false
  bankSeq : Nat := 1
  storeUsed : Nat := 4
  replaces : List Replace := []
  /-- SRM_JOURNAL (Table 17.8): the entries its two blocks hold, oldest first. -/
  journal : List JournalEntry := []
  /-- Store entries written and not yet live (R579 step 3), by slot, each with its SHA-256. -/
  fresh : Tab (Key × Nat) := []
  /-- The key contexts in the ingest engine and the publisher (R584). -/
  contexts : List KeyContext := []
  /-- The nonce of SRM_LC_CHALLENGE and the instant its 300 s end; the nonces it has replaced. -/
  nonce : Option (BitVec 128 × Instant) := none
  oldNonces : List (BitVec 128) := []
  /-- The SRM_LC_ADVANCE whose fuses a loss of power has cut short (R563): it has no completion. -/
  advancing : Option (Nat × Word) := none
  trngFail : Bool := false
  debug : Bool := false
  /-- SRM_STAT[0..7]. -/
  stat : Tab Nat := []
  /-- Blob failures not yet reported, and the instant of the last EV_SRM_BLOB_FAIL. -/
  blobFails : Nat := 0
  blobFailAt : Option Instant := none
  /-- Local time in ticks of the last re-masking. -/
  remaskAt : Nat := 0
  deriving DecidableEq, Repr

end Sys2Proof.Machine
end

