-- ==== Sys2Proof/State/Cellar.lean ====
section
/-! DEFINITION. The Cellar and the lifetime ledger (chapter 16): plain data. -/

namespace Sys2Proof.Machine

/-- A Cellar record (Table 16.1). `data` holds the fields of Table 16.2 in their order. -/
structure CelRec where
  seq : Nat
  /-- Instant of the happening in microseconds. -/
  micros : Nat
  type : Nat
  source : Nat
  inst : Nat
  epoch : Word
  tq : Nat
  severity : Nat
  logEpoch : Nat
  data : List Int
  deriving DecidableEq, Repr

/-- A clear under way (R547 step 3): its command, limit and the record it stages. -/
structure ClearWait where
  fn : Nat
  cseq : Word
  limit : Nat
  /-- SEQ of the LOG_CLEAR record, once it is staged; the clear takes effect when its tag is in FLB. -/
  clearSeq : Option Nat := none
  oldEpoch : Nat
  /-- The authorising key's KEY_ID. -/
  keyId : Nat
  /-- The serial number that the blob of the new log key carries. -/
  serial : Nat := 0
  deriving DecidableEq, Repr

/-- A page tag entry (R546): the page it covers, the tag of 128 bits, the key identifier, the records covered, LOG_EPOCH and the SEQ of
the first of them. -/
structure PageTag where
  page : Nat
  tag : Nat
  keyId : Nat
  count : Nat
  logEpoch : Nat
  firstSeq : Nat
  deriving DecidableEq, Repr

/-- The Cellar. -/
structure Cellar where
  /-- CEL_LOG_LEVEL.MIN_SEVERITY. -/
  minSeverity : Nat := 1
  logEpoch : Nat := 0
  /-- SEQ the next staged record takes. -/
  nextSeq : Nat := 1
  /-- Records staged and not yet flushed, oldest first. -/
  stage : List CelRec := []
  /-- Records in FLB, oldest first, and the first SEQ held. -/
  ring : List CelRec := []
  tail : Nat := 1
  flushing : Bool := false
  /-- The last SEQ the running flush writes (R541). -/
  flushTo : Nat := 0
  /-- CEL_SEQ_HEAD: the newest record flushed. -/
  last : Nat := 0
  /-- CEL_TAGS: the final tags, by page; CEL_JOURNAL: the interim tags its two blocks hold, oldest first (R546). -/
  tags : Tab PageTag := []
  journal : List PageTag := []
  clearing : Option ClearWait := none
  /-- The challenge nonce (16 bytes) and the instant its 300 s end. -/
  nonce : Option (BitVec 128 × Instant) := none
  /-- The nonces that a later CEL_CHALLENGE has replaced. -/
  oldNonces : List (BitVec 128) := []
  /-- CEL_FLUSH commands waiting for the flush to end. -/
  flushWait : List (Nat × Word) := []
  /-- Records dropped since the last STAGE_LOSS record. -/
  lostNow : Nat := 0
  /-- CEL_STAT[0..3]. -/
  flushes : Nat := 0
  stageLost : Nat := 0
  failedPages : Nat := 0
  mirrorDrop : Nat := 0
  /-- Pages for which EV_CEL_VERIFY has been raised (R546). -/
  verifyRaised : List Nat := []
  /-- A POWER_FAIL record is staged: records raised after it are not kept (R542). -/
  powerFail : Bool := false
  deriving DecidableEq, Repr

/-- An entry of a ledger segment (Table 16.5). -/
structure LgrEntry where
  counter : Nat
  value : Nat
  crc : Nat
  deriving DecidableEq, Repr

/-- A segment of a ledger copy (Table 16.5): MAGIC and COPY follow from where it lies. The tag is absent where the device holds no ledger
key. -/
structure Segment where
  segSeq : Nat
  firstService : Nat
  lastDay : Nat
  tag : Option Nat
  /-- Counters that are not 0. -/
  snapshot : Tab Nat
  entries : List LgrEntry := []
  deriving DecidableEq, Repr

/-- The lifetime ledger (R548 to R555). -/
structure Ledger where
  /-- Counters that are not 0. -/
  counters : Tab Nat := []
  /-- Counters with a value not yet written to FLB. -/
  pending : List Nat := []
  /-- The segments of copies A and B in FLB, oldest first: 128 places, one of them erased for the next (R552). -/
  copyA : List Segment := []
  copyB : List Segment := []
  copyAOk : Bool := false
  copyBOk : Bool := false
  /-- Instance each assignable counter is assigned to (R551). -/
  owner : Tab Nat := []
  saturated : List Nat := []
  /-- TAI minute of each device counter's last entry (R554). -/
  writtenMinute : Tab Nat := []
  /-- Power-ups that a start has still to count (Table 16.4). -/
  ups : Nat := 0
  /-- Hours counted since the last power-up and its local time in ticks; local time of the last temperature minute. -/
  hours : Nat := 0
  powerAt : Nat := 0
  minuteAt : Nat := 0
  /-- FIRST_SERVICE; LAST_DAY, none while no day has counted. -/
  firstService : Nat := 0
  lastDay : Option Nat := none
  /-- The TAI day of the last estimate of the remaining life, and whether it was below the limit (R555). -/
  wearDay : Option Nat := none
  wearLow : Bool := false
  deriving DecidableEq, Repr

end Sys2Proof.Machine
end

