-- ==== Sys2Proof/State/Cle.lean ====
section
/-! DEFINITION. The cyclic logic engine (chapter 12): plain data. -/

namespace Sys2Proof.Machine

/-- Task modes (Table 12.8). -/
inductive TaskMode where
  | stop | run | hold | halted
  deriving DecidableEq, Repr

/-- The code of a mode. -/
def TaskMode.code : TaskMode → Nat
  | .stop => 0 | .run => 1 | .hold => 2 | .halted => 3

/-- What a command that waits for the end of the running cycle asks for: a mode (R444), or octets of the VA (R453). -/
inductive CleAsk where
  | mode (m : TaskMode)
  | write (addr : Nat) (octets : List Byte)
  deriving DecidableEq, Repr

/-- A command that takes effect after the running cycle. -/
structure CleWait where
  fn : Nat
  cseq : Word
  ask : CleAsk
  deriving DecidableEq, Repr

/-- A committed task. -/
structure TaskSt where
  /-- The device task number (R420). -/
  dev : Nat
  task : CleTask
  mode : TaskMode := .run
  cycleNo : Nat := 0
  /-- The bytes of the VA that are not 0. -/
  va : Tab Nat := []
  /-- LAST_FAULT of CLE_TASK. -/
  lastFault : Nat := 0
  /-- The last release faulted; the last release was skipped. -/
  faulted : Bool := false
  skipped : Bool := false
  first : Bool := true
  warm : Bool := false
  exchanged : Bool := false
  /-- The next release completes as an empty job (R442), and one cycle has been asked for in HOLD (R445). -/
  skip : Bool := false
  step : Option (Nat × Word) := none
  wait : List CleWait := []
  /-- The input image of the running cycle: value and validity of each input, by binding (R424). -/
  image : Option (List (Word × Bool)) := none
  /-- The last valid value of each input since the task started, by binding (R437). -/
  last : Tab Word := []
  /-- MODE_REQ as last written to each binding of kind 0x05 (R471). -/
  written : Tab Word := []
  /-- The task before the exchange, until the first cycle of the new one (R449). -/
  old : Option (CleTask × Tab Nat) := none
  longest : Nat := 0
  /-- Counters k = 0 to 7 of CLE_TSTAT, and 8 RETAIN_DEFERRED, that are not 0. -/
  stat : Tab Nat := []
  /-- Failures since the last EV_CLE_OUT_FAIL and its instant, by binding; slips since the last EV_CLE_SLIP and its instant. -/
  outFail : Tab (Nat × Instant) := []
  slips : Nat := 0
  slipAt : Option Instant := none
  /-- The RETAIN bytes at the last checkpoint, if one has been written since the task started. -/
  saved : Option (Tab Nat) := none
  deriving DecidableEq, Repr

/-- What the CLE holds of an instance. -/
structure CleInst where
  image : Option CleImage := none
  staged : Option (Option CleImage) := none
  tasks : Tab TaskSt := []
  /-- The image that waits for its exchange point. -/
  exchange : Option (Option CleImage) := none
  deriving DecidableEq, Repr

/-- A record of CLE_RETAIN (R448): the fields of its header, the octets of the RETAIN variables in VA order, and the bytes appended to
the log before it. -/
structure Checkpoint where
  inst : Nat
  task : Nat
  cycleNo : Nat
  second : Nat
  data : List Nat
  crc : Nat
  place : Nat
  deriving DecidableEq, Repr

/-- The CLE. -/
structure Cle where
  insts : Tab CleInst := []
  /-- The log in CLE_RETAIN: the records in its erase blocks, newest first. -/
  retained : List Checkpoint := []
  /-- The write allowance in bytes, which records appended again may overdraw, and the TAI second to which it has grown (R448); bytes
  appended in all. -/
  allowance : Int := 0
  allowedTo : Nat := 0
  appended : Nat := 0
  deriving DecidableEq, Repr

end Sys2Proof.Machine
end

