-- ==== Sys2Proof/State/Confluence.lean ====
section
/-! DEFINITION. Confluence (chapter 8): plain data. -/

namespace Sys2Proof.Machine

/-- An entry of the input ring (Table 7.5): `index` is S × RATE + smpCnt, which SEC and SMPCNT spell. -/
structure RingEntry where
  index : Nat
  value : Word
  arrived : Instant
  srcq : Nat
  synch : Nat
  tq : Nat
  deriving DecidableEq, Repr

/-- A judged sample (R280, R283). -/
structure Judged where
  value : Word
  srcq : Nat
  substitute : Bool
  deriving DecidableEq, Repr

/-- A CIC decimator (R285, R286): its 64-bit integrators and comb registers, and the inputs since its reset. -/
structure Cic where
  integ : List Nat := []
  comb : List Nat := []
  fed : Nat := 0
  deriving DecidableEq, Repr

/-- A P output entry (Table 8.2); `tick` counts P ticks from the TAI epoch. -/
structure POut where
  tick : Nat
  value : Word
  quality : Nat
  peak : Word
  rms : Word
  envelope : Word
  rmsQuality : Nat
  /-- CHAN_DELAY at this tick, in ns (R346). -/
  delay : Nat
  deriving DecidableEq, Repr

/-- A Q output entry, or with COUNT for `tick` a reduced-rate one. -/
structure QOut where
  tick : Nat
  value : Word
  quality : Nat
  deriving DecidableEq, Repr

/-- A fade (R291): its target bank, its length F and the ticks it has run. -/
structure Fade where
  toB : Bool
  len : Nat
  at' : Nat
  deriving DecidableEq, Repr

/-- One RMS history word: r[n], and the validity and INTERP bits of its output. -/
structure RmsWord where
  r : Int
  quality : Nat
  deriving DecidableEq, Repr

/-- A channel slot with a committed record. -/
structure Chan where
  inst : Nat
  /-- The SV index of its stream, and the RATE of its subscription. -/
  stream : Nat
  rate : Nat
  record : ChanRec
  dcHold : Bool := false
  ring : List RingEntry := []
  hist : Tab Judged := []
  /-- The indices judged so far, as ranges: from the first to below the second. -/
  judged : List (Nat × Nat) := []
  /-- Runs of missing and present samples, the second substitute of the run, and INVALID. -/
  m : Nat := 0
  g : Nat := 0
  sub2 : Word := 0
  invalid : Bool := true
  dp : Cic := {}
  dr : Cic := {}
  drPhase : Nat := 0
  drCount : Nat := 0
  /-- The FIR delay line, newest first, and whether each value was a D_P output that carries SETTLING. -/
  line : List Word := []
  settling : List Bool := []
  bankB : Bool := false
  fade : Option Fade := none
  queued : Option (Bool × Nat) := none
  dc : Word64 := 0
  peak : Word := 0
  env : Word := 0
  rms : List RmsWord := []
  /-- Output rings, newest first. -/
  pRing : List POut := []
  qRing : List QOut := []
  rRing : List QOut := []
  /-- Qualities of the base-grid outputs of the span, newest first; bit 16 marks a value quantised from a NaN. -/
  span : List Nat := []
  /-- Qualities of the P outputs that D_R has taken, newest first. -/
  pSpan : List Nat := []
  /-- Counters of R303 that are not 0, by code. -/
  stat : Tab Nat := []
  eventAt : Option Instant := none
  changes : Nat := 0
  deriving DecidableEq, Repr

/-- A tracking loop (R270 to R272). -/
structure TrackLoop where
  locked : Bool
  hasSample : Bool
  sLast : Rat
  iLast : Nat
  period : Rat
  outliers : Nat
  lockRun : Nat
  /-- LAT where LAT_OBS is used; none for LAT_EST. -/
  lat : Option Rat
  deriving DecidableEq, Repr

/-- The time base that entries keep after a change (R273): tracked by `loop`, or synchronised. It is that of every index below the first
of the next base, and of the entries held at the change that lie at or above it; `made` is the instant of the change. -/
structure TimeBase where
  below : Nat
  held : List Nat := []
  made : Instant := 0
  tracked : Bool
  /-- The loop as it stood at the change; none where it had no sample, or the entries are synchronised. -/
  loop : Option TrackLoop
  deriving DecidableEq, Repr

/-- The time base of an SV stream. -/
structure Stream where
  inst : Nat
  rate : Nat
  record : StreamRec := {}
  synced : Bool := false
  /-- The time bases of entries from before each change that may still be held, oldest first (R273). -/
  past : List TimeBase := []
  loop : Option TrackLoop := none
  latObs : Option Rat := none
  /-- t_nom and index of the last synchronised sample. -/
  lastSync : Option (Rat × Nat) := none
  outliers : Nat := 0
  deriving DecidableEq, Repr

/-- A coefficient set: its taps and DELAY in ns. -/
structure CoefSet where
  taps : List Word
  delay : Nat
  deriving DecidableEq, Repr

/-- Confluence. -/
structure Confluence where
  /-- The next Q tick of each instance, counted from the TAI epoch (R687). -/
  next : Tab Nat := []
  /-- The Q tick after the last that each instance has processed, which a stop keeps (R687). -/
  done : Tab Nat := []
  /-- H of each instance in µs where it differs from 300 (R265), and staged values. -/
  horizon : Tab Nat := []
  horizonStaged : Tab Nat := []
  /-- Committed channels by slot, and staged records by slot with the instance that staged them. -/
  chans : Tab Chan := []
  chanStaged : Tab (Nat × ChanRec) := []
  /-- Streams by SV index, and staged stream records with their instance. -/
  streams : Tab Stream := []
  streamStaged : Tab (Nat × StreamRec) := []
  /-- Coefficient sets that have been written, by 32n + set. -/
  coefs : Tab CoefSet := []
  /-- Prototypes 1 to 4 that have been loaded: 513 rows of 16. -/
  protos : Tab (List (List Word)) := []
  pinEn : Bool := false
  pol : Bool := false
  /-- The P tick of the last or pending DEC_SYNC, and whether it awaits its tick. -/
  dsTick : Nat := 0
  dsPending : Bool := false
  /-- P ticks of requests an instance may still meet, and the last that each instance applied. -/
  dsTicks : List Nat := []
  dsDone : Tab Nat := []
  /-- CFL_TICK, and the last P tick flagged for each instance. -/
  tick : Nat := 0
  flagged : Tab Nat := []
  /-- CFL_LOAD: the last interval, the largest of this second and of the last complete one. -/
  lastNs : Nat := 0
  maxNow : Nat := 0
  maxNs : Nat := 0
  loadSecond : Nat := 0
  /-- CFL_STAT[0..6]. -/
  stat : Tab Nat := []
  deriving DecidableEq, Repr

end Sys2Proof.Machine
end

