-- ==== Sys2Proof/State/Faults.lean ====
section
/-! DEFINITION. Errors, self-test and degraded operation (chapter 19): plain data. -/

namespace Sys2Proof.Machine

/-- The condition of a unit (FLT_LIST). -/
inductive UnitState where
  | inService | underTest | suspect | retired
  deriving DecidableEq, Repr

/-- The state code of FLT_LIST. -/
def UnitState.code : UnitState → Nat
  | .inService => 0 | .underTest => 1 | .suspect => 2 | .retired => 3

/-- What the device knows of a unit that is not in service without a history (R613, R615). -/
structure UnitRec where
  state : UnitState := .inService
  /-- Instants of the tests passed as transient, newest first (kept in DEV_STATE). -/
  transients : List Instant := []
  /-- Instant of the last report. -/
  lastReport : Instant := 0
  /-- Reports since the previous EV_FLT_REPORT, and the instant of that event. -/
  reports : Nat := 0
  reportedAt : Option Instant := none
  /-- Corrected errors counted against the unit (R27, R36) and the instants of those of the last second. -/
  corrected : Nat := 0
  recent : List Instant := []
  /-- An SRAM bank whose place its store's spare has taken, or an SDRAM row remapped, for good. -/
  replaced : Bool := false
  deriving DecidableEq, Repr

/-- The test slot of a class (R620). -/
structure TestSlot where
  unit : Nat
  /-- Local time in ticks at which the test started. -/
  since : Nat
  /-- Whether the test still runs; the class stays in recovery until the admission it starts has completed. -/
  busy : Bool := true
  /-- The condition of the unit before its test, and whether its store's spare stands in for it (R616). -/
  was : UnitState := .inService
  spare : Bool := false
  /-- The FLT_UNIT_RETEST that waits for the outcome. -/
  retest : Option (Nat × Word) := none
  deriving DecidableEq, Repr

/-- The fault handling of the device. -/
structure Faults where
  healthy : Bool := false
  cause : Nat := 0
  soFall : Bool := true
  halt : Bool := false
  units : Tab UnitRec := []
  /-- Test slots of the classes in recovery. -/
  slots : Tab TestSlot := []
  /-- SRAM stores whose spare bank is in use: for how long the bank is tested, or for good (R616). -/
  sparesUsed : List Nat := []
  /-- Spare rows used per SDRAM channel (R618). -/
  rowsUsed : List Nat := [0, 0]
  /-- FLT_STAT[0..7]. -/
  stat : Tab Nat := []
  /-- Island events in the last 24 h, newest first, per island; islands with a lasting fault. -/
  islandEvents : Tab (List Instant) := []
  lasting : List Nat := []
  /-- Islands whose PLL has lost lock, and since when (ticks). -/
  unlocked : Tab Nat := []
  /-- An admission run started by R623, and its start (ticks). -/
  admission : Option Nat := none
  /-- The HKP is away (R622); its restarts, newest first; it has a lasting fault. -/
  hkpAway : Bool := false
  hkpRestarts : List Instant := []
  hkpDead : Bool := false
  /-- Cells withdrawn from the free list with retired Cistern banks (R616). -/
  withdrawn : Nat := 0
  /-- Cells of retired banks that frames still hold: they are withdrawn as they come free. -/
  withdrawDue : Nat := 0
  deriving DecidableEq, Repr

end Sys2Proof.Machine
end

