-- ==== Sys2Proof/State/FieldBus.lean ====
section
/-! DEFINITION. The field bus controllers (chapter 18): plain data. -/

namespace Sys2Proof.Machine

/-- What a frame store holds. -/
structure CanStore where
  ident : Nat
  dlc : Nat
  flags : Nat
  time : Instant
  data : List Nat
  deriving DecidableEq, Repr

/-- A message buffer with its record. -/
structure CanBuf where
  record : CanRec
  content : Option CanStore := none
  shadow : Option CanStore := none
  pending : Bool := false
  /-- The last status of Table 18.4, where the buffer has one. -/
  status : Nat := 0
  /-- Requested by FB_TX; a cancellation has arrived; the FB_CANCELs that wait for the frame's end. -/
  byCommand : Bool := false
  cancelled : Bool := false
  cancelWaits : List (Nat × Word) := []
  /-- Receive supervision has expired since the last frame; expiries since the last event, and its instant. -/
  expired : Bool := false
  expiries : Nat := 0
  expiredAt : Option Instant := none
  deriving DecidableEq, Repr

/-- A slot whose window runs: cycle, slot, buffer, and the instant at which the window ends. -/
structure SlotOpen where
  cycle : Nat
  slot : Nat
  buffer : Nat
  till : Instant
  deriving DecidableEq, Repr

/-- A channel FB_n. -/
structure CanChan where
  enable : Bool := false
  init : Bool := true
  schedEn : Bool := false
  autoRecov : Bool := false
  listen : Bool := false
  loopback : Bool := false
  tdcEn : Bool := false
  brsEn : Bool := false
  fdEn : Bool := false
  nbt : Word := 0x003F1F1F
  dbt : Word := 0x07264000
  tdco : Nat := 30
  tdcv : Nat := 0
  /-- STATE of FBC_ERR: 0 active, 1 passive, 2 bus-off. -/
  state : Nat := 0
  tec : Nat := 0
  rec' : Nat := 0
  recov : Nat := 0
  recovering : Bool := false
  held : Option Nat := none
  /-- The buffer held through bus-off, to be offered first after recovery (R606). -/
  first : Option Nat := none
  /-- The buffers that have been the one offered since a frame last ended: one of them may be on the wire. -/
  offered : List Nat := []
  bufs : Tab CanBuf := []
  /-- The schedule matrix: cycles of slots, CYCLE_LEN and SLOT_WINDOW in ns. -/
  matrix : List (List CanSlot) := []
  cycleLen : Nat := 0
  window : Nat := 0
  slots : List SlotOpen := []
  missed : Nat := 0
  missedAt : Option Instant := none
  /-- FBC_STAT. -/
  stat : Tab Nat := []
  deriving DecidableEq, Repr

/-- The field bus. -/
structure FieldBus where
  chans : List CanChan := [{}, {}, {}, {}]
  deriving DecidableEq, Repr

end Sys2Proof.Machine
end

