-- ==== Sys2Proof/State/Ingest.lean ====
section
/-! DEFINITION. The ingest engine (chapter 7): plain data. -/

namespace Sys2Proof.Machine

/-- The states of Table 7.7. -/
inductive SubPhase where
  | disabled | wait | active | lost | confErr | authErr
  deriving DecidableEq, Repr

/-- The code of a state (Table 7.7). -/
def SubPhase.code : SubPhase → Nat
  | .disabled => 0 | .wait => 1 | .active => 2 | .lost => 3 | .confErr => 4 | .authErr => 5

/-- A committed subscription of either kind. -/
structure Sub where
  inst : Nat
  record : SubRec
  phase : SubPhase := .disabled
  /-- The last smpCnt or stNum accepted, and for GOOSE the last sqNum. -/
  count : Nat := 0
  sq : Nat := 0
  /-- t_arr of the last acceptance. -/
  arrived : Option Instant := none
  /-- The supervision deadline (R254). -/
  deadline : Instant := 0
  /-- STALE ASDUs in a row (R248). -/
  staleRun : Nat := 0
  /-- An authentication failure since the last acceptance, and the instant of the last failure. -/
  authFailed : Bool := false
  authFailAt : Option Instant := none
  /-- ACCEPTED_SYNC of the last accepted ASDU. -/
  sync : Option Bool := none
  /-- The key identifier that verified the previous frame. -/
  keyId : Option Nat := none
  /-- A simulated frame has been accepted while SIM is set (R241). -/
  simSeen : Bool := false
  /-- Counters of R261 that are not 0, by code. -/
  stat : Tab Nat := []
  /-- The GOOSE image: VALID and the member words, as 64-bit numbers. -/
  valid : Bool := false
  words : List Nat := []
  /-- The members were written by a frame that was not verified: they are marked UNAUTH (R243). -/
  unauth : Bool := false
  deriving DecidableEq, Repr

/-- The ingest engine. Subscriptions are keyed by index. -/
structure Ingest where
  sv : Tab Sub := []
  goose : Tab Sub := []
  /-- Staged changes by index: the instance, and the new record or none for a deletion. -/
  svStaged : Tab (Nat × Option SubRec) := []
  gooseStaged : Tab (Nat × Option SubRec) := []
  /-- ING_STAT[0..4]. -/
  stat : Tab Nat := []
  /-- Frames verified and parsed in this period, and the values of the last one (ING_LOAD). -/
  verified : Nat := 0
  parsed : Nat := 0
  verifiedLast : Nat := 0
  parsedLast : Nat := 0
  /-- The signal database: the values of the data points that are not 0. -/
  points : Tab Nat := []
  deriving DecidableEq, Repr

end Sys2Proof.Machine
end

