-- ==== Sys2Proof/State/Millrace.lean ====
section
/-! DEFINITION. Millrace (chapter 13): plain data. -/

namespace Sys2Proof.Machine

/-- What a stage keeps: mantissas of the inputs and outputs one and two evaluations before, and of r or i. -/
structure StageSt where
  x1 : Int := 0
  x2 : Int := 0
  y1 : Int := 0
  y2 : Int := 0
  i : Int := 0
  i2 : Int := 0
  deriving DecidableEq, Repr

/-- A running or waiting injection (R472). `tick` counts grid ticks from the TAI epoch. -/
structure Inject where
  stage : Nat
  kind : Nat
  order : Nat
  a : Word
  fStart : Word
  fEnd : Word
  len : Nat
  hold : Nat
  tick : Nat
  /-- Evaluations done, the phase φ (binary64) and the PRBS register. -/
  n : Nat := 0
  phase : Word64 := 0
  lfsr : Nat := 0
  deriving DecidableEq, Repr

/-- A request for a mode (R471): AUTO, its cause, and a MANUAL_VALUE. -/
structure LoopReq where
  auto : Bool
  cause : Nat
  value : Option Word := none
  deriving DecidableEq, Repr

/-- A committed loop. -/
structure LoopSt where
  inst : Nat
  index : Nat
  record : LoopRec
  auto : Bool := false
  /-- No evaluation in AUTO has been committed since MANUAL (R470). -/
  enter : Bool := false
  out : Word := 0
  manual : Word := 0
  refVar : Word := 0
  ref : Word := 0
  fb : Word := 0
  err : Word := 0
  /-- Requests since the last evaluation, oldest first. -/
  reqs : List LoopReq := []
  missed : Bool := false
  limited : Int := 0
  sat : Nat := 0
  stages : List StageSt := []
  missRun : Nat := 0
  missSince : Nat := 0
  missAt : Option Instant := none
  failSince : Nat := 0
  failAt : Option Instant := none
  inject : Option Inject := none
  /-- REF and FB as the running job read them: value, refused or invalid. -/
  snap : Option ((Word × Bool) × (Word × Bool)) := none
  /-- The last valid value of a GOOSE member bound as REF (0) or FB (1) (R320). -/
  lastIn : Tab Word := []
  /-- Inputs and outputs of the stages at the last commit, in binary32 (R473). -/
  ins : List Word := []
  outs : List Word := []
  stat : Tab Nat := []
  deriving DecidableEq, Repr

/-- A point of a capture (R473). -/
structure CapPoint where
  a : Word
  b : Word
  /-- TICK in the format of Table 8.2. -/
  tick : Nat
  flags : Nat
  w : Word
  deriving DecidableEq, Repr

/-- A capture slot. -/
structure Capture where
  busy : Bool := false
  done : Bool := false
  /-- The loop, and the instance it belonged to when the capture was asked for. -/
  loop : Nat := 0
  inst : Nat := 0
  sigA : Nat := 0
  sigB : Nat := 0
  len : Nat := 0
  tick : Nat := 0
  points : List CapPoint := []
  deriving DecidableEq, Repr

/-- Millrace: loops by device number, staged records by 64 × instance + index (none for a deletion), captures. -/
structure Millrace where
  loops : Tab LoopSt := []
  staged : Tab (Option LoopRec) := []
  caps : List Capture := [{}, {}, {}, {}]
  deriving DecidableEq, Repr

end Sys2Proof.Machine
end

