-- ==== Sys2Proof/State/Ports.lean ====
section
/-! DEFINITION. Ports, MACs, the switch core and the redundancy tables (chapters 4 and 5): plain data. -/

namespace Sys2Proof.Machine

/-- The credit-based shaper of one queue (R147): credits in 1/256 bit. -/
structure Shaper where
  en : Bool := false
  slope : Nat := 0
  hi : Nat := 0
  lo : Int := 0
  credit : Int := 0
  /-- Port-island cycle at which `credit` was last brought up to date. -/
  since : Nat := 0
  deriving DecidableEq, Repr

/-- One frame in an output queue: the frame's number, the redundancy tag it leaves with,
whether it leaves tagged, and whether it may go cut-through (R170). -/
structure Queued where
  fid : Nat
  red : Option RedTag := none
  tagged : Bool := true
  /-- The HSR tag or PRP trailer it came with stays in it, as bytes that its input port did not read (R181, R184). -/
  keep : Bool := false
  /-- The switch port it entered at. -/
  inPort : Nat := 0
  cutThrough : Bool := false
  /-- The counter when its first byte left, once it has started cut-through (R217). -/
  startAt : Option Instant := none
  /-- A Sync to which the transparent clock adds its correction (R217). -/
  tc : Bool := false
  deriving DecidableEq, Repr

/-- One external port. -/
structure Port where
  enable : Bool := false
  maxFrame : Nat := 1536
  fec : Nat := 0
  mode : Nat := 0
  tsEn : Bool := true
  loopback : Bool := false
  link : Bool := false
  pcsSync : Bool := false
  fecLock : Bool := false
  speedUnsup : Bool := false
  /-- SPEED code of MAC_STATUS. -/
  speed : Nat := 0
  holding : Bool := false
  /-- Local time of the loss of link that started the hold. -/
  holdSince : Nat := 0
  cur : Nat := 256
  base : Nat := 256
  /-- HOLD in units of 100 µs. -/
  hold : Nat := 50
  ageQ : List Nat := [20, 20, 20, 20]
  shapers : Tab Shaper := []
  /-- Counters of Table 4.4 that are not 0, and their last snapshot. -/
  stat : Tab Nat := []
  snap : Tab Nat := []
  /-- The eight egress queues that are not empty, head first. -/
  queues : Tab (List Queued) := []
  /-- A cut-through frame in transmission whose end has not arrived: its queue and its place. -/
  sending : Option (Nat × Queued) := none
  /-- Frames received whole and not yet looked up. -/
  received : List (Nat × Frame) := []
  deriving DecidableEq, Repr

/-- A frame held in Cistern. -/
structure Held where
  inPort : Nat
  frame : Frame
  /-- VID, PCP and traffic class of classification (R165). -/
  vid : Nat
  pcp : Nat
  tc : Nat
  /-- Complete in Cistern. -/
  complete : Bool
  /-- Cells taken and cells still reserved (R177). -/
  taken : Nat
  reserved : Nat
  /-- How many queues still hold it. -/
  copies : Nat
  /-- Local time at which it entered Cistern, and its arrival time stamp. -/
  since : Nat
  arrival : Instant
  /-- For a publisher frame: the tag that makes a transmit timestamp entry (R225), and the function that sent it. -/
  stampId : Option (Nat × Nat) := none
  fromFn : Option Nat := none
  deriving DecidableEq, Repr

/-- A frame an internal port hands to the switch: the frame, its ports for the publisher, class and originator.
DEDUCED, assumption 10: unsafe. -/
structure InternalFrame where
  frame : Frame
  ports : List Nat := []
  tc : Nat := 0
  fromFn : Option Nat := none
  stampId : Option (Nat × Nat) := none
  deriving DecidableEq, Repr

/-- An entry of the forwarding database (R163). -/
structure FdbEntry where
  mac : Nat
  vid : Nat
  static : Bool
  ports : List Nat
  fns : List Nat := []
  /-- Instant of the last refresh of a learned entry. -/
  refreshed : Instant := 0
  deriving DecidableEq, Repr

/-- An entry of the VLAN table. -/
structure Vlan where
  members : List Nat
  untagged : List Nat
  deriving DecidableEq, Repr

/-- Per side of a node-table entry (R186). -/
structure Side where
  seen : Bool := false
  last : Nat := 0
  /-- Skipped ranges, oldest first, at most four. -/
  gaps : List (Nat × Nat) := []
  floor : Option Nat := none
  deriving DecidableEq, Repr

/-- A redundancy node-table entry (R186). -/
structure Node where
  pair : Nat
  mac : Nat
  newest : Nat
  a : Side
  b : Side
  refreshed : Instant
  /-- Last supervision frame seen on each side, if any (R192). -/
  supA : Option Instant := none
  supB : Option Instant := none
  /-- The instant the entry was made, from which a side never heard counts as silent (R192). -/
  since : Instant := 0
  deriving DecidableEq, Repr

/-- A proxied source of a RedBox or QuadBox (R190) with its sequence counter (R183). -/
structure Proxy where
  pair : Nat
  mac : Nat
  seq : Nat
  deriving DecidableEq, Repr

/-- The SWC_PORT_CFG register of an external port. -/
structure SwPort where
  learn : Bool := true
  ingressFilter : Bool := true
  accept : Nat := 0
  unkMcBlock : Bool := false
  ingestEn : Bool := true
  trib : Bool := false
  supToHost : Bool := false
  defPcp : Nat := 0
  pvid : Nat := 1
  deriving DecidableEq, Repr

/-- What SW_HOST_VLAN gives a function (R168).
DESIGN CHOICE, assumption 9: unsafe. -/
structure HostVlan where
  maxPcp : Nat
  defVid : Nat
  vids : List Nat
  deriving DecidableEq, Repr

/-- The switch core. -/
structure Switch where
  ports : Tab SwPort := []
  /-- SWC_PCP_MAP where it is not the identity. -/
  pcpMap : Tab Nat := []
  /-- SWC_STAT[p][k] at key 16p + k. -/
  stat : Tab Nat := []
  /-- K_0 to K_7 (R175). -/
  alpha : List Int := [-2, -2, -2, -2, 1, 1, 3, 3]
  headroom : Nat := 512
  fdb : List FdbEntry := []
  fdbFullAt : Option Instant := none
  fdbAge : Nat := 300
  vlans : Tab Vlan := [(1, { members := List.range 68, untagged := List.range 64 })]
  hostVlans : Tab HostVlan := []
  /-- Frames held, by frame number. -/
  frames : Tab Held := []
  nextFid : Nat := 0
  /-- Cells on the free list, reserved cells included (SWC_FREE). -/
  free : Nat := 65536
  /-- IPORT_INGEST, and IPORT_MIRROR's received Tributary frames, head first. -/
  ingestQ : Tab (List Queued) := []
  mirrorQ : Tab (List Queued) := []
  /-- IPORT_HOST: queue m for function m. -/
  hostQ : Tab (List Queued) := []
  /-- Frames complete at an internal port and not yet looked up, by switch port 65 to 67. -/
  inbox : Tab (List InternalFrame) := []
  /-- Redundancy modes and sequence counters of the pairs that are not in mode 0. -/
  redMode : Tab Nat := []
  redSeq : Tab Nat := []
  nodes : List Node := []
  proxies : List Proxy := []
  wrongLanAt : Tab Instant := []
  /-- When each pair last sent supervision frames. -/
  supSentAt : Tab Instant := []
  lifeCheck : Nat := 2000
  nodeForget : Nat := 60
  /-- The 100 ms instant of the last census, counted from the TAI epoch, and what it added up to (R179). -/
  censusAt : Nat := 0
  censusSum : Nat := 65536
  skipped : Nat := 0
  walking : Bool := false
  walkWait : List (Nat × Word) := []
  double : Nat := 0
  reclaimed : Nat := 0
  /-- The port snapshot (R155): BUSY with its instant, T of the last, and PORT_SNAPSHOT commands waiting. -/
  snapAt : Option Instant := none
  snapT : Instant := 0
  snapWait : List (Nat × Word × List Nat) := []
  deriving DecidableEq, Repr

end Sys2Proof.Machine
end

