-- ==== Sys2Proof/State/Recorder.lean ====
section
/-! DEFINITION. Disturbance recorders (chapter 15): plain data. -/

namespace Sys2Proof.Machine

/-- A row: its grid instant as a Q tick from the TAI epoch, values (MIN and MAX, or one value twice), qualities, bits, and the
halving level it was written at. -/
structure DrRow where
  q : Nat
  values : List (Word × Word)
  quals : List Nat
  bits : List Bool := []
  h : Nat := 0
  deriving DecidableEq, Repr

/-- A trigger (R520), and the local time in ticks at which it reached its recorder (R524). -/
structure DrTrig where
  instant : Instant
  cause : Nat
  index : Nat := 0
  arrived : Nat := 0
  deriving DecidableEq, Repr

/-- A record, open or closed (Table 15.4); the rows enter it when it closes. -/
structure DrRecord where
  number : Nat
  epoch : Word
  first : DrTrig
  /-- The end of its window in ns. -/
  stop' : Instant
  preShort : Bool := false
  rateReduced : Bool := false
  extended : Bool := false
  maskFail : Bool := false
  truncated : Bool := false
  /-- The bytes of rows written before its first row, and its rows. -/
  place : Nat := 0
  rows : List DrRow := []
  trigs : List DrTrig := []
  /-- Mask tests violated, and rows tested so far. -/
  maskTests : List Nat := []
  tested : Nat := 0
  /-- The recorder's record when it closed, R_R and row bytes. -/
  record : DrRec
  rr : Nat := 0
  rowBytes : Nat := 0
  /-- UTC_OFFSET at its first row and at T_first, and leapsec of its export (Table 15.5). -/
  utcFirst : Int := 0
  utcTrig : Int := 0
  leap : Nat := 0
  deriving DecidableEq, Repr

/-- The states of Table 15.3. -/
inductive DrPhase where
  | idle | armed | recording | rearm | stopped | full
  deriving DecidableEq, Repr

/-- The code of a state. -/
def DrPhase.code : DrPhase → Nat
  | .idle => 0 | .armed => 1 | .recording => 2 | .rearm => 3 | .stopped => 4 | .full => 5

/-- What a reduced-rate row merges of one channel: MIN, MAX, the sum of D_R outputs in binary64, quality. -/
structure DrAcc where
  lo : Word
  hi : Word
  sum : Word64
  quality : Nat
  deriving DecidableEq, Repr

/-- A committed recorder. -/
structure Rec where
  inst : Nat
  index : Nat
  record : DrRec
  masks : Tab MaskTest := []
  phase : DrPhase := .idle
  stopCause : Nat := 0
  h : Nat := 0
  /-- Rows of processed ticks that wait for their writing instant, oldest first. -/
  due : List DrRow := []
  /-- Rows written since it armed or since the last row of its last record, oldest first. -/
  ring : List DrRow := []
  /-- Bytes of rows written in all, for their places in the buffer. -/
  written : Nat := 0
  current : Option DrRecord := none
  held : List DrRecord := []
  number : Nat := 0
  /-- Instant at which it armed; local time in ticks at which REARM ends. -/
  armedAt : Instant := 0
  rearmAt : Nat := 0
  /-- Per channel the P values and qualities of the last R_R ticks, newest first; the intervals merged so far. -/
  window : List (List (Word × Nat)) := []
  acc : List DrAcc := []
  merged : Nat := 0
  missSince : Nat := 0
  missAt : Option Instant := none
  stat : Tab Nat := []
  deriving DecidableEq, Repr

/-- An XTRIG_OUT line driven low: the recorders that drive it and the local time in ticks at which the pulse ends. -/
structure XOut where
  recs : List Nat
  till : Nat
  deriving DecidableEq, Repr

/-- The recorders by device number; staged records by 16 × instance + index, staged mask tests by 8 × that + test; DR_BW in
units of 100 MB/s; the XTRIG_OUT lines driven. -/
structure Recorder where
  recs : Tab Rec := []
  staged : Tab (Option DrRec) := []
  masksStaged : Tab (Option MaskTest) := []
  bw : Nat := 20
  xout : Tab XOut := []
  deriving DecidableEq, Repr

end Sys2Proof.Machine
end

