-- ==== Sys2Proof/State/Sluice.lean ====
section
/-! DEFINITION. Sluice and the operators' node state (chapters 9 to 11): plain data. -/

namespace Sys2Proof.Machine

/-- Node states (Table 9.3). -/
inductive NodePhase where
  | idle | pending | queued | executing
  deriving DecidableEq, Repr

/-- The code of a state (Table 9.3). -/
def NodePhase.code : NodePhase → Nat
  | .idle => 0 | .pending => 1 | .queued => 2 | .executing => 3

/-- An output element (Table 10.3). -/
inductive Elem where
  | scalar (v : Word) (q : Nat)
  | phasor (re im mag ang : Word) (q : Nat)
  deriving DecidableEq, Repr

/-- One history value of a channel: its P tick from the TAI epoch, its value and its quality. -/
structure HistVal where
  tick : Nat
  value : Word
  quality : Nat
  deriving DecidableEq, Repr

/-- One job of an FRQ node: its tick, the phasor X, f in Hz and their qualities. -/
structure FrqJob where
  tick : Nat
  re : Word
  im : Word
  f : Word
  xq : Nat
  fq : Nat
  deriving DecidableEq, Repr

/-- The state an operator keeps between jobs. -/
structure OpMem where
  /-- The tick of the previous job, and the tick of the first job since the node started. -/
  kLast : Option Nat := none
  kFirst : Nat := 0
  /-- Channel histories, newest first, at most 160 ticks each. -/
  hist : List (List HistVal) := []
  frq : List FrqJob := []
  /-- Timers in ns, flags, counts, and other exact values, by the operator's own numbering. -/
  vals : Tab Rat := []
  /-- binary64 values: θ, E and the integrators. -/
  wide : Tab Word64 := []
  /-- binary32 values: last valid inputs, remembered phasors. -/
  words : Tab Word := []
  deriving DecidableEq, Repr

/-- What a completed operator does beside its outputs. -/
inductive Act where
  /-- A TRC has completed (R406, R407): SO, PUB, TRIP, whether TRIP has changed, and FIRST and SOURCES. -/
  | trip (so pub : Nat) (on changed : Bool) (first sources : Nat)
  /-- A TRC sets its lockout latch. -/
  | latch (l : Nat)
  /-- DRT triggers recorders (R408, R521): their mask, the tick, the instant T_i in ns and the input. -/
  | record (mask tick : Nat) (at' : Instant) (input : Nat)
  /-- IIT's one write to the ledger (R373): counter, tick k0 of the operation, and increment. -/
  | ledger (adds : List (Nat × Nat × Nat))
  /-- ADP's request for a group and for a bank (R414). -/
  | group (sel g : Nat)
  | bank (slot : Nat) (toB : Bool) (fade : Nat)
  deriving DecidableEq, Repr

/-- What an operator's evaluation gives. -/
structure JobResult where
  out : List Elem := []
  opst : Nat := 0
  mem : OpMem := {}
  subst : Bool := false
  acts : List Act := []
  deriving DecidableEq, Repr

/-- What a set flag of a node remembers of its setting: the last P tick flagged and the last Q tick processed then, and the chains behind
it, each with the local time in ticks at which the chain's source flag was applied (R322, R422). -/
structure FlagMark where
  bit : Nat
  tick : Nat
  q : Nat
  origins : List (Nat × Nat) := []
  deriving DecidableEq, Repr

/-- One node as Sluice keeps it. -/
structure NodeSt where
  flags : Word := 0
  marks : List FlagMark := []
  phase : NodePhase := .idle
  overrun : Bool := false
  /-- OVERRUN of NSTAT, which a completion clears (Table 9.8). -/
  nOverrun : Bool := false
  held : Bool := false
  cancelled : Bool := false
  incomplete : Bool := false
  inputSubst : Bool := false
  opst : Nat := 0
  /-- The tick of the job whose outputs stand (Table 10.3), from the TAI epoch. -/
  tick : Nat := 0
  out : List Elem := []
  /-- The outputs before these, and their tick: what a recorder's row of an earlier tick reads (R519). -/
  prevTick : Nat := 0
  prevOut : List Elem := []
  mem : OpMem := {}
  jobs : Nat := 0
  overruns : Nat := 0
  /-- EV_SLC_OVERRUN: overruns since the last event, and when it was raised (R319). -/
  overSince : Nat := 0
  overAt : Option Instant := none
  deriving DecidableEq, Repr

/-- What an engine other than a core or lane has reported of a job: a logic engine's cycle, an empty job, a cycle that
faulted; a loop's evaluation; a release. -/
inductive EngineEnd where
  | done | empty | faulted
  deriving DecidableEq, Repr

/-- An in-flight place: a node queued or executing (Table 9.1), or waiting for room. -/
structure Flight where
  inst : Nat
  node : Nat
  gen : Nat
  prio : Nat
  cls : Nat
  /-- The unit it must run on, or the unit it runs on. -/
  unit : Nat
  phase : NodePhase
  /-- The Sluice cycle in which it became ready, and in which it was enqueued. -/
  ready : Nat
  enq : Nat
  tick : Nat
  /-- The last Q tick processed when it was enqueued, from the TAI epoch: the tick that released a loop. -/
  q : Nat := 0
  /-- The P tick and the Q tick whose flag released the job, and the chains behind its flags. -/
  relTick : Nat := 0
  relQ : Nat := 0
  origins : List (Nat × Nat) := []
  start : Nat := 0
  /-- PC and LANE: evaluated at dispatch. -/
  result : Option JobResult := none
  /-- MLR and LE: what the engine has reported. -/
  engine : Option EngineEnd := none
  /-- The cells of the setting groups in force at its tick: GS_0 to GS_3. -/
  groups : List Nat := []
  deriving DecidableEq, Repr

/-- A chain record: stored bound, largest interval, jobs measured. -/
structure ChainSt where
  bound : Nat := 0
  largest : Nat := 0
  measured : Nat := 0
  deriving DecidableEq, Repr

/-- A group selector (R410). -/
structure Selector where
  active : Nat := 0
  forced : Option Nat := none
  request : Option Nat := none
  /-- The group the twin's mirror has named since the last flag. -/
  mirror : Option Nat := none
  changedAt : Option Instant := none
  /-- A GRP_RELEASE stands behind the request that waits. -/
  released : Bool := false
  changes : Nat := 0
  deriving DecidableEq, Repr

/-- The contiguous ranges of an instance in the node and edge tables (R306): where each begins. -/
structure Ranges where
  node : Nat := 0
  edge : Nat := 0
  deriving DecidableEq, Repr

/-- Everything an instance has staged but its graph and its CLE image, each table as the block holds it. -/
structure Staged where
  sv : Tab (Nat × Option SubRec) := []
  goose : Tab (Nat × Option SubRec) := []
  chans : Tab (Nat × ChanRec) := []
  streams : Tab (Nat × StreamRec) := []
  horizon : Option Nat := none
  goosePubs : Tab (Option GoosePub) := []
  svPubs : Tab (Option SvPub) := []
  loops : Tab (Option LoopRec) := []
  recs : Tab (Option DrRec) := []
  masks : Tab (Option MaskTest) := []
  deriving DecidableEq, Repr

/-- An exchange that waits for its point (R330): the graph staged (none for no change), its node and edge ranges, the command to
complete, the P ticks flagged so far, what else was staged at the commit, and what the commit found: its claims, and the bounds and
in-flight needs of its admission run. -/
structure Exchange where
  graph : Option (Option Graph)
  ranges : Ranges := {}
  staged : Staged := {}
  wait : Nat × Word
  ticks : Nat
  claims : List Claim
  bounds : List (Nat × List Nat)
  needs : List (Nat × Nat)
  deriving DecidableEq, Repr

/-- What Sluice keeps of an instance. -/
structure SlcInst where
  graph : Option Graph := none
  ranges : Ranges := {}
  /-- Staged: none for no change, some none for an unload. -/
  staged : Option (Option Graph) := none
  exchange : Option Exchange := none
  nodes : List NodeSt := []
  chains : List ChainSt := []
  sels : List Selector := [{}, {}, {}, {}]
  /-- The last P tick flagged. -/
  tick : Nat := 0
  /-- Last accepted trigger of each binding of kind 0x05. -/
  triggers : Tab Instant := []
  need : Nat := 0
  peak : Nat := 0
  /-- Counters of R334 that are not 0, by item 3 to 8. -/
  stat : Tab Nat := []
  /-- The tick records with INCOMPLETE set (R321): the nodes dropped in each P tick. -/
  incomplete : Tab Nat := []
  /-- THM states kept over a warm reset: by STATE_ID (R371). -/
  thermal : Tab OpMem := []
  deriving DecidableEq, Repr

/-- Sluice. -/
structure Sluice where
  insts : Tab SlcInst := []
  flights : List Flight := []
  /-- The model's own field: Sluice cycles counted, for the order of enqueueing. -/
  cycle : Nat := 0
  /-- SLC_UNITS: units not in service, by class. -/
  down : List (Nat × Nat) := []
  /-- SLC_INFLIGHT.PEAK, the peak of this period, SLC_DISPATCH.LAST and dispatches of this period. -/
  peakLast : Nat := 0
  peakNow : Nat := 0
  dispatchLast : Nat := 0
  dispatchNow : Nat := 0
  /-- SLC_STAT[0..6]. -/
  stat : Tab Nat := []
  deriving DecidableEq, Repr

end Sys2Proof.Machine
end

