-- ==== Sys2Proof/State/Trip.lean ====
section
/-! DEFINITION. Trip paths: publications, Tributary, safety I/O and lockout latches (chapter 14): plain data. -/

namespace Sys2Proof.Machine

/-- A committed GOOSE publication. -/
structure GooseSt where
  inst : Nat
  index : Nat
  record : GoosePub
  /-- Member values as last written, 0 where nothing has. -/
  values : List Nat
  /-- Members of type QUALITY hold VALIDITY in bits [1:0] and TEST in bit 7 (Table 8.3). The last snapshot sent. -/
  sent : Option (List Nat) := none
  /-- Its instance has left ACTIVE with it: it resumes with the next stNum (R103). -/
  paused : Bool := false
  stNum : Nat := 0
  sqNum : Nat := 0
  /-- Each has wrapped (R483). -/
  stWrapped : Bool := false
  sqWrapped : Bool := false
  /-- The P tick of t_s, the retransmissions done, and the instant of the next in ns (R484). -/
  ts : Nat := 0
  sends : Nat := 0
  nextAt : Option Rat := none
  twinOff : Bool := false
  twinSeq : Nat := 0
  /-- The last (stNum, CRC) the twin mirrored since the pair entered PAIRED (R490, R656). -/
  mirrored : Option (Nat × Nat) := none
  /-- The CRC of an adopted dataset, which counts as the last one sent (R654). -/
  adopted : Option Nat := none
  stat : Tab Nat := []
  deriving DecidableEq, Repr

/-- A committed SV publication. -/
structure SvSt where
  inst : Nat
  index : Nat
  record : SvPub
  /-- Value and oldData of each member. -/
  values : List (Word × Bool)
  smpCnt : Nat := 0
  twinSeq : Nat := 0
  /-- Loops that have ended their job for the tick, and the tick. -/
  ended : List Nat := []
  tick : Nat := 0
  stat : Tab Nat := []
  deriving DecidableEq, Repr

/-- The Tributary configuration of TRIB_SET. -/
structure TribCfg where
  twinId : Nat
  pairId : Nat
  portA : Nat
  portB : Option Nat
  key : Nat
  da : Nat
  timeout : Nat := 12
  vid : Nat := 0
  pcp : Nat := 0
  deriving DecidableEq, Repr

/-- A partner copy of a piece of a MIRROR variable (R496): which, its bytes, and the TAI second of the frame that brought it. -/
structure PartnerVar where
  inst : Nat
  task : Nat
  ident : Nat
  offset : Nat
  bytes : List Nat
  second : Nat
  deriving DecidableEq, Repr

/-- What a partner copy is of. -/
def PartnerVar.key (p : PartnerVar) : Nat × Nat × Nat × Nat := (p.inst, p.task, p.ident, p.offset)

/-- Tributary. -/
structure Trib where
  cfg : Option TribCfg := none
  /-- What TRIB_SET has set and the P tick from which it holds (Table 14.9). -/
  next : Option (TribCfg × Nat) := none
  paired : Bool := false
  tseq : Nat := 0
  /-- The P tick of the last frame sent. -/
  sentTick : Option Nat := none
  /-- The P tick at which the last accepted frame came, the last 64 TSEQs taken, and when the state last changed. -/
  rxTick : Option Nat := none
  rxSeqs : List Nat := []
  since : Instant := 0
  /-- Items that have changed and wait to be sent, oldest first, and the place of the rotation. -/
  queue : List MirrorKey := []
  rotation : Nat := 0
  /-- TRIB_RX, TRIB_AUTH and TRIB_LATE_RECORDS; the instants of the failures of the last second, and that of the last EV_TRIB_AUTH. -/
  stat : Tab Nat := []
  authFails : List Instant := []
  authAt : Option Instant := none
  /-- The join (R654): its first P tick; it began within 10 s of PROTECTION (R655); the twin may speak for twin publications. -/
  join : Option Nat := none
  young : Bool := false
  joinedOnce : Bool := false
  /-- Blocks adopted in this join. -/
  adopted : Nat := 0
  /-- Instant at which PROTECTION rose. -/
  protectedAt : Instant := 0
  /-- The P tick from which the pair has stood, where it began within 10 s of the start: every MIRROR variable that crosses in the 4,800
  ticks from it may be restored (R496). -/
  restoreFrom : Option Nat := none
  /-- Partner copies, and those restored since the start: instance, task, VAR_ID, offset. -/
  partner : List PartnerVar := []
  restored : List (Nat × Nat × Nat × Nat) := []
  /-- Increments counted (R550): counter and k0. -/
  counted : List (Nat × Nat) := []
  deriving DecidableEq, Repr

/-- A safety output. -/
structure So where
  drive : Bool := false
  safe : Bool := false
  /-- It is paired with the other output of 2k, 2k + 1. -/
  paired : Bool := false
  fault : Bool := false
  cause : Nat := 0
  sofb : Bool := false
  /-- The ball is driven: the safety I/O has taken its configuration and its island works (R509, R510). -/
  enabled : Bool := false
  /-- An off-pulse runs: its start in ticks of local time. -/
  pulse : Option Nat := none
  /-- The instance whose claim holds. -/
  owner : Option Nat := none
  stat : Tab Nat := []
  deriving DecidableEq, Repr

/-- A binary input. -/
structure Bi where
  level : Bool := false
  /-- DEBOUNCE in units of 0.1 ms. -/
  debounce : Nat := 10
  /-- Local time in ticks since which the filtered level holds. -/
  since : Nat := 0
  changes : Nat := 0
  /-- The last 64 changes, newest first: instant and level (what a recorder's row reads, R519). -/
  log : List (Instant × Bool) := []
  deriving DecidableEq, Repr

/-- A lockout latch. -/
structure Latch where
  set : Bool := false
  /-- Changes, modulo 65,536 (Table 14.5). -/
  changes : Nat := 0
  resetBi : Nat := 0xFF
  /-- A TRC of the instance that claims it has set it: LATCHED follows it from then on (R406). -/
  followed : Bool := false
  /-- Local time at which it was set; the start of the high that runs, where a low of 50 ms came before it (R502). -/
  setAt : Nat := 0
  highSince : Option Nat := none
  deriving DecidableEq, Repr

/-- The trip paths. -/
structure Trip where
  /-- Publications by device number; staged records by 512 × instance + index. -/
  gooses : Tab GooseSt := []
  svs : Tab SvSt := []
  gooseStaged : Tab (Option GoosePub) := []
  svStaged : Tab (Option SvPub) := []
  trib : Trib := {}
  sos : List So := List.replicate 32 {}
  bis : List Bi := List.replicate 32 {}
  latches : List Latch := List.replicate 32 {}
  /-- OFFPULSE in µs. -/
  offPulse : Nat := 150
  /-- BALL_MUX, as HKP_BALLMUX[3:0] reads it (R670, R683). -/
  ballMux : Nat := 0
  /-- Sessions: function and local time in ticks at which each opened. -/
  sessions : Tab Nat := []
  fails : Nat := 0
  /-- Local time in ticks until which unlocks are refused. -/
  lockout : Option Nat := none
  deriving DecidableEq, Repr

end Sys2Proof.Machine
end

