-- ==== Sys2Proof/State/Run.lean ====
section
/-! DEFINITION. Everything that runs, gathered: the host interface, the instances and the engines. -/

namespace Sys2Proof.Machine

/-- The W1C bits of the register map (R8): EVENT_LOSS of a function, the cause bit of a source, STEPPED, and OVF of a queue. -/
inductive W1c where
  | eventLoss (fn : Nat)
  | cause (source : Nat)
  | stepped
  | ovf (island : Nat)
  deriving DecidableEq, Repr

/-- Everything that runs: the host interface, the instances and the engines, chapter by chapter. -/
structure Run where
  /-- The model's own field: how many free values have been used (assumption 1). -/
  free : Nat := 0
  /-- The model's own field: what the block has put out, newest first (assumption 2). -/
  out : List Out := []
  /-- Local time: 250 MHz ticks since power-up (assumption 3). -/
  ticks : Nat := 0
  /-- MBX_EPOCH, MBX_STATUS.READY and MBX_STATUS.PROTECTION. -/
  epoch : Word := 0
  ready : Bool := false
  protection : Bool := false
  /-- VF Enable and NumVFs of PF0's SR-IOV capability (Table 2.1). -/
  vfEnable : Bool := false
  numVfs : Nat := 0
  /-- The function whose command ring gave the last entry: the round robin of R66 goes on behind it. -/
  lastFetched : Nat := 32
  /-- Commands accepted so far, device-wide: the order that R125 keeps. -/
  acceptances : Nat := 0
  /-- CONFIG_STORE (R80, R645). -/
  store : ConfigStore := {}
  /-- W1C bits that hardware has set in the tick `w1cTick` (R8). -/
  w1cSet : List W1c := []
  w1cTick : Nat := 0
  /-- PF0 and VF_1 to VF_32. -/
  fns : List FnState := List.replicate 33 {}
  /-- Event sources with their cause bit set, and sources not masked (MBX_ICAUSE, MBX_IMASK), ascending. -/
  cause : List Nat := []
  unmasked : List Nat := []
  /-- VI_0 to VI_31. -/
  insts : List InstState := List.replicate 32 {}
  tsu : Tsu := {}
  /-- PORT_0 to PORT_63: the mode of reset is that of the port's island (Table 4.1). -/
  ports : List Port := List.replicate 48 ({} : Port) ++ List.replicate 12 ({ mode := 2 } : Port) ++
    List.replicate 4 ({ mode := 4, fec := 2 } : Port)
  sw : Switch := {}
  ing : Ingest := {}
  cfl : Confluence := {}
  slc : Sluice := {}
  cle : Cle := {}
  mlr : Millrace := {}
  trip : Trip := {}
  dr : Recorder := {}
  cel : Cellar := {}
  lgr : Ledger := {}
  srm : Strong := {}
  fb : FieldBus := {}
  flt : Faults := {}
  deriving DecidableEq, Repr

end Sys2Proof.Machine
end

