-- ==== Sys2Proof/Machine/Ops.lean ====
section
/-! DEFINITION. The operations the meanings share: time, the Cellar stage, events, interrupts, completions. -/

namespace Sys2Proof.Machine

/-! ### Time -/

/-- The counter in whole nanoseconds of TAI (R5, R198). -/
def Run.now (r : Run) : Instant := r.tsu.counter / 2 ^ 32

/-- TAI seconds of an instant. -/
def secOf (t : Instant) : Nat := t / 1000000000

/-- Where the counter wraps: its seconds are 48 bits (R198, R12). -/
def counterWrap : Nat := 2 ^ 48 * 1000000000 * 2 ^ 32

/-- Nanoseconds of the second of an instant. -/
def nsOf (t : Instant) : Nat := t % 1000000000

/-- TQ (R212): [1:0] from the state, [2] TRACEABLE, [3] LEAP_PENDING. -/
def Tsu.tq (t : Tsu) : Nat :=
  (match t.phase with
   | .freerun => 2
   | .acquiring => if t.lockedOnce then 1 else 2
   | .locked | .holdPending => 0
   | .holdover => 1) +
  (if t.traceable then 4 else 0) + (if t.regs.leapPending then 8 else 0)

/-- The TQ in force from instant `t` on is noted, where it differs from the last noted (R213). -/
def Tsu.noteTq (u : Tsu) (t : Instant) : Tsu :=
  match u.tqLog with
  | (_, q) :: _ => if q = u.tq then u else { u with tqLog := ((t, u.tq) :: u.tqLog).take 64 }
  | [] => { u with tqLog := [(t, u.tq)] }

/-- The TQ in force at an instant (R213): from now on the present one.
DEDUCED, assumption 91: unsafe. -/
def Tsu.tqAt (u : Tsu) (t : Instant) : Nat :=
  if u.counter / 2 ^ 32 ≤ t then u.tq
  else match u.tqLog.find? (fun e => decide (e.1 ≤ t)) with
  | some (_, q) => q
  | none => u.tq

/-- `dt` ticks of the 250 MHz clock pass: the counter adds INC at each (R198).
DESIGN CHOICE, assumption 3: unsafe. -/
def Run.pass (r : Run) (dt : Nat) : Run :=
  let u := r.tsu.noteTq r.now
  { r with ticks := r.ticks + dt, tsu := { u with counter := (u.counter + dt * u.inc) % counterWrap } }

/-- Milliseconds in ticks.
DESIGN CHOICE, assumption 3: unsafe. -/
def msTicks (n : Nat) : Nat := n * 250000

/-- Microseconds in ticks.
DESIGN CHOICE, assumption 3: unsafe. -/
def usTicks (n : Nat) : Nat := n * 250

/-- Hardware sets a W1C bit in this tick (R8). -/
def Run.setW1c (r : Run) (b : W1c) : Run :=
  { r with w1cSet := if r.w1cTick = r.ticks then (if r.w1cSet.contains b then r.w1cSet else b :: r.w1cSet) else [b],
           w1cTick := r.ticks }

/-- Hardware has set a W1C bit in this very tick: a write of 1 does not clear it (R8). -/
def Run.heldW1c (r : Run) (b : W1c) : Bool := decide (r.w1cTick = r.ticks) && r.w1cSet.contains b

/-! ### Free values -/

/-- The next free value of `w` bits and the run that has used it (assumption 1, DESIGN CHOICE). -/
def Run.takeFree (r : Run) (w : Nat) : BitVec w × Run :=
  (Config.freeValue w r.free, { r with free := r.free + 1 })

/-! ### Output -/

/-- The block puts `o` out.
DESIGN CHOICE, assumption 2: safe. -/
def Run.emit (r : Run) (o : Out) : Run := { r with out := o :: r.out }

/-! ### Functions -/

/-- The state of function `fn`; a function that does not exist reads as one at reset. -/
def Run.fn (r : Run) (fn : Nat) : FnState := r.fns.getD fn {}

/-- Function `fn` changed by `f`. -/
def Run.modFn (r : Run) (fn : Nat) (f : FnState → FnState) : Run := { r with fns := modAt r.fns fn f }

/-- Instance `n`; one that does not exist reads as FREE. -/
def Run.inst (r : Run) (n : Nat) : InstState := r.insts.getD n {}

/-- Instance `n` changed by `f`. -/
def Run.modInst (r : Run) (n : Nat) (f : InstState → InstState) : Run := { r with insts := modAt r.insts n f }

/-- The completion source of a function (Table 1.6). -/
def compSource (fn : Nat) : Nat := if fn = 0 then 896 else 928 + 3 * (fn - 1)

/-- The event-ring source of a function (R63). -/
def ringSource (fn : Nat) : Nat := compSource fn + 1

/-- The virtual NIC source of a function. -/
def vnicSource (fn : Nat) : Nat := compSource fn + 2

/-- The function a source is routed to (R39): `owner` is the instance the source belongs to, if any. -/
def Run.routeOf (r : Run) (source : Nat) (owner : Option Nat) : Nat :=
  if 928 ≤ source then (source - 928) / 3 + 1
  else match owner with
    | some n => if (r.inst n).routedVf then n + 1 else 0
    | none => 0

/-- MBX_IVEC[s] of a function: what was written, or the default. -/
def FnState.vector (f : FnState) (fn source : Nat) : Nat :=
  (tabGet f.ivec source).getD
    (if source = compSource fn then 0 else if source = ringSource fn then 1
     else if source = vnicSource fn then 2 else 3)

/-- One MSI-X message of a vector, or its pending bit while the vector is masked (R62).
PRESUMED, assumption 55: unsafe. -/
def Run.msix (r : Run) (fn vector : Nat) : Run :=
  if (r.fn fn).msixEn ∧ vector ∈ (r.fn fn).msixUnmasked then r.emit (.msix fn vector)
  else r.modFn fn (fun f => { f with msixPending := setIns f.msixPending vector })

/-- A source is raised at the function it is routed to (R62): its cause bit is set, and a message is sent when the
bit rises while the mask bit is 0. -/
def Run.raiseSource (r : Run) (fn source : Nat) : Run :=
  let r := r.setW1c (.cause source)
  if source ∈ r.cause then r
  else
    let r := { r with cause := setIns r.cause source }
    if source ∈ r.unmasked then r.msix fn ((r.fn fn).vector fn source) else r

/-- A source arrives at a function masked and with its cause bit 0 (R39). -/
def Run.maskSource (r : Run) (source : Nat) : Run :=
  { r with cause := setDel r.cause source, unmasked := setDel r.unmasked source }

/-! ### The Cellar stage -/

/-- What a record adds to what the device stamps by itself (Table 16.1). -/
structure CelItem where
  type : Nat
  time : Instant
  source : Nat := 0xFFFF
  inst : Nat := noInst
  severity : Nat := 0
  data : List Int := []
  deriving DecidableEq, Repr

/-- A store has lost the function of a bank (R616): one retired for good with no spare to take its place. -/
def Faults.storeLost (x : Faults) (s : Nat) : Bool :=
  x.units.any fun e => e.1 / 2 ^ 24 == 1 && field e.1 11 8 == s && e.2.state == .retired && !e.2.replaced

/-- The Cellar stage takes no record: 4,096 wait, or its one bank is lost (R616).
DEDUCED, assumption 63: unsafe. -/
def Run.stageFull (r : Run) : Bool := decide (4096 ≤ r.cel.stage.length) || r.flt.storeLost 7

/-- A flush of the stage starts, or the one that runs is extended (R541). -/
def Cellar.flush (c : Cellar) : Cellar := { c with flushing := true, flushTo := c.nextSeq - 1 }

/-- A record is staged with the next SEQ (R540), or dropped and counted where the stage takes none (R543);
after POWER_FAIL none is kept (R542), nor after a lasting fault of the recording island (Table 19.3).
3,072 staged records start a flush (R541). -/
def Run.stage (r : Run) (x : CelItem) : Run :=
  let c := r.cel
  if c.powerFail ∨ r.flt.lasting.contains 26 then r
  else if r.stageFull then
    { r with cel := { c with lostNow := c.lostNow + 1, stageLost := (c.stageLost + 1) % 2 ^ 64 } }
  else
    let rec' : CelRec := { seq := c.nextSeq, micros := x.time / 1000, type := x.type, source := x.source,
                           inst := x.inst, epoch := r.epoch, tq := r.tsu.tqAt x.time, severity := x.severity,
                           logEpoch := c.logEpoch, data := x.data }
    let c := { c with stage := c.stage ++ [rec'], nextSeq := c.nextSeq + 1 }
    { r with cel := if 3072 ≤ c.stage.length then c.flush else c }

/-! ### Events -/

/-- An event to raise: its source, the instance that owns the source, and its DATA. -/
structure Raise where
  ev : Ev
  source : Nat
  owner : Option Nat := none
  inst : Nat := owner.getD noInst
  data : List Int := []
  severity : Nat := ev.severity
  deriving DecidableEq, Repr

/-- A loss marker waits. -/
def hasLoss (post : List Post) : Bool :=
  post.any fun (p : Post) => match p with | .loss .. => true | _ => false

/-- An entry is the unposted event of an ESEQ. -/
def Post.isEvent (q : Word) : Post → Bool
  | .event e false => e.eseq == q
  | _ => false

/-- An unposted event that leaves the window is lost: the one loss marker that waits names it too, and where none waits it takes
the event's place (R71). -/
def losePost (post : List Post) (q epoch : Word) : List Post :=
  if hasLoss post then
    (post.filter fun p => !p.isEvent q).map fun p => match p with | .loss a _ _ => .loss a q epoch | p => p
  else post.map fun p => if p.isEvent q then .loss q q epoch else p

/-- Whether an event waits unposted. -/
def unposted (post : List Post) (q : Word) : Bool :=
  post.any (·.isEvent q)

/-- The next ESEQ of a function and its window with the event in it (R69, R71); true when an unposted event left
the window. -/
def FnState.pushEvent (f : FnState) (e : Event) : FnState × Bool :=
  let e := { e with eseq := f.eseqRaised + 1 }
  let f := { f with eseqRaised := e.eseq, post := f.post ++ [Post.event e false], events := f.events ++ [e] }
  match f.events with
  | old :: rest =>
    if f.events.length ≤ 4096 then (f, false)
    else if unposted f.post old.eseq then
      ({ f with events := rest, post := losePost f.post old.eseq e.epoch, eventLoss := true }, true)
    else ({ f with events := rest }, false)
  | [] => (f, false)

/-- The event enters the window of function `fn`; a loss raises the function's event-ring source (R71). -/
def Run.postEvent (r : Run) (fn : Nat) (x : Raise) : Run :=
  let e : Event := { ev := x.ev, severity := x.severity, eseq := 0, source := x.source, inst := x.inst,
                     epoch := r.epoch, time := r.now, data := x.data }
  let (f, lost) := (r.fn fn).pushEvent e
  let r := r.modFn fn (fun _ => f)
  if lost then (r.setW1c (.eventLoss fn)).raiseSource fn (ringSource fn) else r

/-- The copy of an event in the Cellar (R540), and the flush that an event of SEVERITY 3 starts (R541). -/
def Run.copyEvent (r : Run) (x : Raise) : Run :=
  if r.cel.minSeverity ≤ x.severity then
    let r := r.stage { type := 0x0010, time := r.now, source := x.source, inst := x.inst, severity := x.severity,
                       data := (x.ev.code : Int) :: x.data }
    if x.severity = 3 then { r with cel := r.cel.flush } else r
  else r

/-- An event is raised: it enters the window of the function its source is routed to, raises the source, and is
copied into the Cellar (R63, R69, R540). -/
def Run.raise (r : Run) (x : Raise) : Run :=
  let fn := r.routeOf x.source x.owner
  ((r.postEvent fn x).raiseSource fn x.source).copyEvent x

/-- EV_INST_STATE and EV_INST_SHED (R106, R123): posted to PF0, and to VF_n+1 while its EVT_ENABLE is 1. -/
def Run.raiseInst (r : Run) (n : Nat) (x : Raise) : Run :=
  let r := r.postEvent 0 x
  let r := if (r.fn (n + 1)).evtEn then r.postEvent (n + 1) x else r
  (r.raiseSource (r.routeOf x.source x.owner) x.source).copyEvent x

/-! ### Device writes and the dirty log -/

/-- The 4 KiB pages a write of `len` bytes at `addr` touches. -/
def pagesOf (addr len : Nat) : List Nat :=
  if len = 0 then [] else (List.range ((addr + len - 1) / 4096 - addr / 4096 + 1)).map (· + addr / 4096)

/-- The log with a page in its active bitmap, or counted when it lies outside the range (R95). -/
def DirtyLog.mark (d : DirtyLog) (page : Nat) : DirtyLog :=
  if d.base / 4096 ≤ page ∧ page < (d.base + d.length) / 4096 then
    let bit := page - d.base / 4096
    if d.activeB then { d with bitsB := setIns d.bitsB bit } else { d with bitsA := setIns d.bitsA bit }
  else { d with outside := (d.outside + 1) % 2 ^ 32 }

/-- A memory write of the device under the requester ID of `fn` (R95). -/
def Run.dma (r : Run) (fn addr len : Nat) : Run :=
  match (r.fn fn).dirty with
  | none => r
  | some d =>
    let d' := (pagesOf addr len).foldl DirtyLog.mark d
    let r := r.modFn fn (fun f => { f with dirty := some d' })
    if d'.outside = d.outside then r
    else r.raise { ev := .dirtyOverflow, source := 900, data := [fn, d'.outside] }

/-! ### Commands: acceptance, start and completion -/

/-- A reply to a command: its status, the fields of RESULT, those of the host buffer, and the number of bytes these take there; the
layouts of both are in Machine/Layout.lean. -/
structure Reply where
  status : Status := .ok
  result : List Int := []
  buffer : List Int := []
  bufLen : Nat := 0
  deriving DecidableEq, Repr

/-- What executing a command answers: its completion, or that the completion comes in a later step. -/
inductive Answer where
  | done (reply : Reply)
  | wait
  deriving DecidableEq, Repr

/-- A reply with a status and nothing else. -/
def Answer.status (s : Status) : Answer := .done { status := s }

/-- A reply with ST_OK and nothing else. -/
def Answer.ok : Answer := .done {}

/-- MBX_SEQ[1] (R68): the largest CSEQ up to which every command has completed. -/
def FnState.cseqCompleted (f : FnState) : Word :=
  match f.accepted with
  | [] => f.cseqAccepted
  | a :: _ => a.entry.cseq - 1

/-- MBX_OUTSTANDING (R66): accepted commands whose completions have not been posted. -/
def FnState.outstanding (f : FnState) : Nat :=
  f.accepted.length +
    (f.post.filter (fun (p : Post) => match p with | .completion _ false => true | _ => false)).length

/-- The accepted command of a CSEQ. -/
def FnState.find (f : FnState) (cseq : Word) : Option Accepted := f.accepted.find? (fun a => a.entry.cseq == cseq)

/-- The completion of an accepted command is generated: the command leaves the accepted ones and enters the
window of the last 256 CSEQs, and its completion waits for the event ring (R66, R68, R84). While the function is frozen its
result bytes wait with it (R99). -/
def Run.complete (r : Run) (fn : Nat) (cseq : Word) (rep : Reply) : Run :=
  match (r.fn fn).find cseq with
  | none => r
  | some a =>
    let c : Completion :=
      { status := rep.status, cseq := cseq, opcode := a.entry.opcode, epoch := r.epoch, resultLen := rep.bufLen,
        result := rep.result, buffer := rep.buffer, quiet := a.entry.quiet }
    let frozen := (r.fn fn).frozen
    let c := if rep.bufLen ≠ 0 ∧ frozen then { c with unwritten := some a.entry.bufAddr } else c
    let r := if rep.bufLen = 0 ∨ frozen then r
      else (r.emit (.hostBuffer fn a.entry.bufAddr c)).dma fn a.entry.bufAddr rep.bufLen
    r.modFn fn (fun f =>
      { f with accepted := f.accepted.filter (fun x => x.entry.cseq != cseq),
               completed := (f.completed ++ [c]).filter (fun x => decide ((f.cseqAccepted - x.cseq).toNat < 256)),
               post := f.post ++ [Post.completion c false] })

/-- The opcodes that some chapter defines (R75). -/
def knownOpcode (op : Nat) : Bool :=
  [(0x0100, 0x010C), (0x0140, 0x0144), (0x0200, 0x0209), (0x0300, 0x030A), (0x0400, 0x0402), (0x0500, 0x0505),
   (0x0600, 0x0607), (0x0700, 0x0709), (0x0800, 0x0807), (0x0900, 0x0907), (0x0A00, 0x0A0B), (0x0B00, 0x0B08),
   (0x0C00, 0x0C06), (0x0D00, 0x0D12), (0x0E00, 0x0E05), (0x0F00, 0x0F02)].any (fun p => p.1 ≤ op && op ≤ p.2)

/-- The first accepted command of a function that has not started. -/
def FnState.nextStart (f : FnState) : Option Accepted := f.accepted.find? (fun a => !a.started)

/-- The command that may start next (R67): the first accepted and not started one, which with FENCE must also be
the oldest uncompleted one. -/
def FnState.startable (f : FnState) (cseq : Word) : Option Accepted :=
  match f.nextStart with
  | none => none
  | some a =>
    if a.entry.cseq = cseq ∧ (a.entry.fence → f.accepted.head? = some a) then some a else none

/-- A command with an opcode no chapter defines completes with ST_OPCODE as soon as it may start (R75). -/
def Run.sweep : Nat → Run → Nat → Run
  | 0, r, _ => r
  | n + 1, r, fn =>
    match (r.fn fn).nextStart with
    | none => r
    | some a =>
      if knownOpcode a.entry.opcode then r
      else if ((r.fn fn).startable a.entry.cseq).isNone then r
      else Run.sweep n (r.complete fn a.entry.cseq { status := .opcode }) fn

/-- A completion, and what it lets complete after it. -/
def Run.finish (r : Run) (fn : Nat) (cseq : Word) (rep : Reply) : Run :=
  (r.complete fn cseq rep).sweep 256 fn

/-- A command has started and its completion comes later. -/
def Run.started (r : Run) (fn : Nat) (cseq : Word) : Run :=
  r.modFn fn (fun f =>
    { f with accepted := f.accepted.map (fun a => if a.entry.cseq = cseq then { a with started := true } else a) })

/-- Every accepted command that satisfies `p` completes with ST_DISCARDED (R72). -/
def Run.discard (r : Run) (p : Nat → Accepted → Bool) : Run :=
  (List.range 33).foldl (fun r fn =>
    ((r.fn fn).accepted.filter (p fn)).foldl (fun r a => r.finish fn a.entry.cseq { status := .discarded }) r) r

end Sys2Proof.Machine
end

