-- ==== Sys2Proof/Machine/LedgerOps.lean ====
section
/-! DEFINITION. The lifetime ledger: additions, entries and copies (R548 to R555). -/

namespace Sys2Proof.Machine

/-- The ledger changed by `f`. -/
def Run.modLgr (r : Run) (f : Ledger → Ledger) : Run := { r with lgr := f r.lgr }

/-- Counter `c` of the ledger. -/
def Ledger.value (l : Ledger) (c : Nat) : Nat := tabGetD l.counters c 0

/-- An addition to a counter (R548): it holds at 2⁶⁴ − 1, and EV_LGR_SATURATED is raised once. -/
def Run.ledgerAdd (r : Run) (c n : Nat) : Run :=
  if n = 0 then r
  else
    let sum := r.lgr.value c + n
    let past := decide (2 ^ 64 ≤ sum)
    let first := past && !r.lgr.saturated.contains c
    let r := r.modLgr fun l => { l with
      counters := tabSet l.counters c (min sum (2 ^ 64 - 1)),
      pending := setIns l.pending c,
      saturated := if past then setIns l.saturated c else l.saturated }
    if first then r.raise { ev := .lgrSaturated, source := 810, data := [c] } else r

/-- Device counters of Table 16.4. -/
inductive Lgr where
  | operatingHours | daysInService | powerUps | warmStarts | coldStarts | flaErases | flbErases | cellarRecords
  | tempBin (b : Nat) | soOps (n : Nat) | svLoss (g : Nat) | gooseLoss (g : Nat)
  deriving DecidableEq, Repr

/-- The number of a device counter (Table 16.4). -/
def Lgr.index : Lgr → Nat
  | .operatingHours => 0 | .daysInService => 1 | .powerUps => 2 | .warmStarts => 3 | .coldStarts => 4
  | .flaErases => 5 | .flbErases => 6 | .cellarRecords => 7
  | .tempBin b => 8 + b | .soOps n => 24 + n | .svLoss g => 56 + g | .gooseLoss g => 120 + g

/-- A device counter plus `n`.
DESIGN CHOICE, assumption 56: unsafe. -/
def Run.count (r : Run) (c : Lgr) (n : Nat := 1) : Run := r.ledgerAdd c.index n

/-- A region that the device writes without a stated layout has had blocks erased for it: how many, of `most`, is free. Where the
counter so reaches its end, the next addition raises EV_LGR_SATURATED.
DESIGN CHOICE, assumption 56: unsafe. -/
def Run.erasedIn (r : Run) (most : Nat) : Run :=
  let (v, r) := r.takeFree 16
  r.modLgr fun l => { l with
    counters := tabSet l.counters 6 (min (l.value 6 + v.toNat % (most + 1)) (2 ^ 64 - 1)), pending := setIns l.pending 6 }

/-- DEV_STATE is written (Table 20.7).
DESIGN CHOICE, assumption 56: unsafe. -/
def Run.devState (r : Run) : Run := r.erasedIn Flb.devState.blocks

/-- A bank of CONFIG_STORE is written (R645).
DESIGN CHOICE, assumption 56: unsafe. -/
def Run.configStore (r : Run) : Run := r.erasedIn (Flb.configStore.blocks / 2)

/-- The bin of a junction temperature in 1/16 °C (Table 16.4).
DEDUCED, assumption 92: unsafe. -/
def tempBin (t : Int) : Nat :=
  if t < -480 then 0 else if 1760 ≤ t then 15 else (((t + 640) / 160).toNat)

/-- The counters whose entries are due (R554): assignable ones at once, device counters once per TAI minute. -/
def Run.entriesDue (r : Run) : List Nat :=
  r.lgr.pending.filter fun c => decide (256 ≤ c) || tabGet r.lgr.writtenMinute c != some (secOf r.now / 60)

/-! ### Segments (R552, R553) -/

/-- Bytes 0 to 11 of an entry. -/
def LgrEntry.octets (e : LgrEntry) : List Nat := (octetsOf 2 e.counter).reverse ++ [0, 0] ++ (octetsOf 8 e.value).reverse

/-- The entry of a counter, with its CRC-32. -/
def lgrEntry (counter value : Nat) : LgrEntry :=
  let e : LgrEntry := { counter := counter, value := value, crc := 0 }
  { e with crc := crc32 e.octets }

/-- The CRC of an entry matches. -/
def LgrEntry.good (e : LgrEntry) : Bool := e.crc == crc32 e.octets

/-- What the TAG of a segment covers: bytes 0 to 47 of the header, and the snapshot. -/
def Segment.covered (x : Segment) (copyB : Bool) : List Nat :=
  [0x5247444C, if copyB then 1 else 0, x.segSeq, x.firstService, x.lastDay] ++ x.snapshot.flatMap fun e => [e.1, e.2]

/-- TAG under the ledger key of slot 2 (R552). -/
def Run.segmentTag (r : Run) (copyB : Bool) (x : Segment) : Option Nat :=
  (tabGet r.srm.slots 2).map fun k => Config.hmac k.material (x.covered copyB) / 2 ^ 128

/-- The TAG of a segment matches. -/
def Run.segmentGood (r : Run) (copyB : Bool) (x : Segment) : Bool := x.tag.isSome && x.tag == r.segmentTag copyB x

/-- A new segment: its header, with a snapshot of these counters.
DESIGN CHOICE, assumption 79: unsafe. -/
def Run.newSegment (r : Run) (copyB : Bool) (segSeq : Nat) (snapshot : Tab Nat) : Segment :=
  let x : Segment := { segSeq := segSeq, firstService := r.lgr.firstService, lastDay := r.lgr.lastDay.getD 0, tag := none, snapshot := snapshot }
  { x with tag := r.segmentTag copyB x }

/-- A segment follows in a copy; the oldest of 128 is erased for the next. -/
def addSegment (l : List Segment) (x : Segment) : List Segment := l.drop (l.length - 126) ++ [x]

/-- An entry goes to a copy: to its last segment, or where that holds its 2,044 entries, or there is none, to a new one with a fresh
snapshot. The second part counts the segment begun, for which one block is erased. -/
def Run.writeEntry (r : Run) (copyB : Bool) (l : List Segment) (counter : Nat) : List Segment × Nat :=
  let e := lgrEntry counter (r.lgr.value counter)
  match l.getLast? with
  | some x =>
    if x.entries.length < 2044 then (l.dropLast ++ [{ x with entries := x.entries ++ [e] }], 0)
    else (addSegment l { r.newSegment copyB (x.segSeq + 1) r.lgr.counters with entries := [e] }, 1)
  | none => ([{ r.newSegment copyB 1 r.lgr.counters with entries := [e] }], 1)

/-- The entries of some counters go to a copy. -/
def Run.writeCopy (r : Run) (copyB : Bool) (l : List Segment) (cs : List Nat) : List Segment × Nat :=
  cs.foldl (fun (acc : List Segment × Nat) c => let x := r.writeEntry copyB acc.1 c; (x.1, acc.2 + x.2)) (l, 0)

/-- Entries for `cs` are written to copy A and, unless power fails between the two, to copy B (R553, R554). -/
def Run.writeEntries (r : Run) (cs : List Nat) (copyB : Bool) : Run :=
  let a := r.writeCopy false r.lgr.copyA cs
  let b := r.writeCopy true r.lgr.copyB cs
  let minute := secOf r.now / 60
  let r := r.modLgr fun l => { l with copyA := a.1, copyAOk := true }
  if !copyB then r
  else
    let r := r.modLgr fun l => { l with
      copyB := b.1, copyBOk := true,
      pending := l.pending.filter (fun c => !cs.contains c),
      writtenMinute := cs.foldl (fun (t : Tab Nat) (c : Nat) => tabSet t c minute) l.writtenMinute }
    r.count .flbErases (a.2 + b.2)

/-- The larger value of each counter in two tables. -/
def maxTab (a b : Tab Nat) : Tab Nat :=
  b.foldl (fun (t : Tab Nat) (e : Nat × Nat) => if tabGetD t e.1 0 < e.2 then tabSet t e.1 e.2 else t) a

/-- The largest value of each counter in a segment: its snapshot, and the entries whose CRC matches. -/
def Segment.values (x : Segment) : Tab Nat := maxTab x.snapshot ((x.entries.filter (·.good)).map fun e => (e.counter, e.value))

/-- The segment with the highest SEG_SEQ whose TAG matches (R553); `bad`: that of the newest reads altered. -/
def Run.bestSegment (r : Run) (copyB : Bool) (l : List Segment) (bad : Bool) : Option Segment :=
  (if bad then l.dropLast else l).reverse.find? (r.segmentGood copyB)

/-- A copy is rebuilt (R553): it has failed, or its best segment is older than the other's, in SEG_SEQ or in what it holds. A copy never
written to is not.
DEDUCED, assumption 42: unsafe. -/
def stale (l : List Segment) (best other : Option Segment) (bad : Bool) (all : Tab Nat) : Bool :=
  match best with
  | none => !l.isEmpty || other.isSome
  | some x => bad || x.values != all || other.any fun y => decide (x.segSeq < y.segSeq)

/-- The ledger at a start (R553): the largest value of each counter across the best segments of both copies; what the device still holds
is not lost where core power was not removed. A copy that fails or is older is rebuilt, as a segment with a fresh snapshot, with
EV_LGR_COPY.
DEDUCED, assumption 42: unsafe. -/
def Run.loadLedger (r : Run) (badA badB : Bool) : Run :=
  let a := r.bestSegment false r.lgr.copyA badA
  let b := r.bestSegment true r.lgr.copyB badB
  let values (x : Option Segment) : Tab Nat := match x with | some y => y.values | none => []
  let seq (x : Option Segment) : Nat := match x with | some y => y.segSeq | none => 0
  let all := maxTab (values a) (values b)
  let oldA := stale r.lgr.copyA a b badA all
  let oldB := stale r.lgr.copyB b a badB all
  let r := r.modLgr fun l => { l with counters := maxTab all l.counters }
  let rebuilt (copyB : Bool) (l : List Segment) (own other : Option Segment) : List Segment :=
    addSegment (if own.isNone then [] else l) (r.newSegment copyB (max (seq own + 1) (seq other)) all)
  let r := r.modLgr fun l => { l with
    copyA := if oldA then rebuilt false l.copyA a b else l.copyA, copyB := if oldB then rebuilt true l.copyB b a else l.copyB,
    copyAOk := true, copyBOk := true }
  let r := if oldA then (r.count .flbErases).raise { ev := .lgrCopy, source := 808, data := [0] } else r
  if oldB then (r.count .flbErases).raise { ev := .lgrCopy, source := 808, data := [1] } else r

/-- Core power is removed: what was not written is lost (R553).
DEDUCED, assumption 42: unsafe. -/
def Run.loseLedger (r : Run) : Run := r.modLgr fun l => { l with counters := [], pending := [] }

/-- The power-ups not yet counted are (Table 16.4). -/
def Run.countUps (r : Run) : Run :=
  let n := r.lgr.ups
  (r.modLgr fun l => { l with ups := 0 }).count .powerUps n

/-- Core power rises: its hours and minutes begin, and the power-up is counted once the ledger has been read. -/
def Run.powerUp (r : Run) : Run :=
  let at' := r.ticks
  r.modLgr fun l => { l with hours := 0, powerAt := at', minuteAt := at', ups := l.ups + 1 }

/-- The TAI day of an instant.
DESIGN CHOICE, assumption 79: unsafe. -/
def dayOf (t : Instant) : Nat := secOf t / 86400

/-- DAYS_IN_SERVICE (R549): the current day counts once, while TQ[1:0] is not 0b10.
DESIGN CHOICE, assumption 79: unsafe. -/
def Run.serviceDay (r : Run) : Run :=
  let day := dayOf r.now
  if r.tsu.tq % 4 = 2 ∨ r.lgr.lastDay.any (fun d => decide (day ≤ d)) then r
  else
    (r.modLgr fun l => { l with
      lastDay := some day, firstService := if l.lastDay.isNone then day * 86400 else l.firstService }).count .daysInService

/-- The daily estimate of the remaining life (R555), in days: once in a TAI day; EV_LGR_WEAR when it falls below 40 years less the days in
service.
DESIGN CHOICE, assumption 79: unsafe. -/
def Run.wearCheck (r : Run) : Run :=
  let day := dayOf r.now
  if r.lgr.wearDay = some day then r
  else
    let days := r.lgr.value 1
    let left := Config.lifeLeft (r.lgr.value 6) flbRating days
    let low := decide (left + days < 14610)
    let was := r.lgr.wearLow
    let r := r.modLgr fun l => { l with wearDay := some day, wearLow := low }
    if low && !was then r.raise { ev := .lgrWear, source := 809, data := [(left : Int)] } else r

end Sys2Proof.Machine
end

