-- ==== Sys2Proof/Machine/StrongOps.lean ====
section
/-! DEFINITION. The Strongroom: life cycle, slots, blobs, the store and the use of keys (R561 to R588). -/

namespace Sys2Proof.Machine

/-- The Strongroom changed by `f`. -/
def Run.modSrm (r : Run) (f : Strong → Strong) : Run := { r with srm := f r.srm }

/-- SRM_STAT[k] plus 1. -/
def Run.srmCount (r : Run) (k : Nat) (n : Nat := 1) : Run := r.modSrm fun s => { s with stat := tabAdd s.stat k n }

/-! ### Life cycle (R561 to R563) -/

/-- The life-cycle states (Table 17.1). -/
inductive Lc where
  | blank | provisioned | secured | returned | scrapped
  deriving DecidableEq, Repr

/-- The code of a life-cycle state. -/
def Lc.code : Lc → Nat
  | .blank => 0 | .provisioned => 1 | .secured => 2 | .returned => 3 | .scrapped => 4

/-- The life-cycle state of a code. -/
def Lc.ofCode : Nat → Lc
  | 0 => .blank | 1 => .provisioned | 2 => .secured | 3 => .returned | _ => .scrapped

/-- LC_FUSE: a bit reads as blown when at least two of its three fuses are.
DESIGN CHOICE, assumption 80: unsafe. -/
def Strong.lcFuse (s : Strong) : List Bool := s.fuses.map fun n => decide (2 ≤ n)

/-- The state LC_FUSE selects (Table 17.1). -/
def Strong.lc (s : Strong) : Lc :=
  match s.lcFuse with
  | [false, false, false, false] => .blank
  | [true, false, false, false] => .provisioned
  | [true, true, false, false] => .secured
  | [true, true, true, false] => .returned
  | _ => .scrapped

/-- JTAG is open (R588): outside SECURED, and in it once debug has been unlocked. -/
def Strong.jtagOpen (s : Strong) : Bool := s.lc != .secured || s.debug

/-- Protection may run (Table 17.1), and debug has not been unlocked since the start (R588). -/
def Strong.mayRun (s : Strong) : Bool := (s.lc == .provisioned || s.lc == .secured) && !s.debug

/-- The ASCII of a label, as the number its bytes spell. -/
def label (s : List Nat) : Nat := s.foldl (fun n b => n * 256 + b) 0

/-- ROOT of a blob made in a state (Table 17.7), and the root it names (R561). -/
def Strong.root (s : Strong) : Option (Nat × Nat) :=
  match s.lc with
  | .blank => some (0, Config.hmac Config.uds [label [0x54, 0x45, 0x53, 0x54]])
  | .provisioned => some (1, Config.hmac Config.uds [label [0x46, 0x41, 0x43, 0x54]])
  | .secured => some (2, Config.hmac Config.uds [label [0x4F, 0x57, 0x4E, 0x52], s.ownerHash])
  | .returned => some (3, Config.hmac Config.uds [label [0x52, 0x45, 0x54, 0x4E]])
  | .scrapped => none

/-- The root the identity key is wrapped under (R561): in every state but BLANK.
DESIGN CHOICE, assumption 80: unsafe. -/
def Strong.idenRoot (s : Strong) : Option (Nat × Nat) :=
  if s.lc = .blank then none else some (Config.idenRootCode, Config.hmac Config.uds [label [0x49, 0x44, 0x45, 0x4E]])

/-- The root the key of a slot is wrapped under. -/
def Strong.rootOf (s : Strong) (slot : Nat) : Option (Nat × Nat) := if slot = 0 then s.idenRoot else s.root

/-- The KEK of a root (R574). -/
def kekOf (root : Nat) : Nat := Config.hmac root [label [0x42, 0x4C, 0x4F, 0x42]]

/-! ### Keys (R568 to R572) -/

/-- The bytes of a type's material (Table 17.6); 0 for a type the table does not list. -/
def materialBytes : Nat → Nat
  | 1 => 16 | 2 => 32 | 3 => 32 | 4 => 32 | 5 => 48 | 6 => 65 | 7 => 97 | 8 => 52 | _ => 0

/-- A public type. -/
def isPublic (type : Nat) : Bool := type == 6 || type == 7

/-- INSTANCE of an attribute word, where DEVICE is 0. -/
def attrInst (attr : Nat) : Option Nat := if attr.testBit 13 then none else some (field attr 12 8)

/-- A function may load, replace, unload or attest a key of these attributes (R571). -/
def mayManage (fn attr : Nat) : Bool :=
  fn == 0 || (attr.testBit 14 && attrInst attr == some (fn - 1))

/-- The attribute word is one R571 and Table 17.5 allow for a key of this type and manager. -/
def attrOk (fn type attr : Nat) : Bool :=
  let tenant := attr.testBit 14
  let special := attr.testBit 36 || attr.testBit 37
  decide (attr < 2 ^ 39) && field attr 23 21 == 0 && !attr.testBit 15 &&
    (if tenant then !attr.testBit 13 && !attr.testBit 0 && !attr.testBit 1 && !attr.testBit 4 && !attr.testBit 7
     else !attr.testBit 6) &&
    (!special || (fn == 0 && isPublic type))

/-- The bits the device sets in an attribute word: GEN_INSIDE, CLEAR_LOADED and DEVICE_KEY. -/
def deviceBits : Nat := 2 ^ 33 + 2 ^ 34 + 2 ^ 38

/-- An attribute word with the bits that the device sets replaced. -/
def setDevice (attr bits : Nat) : Nat := (attr &&& ((2 ^ 39 - 1) ^^^ deviceBits)) ||| bits

/-- GEN_INSIDE alone. -/
def genInside : Nat := 2 ^ 33

/-- CLEAR_LOADED alone. -/
def clearLoaded : Nat := 2 ^ 34

/-- The key of a slot. -/
def Strong.key (s : Strong) (slot : Nat) : Option Key := tabGet s.slots slot

/-- Another slot of the same instance, or of the device, holds this KEY_ID (R569), or will: from the store at the next start, or by a
replacement in progress.
DEDUCED, assumption 80: unsafe. -/
def Strong.idTaken (s : Strong) (slot keyId attr : Nat) : Bool :=
  let hit (e : Nat × Key) : Bool := e.1 != slot && e.2.keyId == keyId && attrInst e.2.attr == attrInst attr
  s.slots.any hit || s.store.any hit || s.replaces.any fun x => hit (x.slot, x.new)

/-- The slots hold `t`, and the key bus has delivered a context for each receiver that a key's MASTERS names, and for no other key
(R584). A context that stays keeps its shares. -/
def Strong.withSlots (s : Strong) (t : Tab Key) : Strong :=
  let context (slot master : Nat) (k : Key) : KeyContext :=
    let held := s.contexts.find? fun c => c.slot == slot && c.master == master && Nat.xor c.s1 c.s2 == k.material
    held.getD { slot := slot, master := master, s1 := Nat.xor k.material k.mask, s2 := k.mask }
  { s with
    slots := t
    contexts := t.flatMap fun e => ([2, 3].filter fun m => e.2.attr.testBit m).map fun m => context e.1 m e.2 }

/-- The key that a receiver of the key bus holds for a slot. -/
def Strong.context (s : Strong) (master slot : Nat) : Option Nat :=
  (s.contexts.find? fun c => c.slot == slot && c.master == master).map fun c => Nat.xor c.s1 c.s2

/-- A use of a key that R570 serves: on behalf of an instance, or of the device. -/
def Strong.serves (s : Strong) (k : Key) (master usage : Nat) (inst : Option Nat) : Bool :=
  k.attr.testBit master && k.attr.testBit (24 + usage) && k.attr.testBit (16 + s.lc.code) &&
    (!(master == 2 || master == 3 || master == 6) || attrInst k.attr == inst)

/-- The master a command of a function acts as (Table 17.5): the host PF, or the VF of its instance. -/
def masterOf (fn : Nat) : Nat := if fn = 0 then 5 else 6

/-- The instance a function acts for. -/
def instOf (fn : Nat) : Option Nat := if fn = 0 then none else some (fn - 1)

/-- A command of a function may use a key (R570). -/
def Strong.commandServes (s : Strong) (k : Key) (fn usage : Nat) : Bool := s.serves k (masterOf fn) usage (instOf fn)

/-- A slot that a command may give a key: 8 to 255 (R568). -/
def slotFree (s : Strong) (slot : Nat) : Bool := decide (8 ≤ slot) && decide (slot < 256) && (s.key slot).isNone

/-! ### Blobs (R574, R575) -/

/-- WRAPPED_LEN of a type (R574). -/
def wrappedLen (type : Nat) : Nat := 8 * ((32 + materialBytes type + 7) / 8) + 8

/-- Bytes 0 to 63 of a blob. -/
def blobHeader (b : Blob) : List Nat :=
  [b.magic, b.format, b.root, b.type, b.keyId, b.gen, b.attr, b.serial, b.reserved40, b.wrappedLen, b.slot, b.reserved47, b.created,
    b.reserved54]

/-- The blob of a key (R574), where its slot has a root. -/
def Strong.blobAt (s : Strong) (serial slot created : Nat) (k : Key) : Option Blob :=
  (s.rootOf slot).map fun (code, root) =>
    let b : Blob := { magic := 0x4B425253, format := 1, root := code, type := k.type, keyId := k.keyId, gen := k.gen,
                      attr := k.attr, serial := serial, slot := slot, created := created, wrappedLen := wrappedLen k.type, wrapped := 0 }
    { b with wrapped := Config.kwpWrap (kekOf root) [Config.sha256 (blobHeader b), k.material] }

/-- The blob of a key, made now. -/
def Run.blobOf (r : Run) (serial slot : Nat) (k : Key) : Option Blob := r.srm.blobAt serial slot (secOf r.now) k

/-- SHA-256 of the store entry of a key (R577, R579). -/
def Strong.entrySha (s : Strong) (serial slot : Nat) (k : Key) : Nat :=
  match s.blobAt serial slot k.created k with
  | some b => Config.sha256 (blobHeader b ++ [b.wrapped])
  | none => 0

/-- A blob as bytes in the host buffer. -/
def blobFields (b : Blob) : List Int := (blobHeader b ++ [b.wrapped]).map Int.ofNat

/-- The reply of a command that returns a key's blob. -/
def Run.blobReply (r : Run) (serial slot : Nat) (k : Key) : Reply :=
  match r.blobOf serial slot k with
  | some b => { buffer := blobFields b, bufLen := 64 + wrappedLen k.type }
  | none => {}

/-- The key of a blob, or none where R575 refuses it. -/
def Strong.openBlob (s : Strong) (serial : Nat) (b : Blob) : Option Key :=
  match s.root with
  | none => none
  | some (code, root) =>
    if b.magic ≠ 0x4B425253 ∨ b.format ≠ 1 ∨ b.serial ≠ serial ∨ b.root ≠ code then none
    else match Config.kwpUnwrap (kekOf root) b.wrapped with
      | some [h, m] =>
        if h = Config.sha256 (blobHeader b) then
          some { type := b.type, keyId := b.keyId, gen := b.gen, attr := b.attr, material := m }
        else none
      | _ => none

/-- A refused blob: BLOB_FAIL, and EV_SRM_BLOB_FAIL at most once per second (R575). -/
def Run.blobFail (r : Run) : Run :=
  let r := (r.srmCount 2).modSrm fun s => { s with blobFails := s.blobFails + 1 }
  let due := match r.srm.blobFailAt with | none => true | some t => decide (t + 1000000000 ≤ r.now)
  if due then
    let n := r.srm.blobFails
    (r.modSrm fun s => { s with blobFails := 0, blobFailAt := some r.now }).raise
      { ev := .srmBlobFail, source := 838, data := [(n % 65536 : Nat)] }
  else r

/-! ### The store (R577, R578) -/

/-- An entry is appended; a full bank is copied to the other first, and the old bank erased (R577). -/
def Run.appendStore (r : Run) (n : Nat) : Run :=
  if r.srm.storeUsed + n ≤ 1023 then r.modSrm fun s => { s with storeUsed := s.storeUsed + n }
  else
    (r.modSrm fun s => { s with bankB := !s.bankB, bankSeq := s.bankSeq + 1, storeUsed := s.store.length + n }).count .flbErases 4

/-- The store keeps a key of PERSIST, as it is now; while power fails the Strongroom starts no such write (R580). -/
def Run.persist (r : Run) (slot : Nat) (k : Key) : Run :=
  if k.attr.testBit 35 && !r.cel.powerFail then
    let at' := secOf r.now
    (r.appendStore 1).modSrm fun s => { s with store := tabSet s.store slot { k with created := at' } }
  else r

/-- EV_SRM_KEY. -/
def Run.keyEvent (r : Run) (slot cause : Nat) (k : Key) : Run :=
  r.raise { ev := .srmKey, source := 833, data := [slot, cause, k.keyId, k.gen] }

/-- A key enters a slot. -/
def Run.loadKey (r : Run) (slot : Nat) (k : Key) : Run :=
  ((r.modSrm fun s => s.withSlots (tabSet s.slots slot k)).persist slot k).keyEvent slot 1 k

/-- A key leaves its slot, and with `purge` the store. -/
def Run.unloadKey (r : Run) (slot cause : Nat) (purge : Bool) : Run :=
  match r.srm.key slot with
  | none => r
  | some k =>
    (r.modSrm fun s => ({ s with store := if purge then tabDel s.store slot else s.store }).withSlots (tabDel s.slots slot)).keyEvent
      slot cause k

/-! ### The journal (R579, R581, Table 17.9) -/

/-- Bytes 0 to 59 of a journal entry. -/
def JournalEntry.octets (e : JournalEntry) : List Nat :=
  (octetsOf 4 e.magic).reverse ++ [e.kind, e.slot, 0, 0] ++ (octetsOf 4 e.oldGen).reverse ++ (octetsOf 4 e.newGen).reverse ++
    octetsOf 32 e.sha ++ List.replicate 12 0

/-- An entry with its CRC-32. -/
def JournalEntry.sealed (e : JournalEntry) : JournalEntry := { e with crc := crc32 e.octets }

/-- An entry that counts: one whose CRC does not match is ignored (R579). -/
def JournalEntry.good (e : JournalEntry) : Bool := e.magic == 0x4E524A53 && e.crc == crc32 e.octets

/-- An entry goes to the journal: its blocks hold 1,024 entries each and are used alternately (Table 17.8). -/
def Run.journalAdd (r : Run) (e : JournalEntry) : Run :=
  let full := decide (2048 ≤ r.srm.journal.length)
  let r := r.modSrm fun s => { s with journal := (if full then s.journal.drop 1024 else s.journal) ++ [e] }
  if full then r.count .flbErases 1 else r

/-- The entry of a kind of a replacement. -/
def Replace.entry (x : Replace) (kind : Nat) : JournalEntry :=
  ({ kind := kind, slot := x.slot, oldGen := x.oldGen, newGen := x.new.gen, sha := x.sha } : JournalEntry).sealed

/-- The last complete entry of a slot. -/
def Strong.lastEntry (s : Strong) (slot : Nat) : Option JournalEntry :=
  (s.journal.filter fun e => e.slot == slot && e.good).getLast?

/-- Table 17.9: what the journal says of a slot whose replacement was cut short. After PREPARED its new store entry is dead; after COMMIT
the new key is the slot's. -/
def Run.settleSlot (r : Run) (slot : Nat) : Run :=
  let new := tabGet r.srm.fresh slot
  let r := r.modSrm fun s => { s with fresh := tabDel s.fresh slot }
  let again (e : JournalEntry) (kind : Nat) : JournalEntry := ({ e with kind := kind } : JournalEntry).sealed
  let event (r : Run) (cause : Int) : Run := r.raise { ev := .srmJournal, source := 834, data := [(slot : Int), cause] }
  match r.srm.lastEntry slot with
  | none => r
  | some e =>
    if e.kind = 1 then event ((r.journalAdd (again e 4)).srmCount 5) 1
    else if e.kind = 2 then
      let r := match new with
        | some (k, sha) =>
          if sha = e.sha then r.modSrm fun s => ({ s with store := tabSet s.store slot k }).withSlots (tabSet s.slots slot k) else r
        | none => r
      event (r.journalAdd (again e 3)) 2
    else r

/-- A replacement has ended: counted, EV_SRM_KEY, and no longer in progress. -/
def Run.replaced (r : Run) (slot : Nat) (k : Key) : Run :=
  ((r.srmCount 4).modSrm fun s => { s with replaces := s.replaces.filter (fun x => x.slot != slot) }).keyEvent slot 2 k

/-- The step of a replacement that has been reached takes effect (R579): the journal's entries, the store entry at 3, which is live from
4 on, when the slot switches. -/
def Run.replaceTo (r : Run) (x : Replace) (step : Nat) : Run :=
  let r := if x.step < 2 ∧ 2 ≤ step then r.journalAdd (x.entry 1) else r
  let r := if x.step < 3 ∧ 3 ≤ step then (r.appendStore 1).modSrm fun s => { s with fresh := tabSet s.fresh x.slot (x.new, x.sha) } else r
  let r := if x.step < 4 ∧ 4 ≤ step then
      (r.journalAdd (x.entry 2)).modSrm fun s =>
        ({ s with store := tabSet s.store x.slot x.new, fresh := tabDel s.fresh x.slot }).withSlots (tabSet s.slots x.slot x.new)
    else r
  if x.step < 5 ∧ 5 ≤ step then (r.journalAdd (x.entry 3)).replaced x.slot x.new
  else r.modSrm fun s => { s with replaces := s.replaces.map fun y => if y.slot = x.slot then { y with step := max y.step step } else y }

/-- The replacements that `p` picks end: one that has not switched is abandoned as in Table 17.9 and completes with ST_DISCARDED, one
that has runs to completion (R581). -/
def Run.dropReplaces (r : Run) (p : Replace → Bool) : Run :=
  (r.srm.replaces.filter p).foldl (fun (r : Run) (x : Replace) =>
    if x.step < 4 then
      let r := (r.modSrm fun s => { s with replaces := s.replaces.filter fun y => y.slot != x.slot }).settleSlot x.slot
      r.finish x.fn x.cseq { status := .discarded }
    else
      let r := r.replaceTo x 5
      r.finish x.fn x.cseq (r.blobReply x.serial x.slot x.new)) r

/-- Every slot of an instance is unloaded and its store entries deleted (R573); a replacement in progress on one of them ends. -/
def Run.unloadInstance (r : Run) (n : Nat) : Run :=
  let mine (e : Nat × Key) : Bool := attrInst e.2.attr == some n
  let r := r.dropReplaces fun x => mine (x.slot, x.new)
  let r := ((r.srm.slots.filter mine).map (·.1)).foldl (fun (r : Run) (slot : Nat) => r.unloadKey slot 3 true) r
  r.modSrm fun s => { s with store := s.store.filter (fun e => !mine e) }

/-- A key as it returns from the store: the invocation count of an AES key resumes at the next multiple of 2¹⁶ (R567). -/
def Key.restored (k : Key) : Key := if k.type ≤ 2 then { k with uses := (k.uses / 65536 + 1) * 65536 } else k

/-- EV_SRM_LIMIT, when the count of a key passes 2³¹ (R567). -/
def Run.limitEvent (r : Run) (slot old new : Nat) : Run :=
  if old ≤ 2 ^ 31 ∧ 2 ^ 31 < new then r.raise { ev := .srmLimit, source := 837, data := [(slot : Int), (new / 65536 : Nat)] } else r

/-- Random data from the TRNG, as a free value of `w` bits (assumption 1, DESIGN CHOICE). -/
def Run.random (r : Run) (w : Nat) : Nat × Run := let (v, r) := r.takeFree w; (v.toNat, r)

/-- A fresh key of a type (R567, R569): its KEY_GEN is not stated, and free. -/
def Run.generate (r : Run) (type keyId attr : Nat) : Key × Run :=
  let (m, r) := r.random (8 * materialBytes type)
  let (g, r) := r.random 32
  ({ type := type, keyId := keyId, gen := g, attr := setDevice attr genInside, material := m }, r)

/-! ### Starts (R563, R578, Table 17.9) -/

/-- A bit with exactly two fuses blown gets its third (R563). -/
def finishFuses (l : List Nat) : List Nat := l.map fun n => if n = 2 then 3 else n

/-- The HKP copies the blobs of the live entries to the KEYBLOB region (R578).
DESIGN CHOICE, assumption 80: unsafe. -/
def Run.copyBlobs (r : Run) (serial : Nat) : Run :=
  r.modSrm fun s => { s with
    keyblob := s.store.filterMap fun (e : Nat × Key) => (s.blobAt serial e.1 e.2.created e.2).map fun b => (e.1, b) }

/-- The live entry of a slot enters it at a start, where the slot is empty; its count, resumed, is kept in the store (R567, R578). -/
def Run.loadSlot (r : Run) (slot : Nat) (k : Key) : Run :=
  if (r.srm.key slot).isSome then r
  else
    let k' := k.restored
    let r := r.modSrm fun s => s.withSlots (tabSet s.slots slot k')
    if k'.uses = k.uses then r else (r.persist slot k').limitEvent slot k.uses k'.uses

/-- The Strongroom at a start: fuses, journal, slots from the store, the nonce and debug as after reset. Slots survive
while an always-on feed is present.
DESIGN CHOICE, assumption 80: unsafe. -/
def Run.startStrong (r : Run) (serial : Nat) (aonLost : Bool) : Run :=
  let r := r.modSrm fun s => { s with
    fuses := finishFuses s.fuses, replaces := [], nonce := none, oldNonces := [], advancing := none, debug := false, trngFail := false,
    stat := [], blobFails := 0, blobFailAt := none, contexts := [] }
  let r := ((r.srm.journal.map (·.slot)).eraseDups).foldl (fun (r : Run) slot => r.settleSlot slot) r
  let r := r.modSrm fun s => s.withSlots (if aonLost then [] else s.slots)
  let r := r.srm.store.foldl (fun (r : Run) (e : Nat × Key) => r.loadSlot e.1 e.2) r
  r.copyBlobs serial

/-! ### Check values and uses (R567, R586) -/

/-- The KCV of a symmetric key over a nonce of 16 bytes (R586). -/
def kcv (k : Key) (nonce : Nat) : Nat :=
  if k.type = 3 then Config.hmac k.material [nonce] / 2 ^ 128 else Config.gmac k.material (nonce / 2 ^ 32) [nonce]

/-- A use drawn on the TRNG counts against the key (R567): the store keeps every multiple of 2¹⁶, and EV_SRM_LIMIT comes
when the count passes 2³¹. -/
def Run.countUse (r : Run) (slot : Nat) (k : Key) : Run :=
  let k' := { k with uses := k.uses + 1 }
  let r := r.modSrm fun s => s.withSlots (tabSet s.slots slot k')
  (if k'.uses % 65536 = 0 then r.persist slot k' else r).limitEvent slot k.uses k'.uses

/-! ### Transitions (Table 17.2) -/

/-- A transition of Table 17.2. -/
def Lc.allows (a b : Lc) : Bool :=
  match a, b with
  | .blank, .provisioned | .provisioned, .secured | .secured, .returned
  | .provisioned, .scrapped | .returned, .scrapped => true
  | _, _ => false

/-- The bit of LC_FUSE that a transition blows (R563). -/
def Lc.bit : Lc → Nat
  | .provisioned => 0 | .secured => 1 | .returned => 2 | _ => 3

/-- The slots whose keys a transition carries (Table 17.2): the identity key, whose root is in both states, and the device keys, in
RETURNED the two of the Cellar and the ledger. -/
def Lc.carries (next : Lc) (slot : Nat) : Bool :=
  match next with
  | .secured => slot == 0 || slot == 1 || slot == 2 || slot == 3
  | .returned => slot == 0 || slot == 1 || slot == 2
  | .scrapped => slot == 0
  | _ => true

/-- The keys after a transition: those it does not carry are destroyed, with EV_SRM_KEY.
DESIGN CHOICE, assumption 80: unsafe. -/
def Run.carryKeys (r : Run) (next : Lc) : Run :=
  let gone := r.srm.slots.filter fun (e : Nat × Key) => !next.carries e.1
  let r := r.modSrm fun s => ({ s with store := s.store.filter (fun e => next.carries e.1) }).withSlots
    (s.slots.filter (fun e => next.carries e.1))
  gone.foldl (fun (r : Run) (e : Nat × Key) => r.keyEvent e.1 4 e.2) r

/-- A KEY_ID that the device gives a key of its own: free, but none that another key holds (R569). -/
def Run.freshId (r : Run) (slot attr : Nat) : Nat × Run :=
  let (v, r) := r.random 32
  let n := r.srm.slots.length + r.srm.store.length + r.srm.replaces.length + 1
  ((((List.range n).map fun i => (v + i) % 2 ^ 32).find? fun i => !r.srm.idTaken slot i attr).getD v, r)

/-- A key of a reserved slot (Table 17.4); the manual gives it no KEY_ID and no KEY_GEN: both are free. -/
def Run.setReserved (r : Run) (slot type attr material : Nat) : Run :=
  let (i, r) := r.freshId slot attr
  let (g, r) := r.random 32
  let k : Key := { type := type, keyId := i, gen := g, attr := attr, material := material, created := secOf r.now }
  r.modSrm fun s => ({ s with store := tabSet s.store slot k }).withSlots (tabSet s.slots slot k)

/-- The password verifier of slot 3, where one is set: its salt and hash (Table 17.4, Table 17.6). -/
def Run.verifier (r : Run) : Option (Nat × Nat) :=
  (r.srm.key 3).map fun k => (k.material / 2 ^ 288, k.material / 2 ^ 32 % 2 ^ 256)

/-- A verifier takes slot 3 and the store (Table 17.4); one in place of another raises KEY_GEN by 1 (R569). Its attributes
beyond Table 17.4 are the model's.
DESIGN CHOICE, assumption 80: unsafe. -/
def Run.setVerifier (r : Run) (salt hash : Nat) : Run :=
  let m := (salt * 2 ^ 256 + hash) * 2 ^ 32 + 200000
  let r := r.appendStore 1
  match r.srm.key 3 with
  | some k =>
    let k := { k with gen := (k.gen + 1) % 2 ^ 32, material := m, created := secOf r.now }
    r.modSrm fun s => ({ s with store := tabSet s.store 3 k }).withSlots (tabSet s.slots 3 k)
  | none => r.setReserved 3 8 0x48200E2001 m

/-- The keys the factory step makes (Table 17.2): identity, Cellar log key and ledger key, and the factory's public key.
DESIGN CHOICE, assumption 80: unsafe. -/
def Run.provisionKeys (r : Run) : Run :=
  let put (r : Run) (slot type attr : Nat) : Run :=
    let (m, r) := r.random (8 * materialBytes type)
    r.setReserved slot type attr m
  let r := put (put (put r 0 5 0xA101E2001) 1 3 0x4A0C0E2010) 2 3 0x4A0C0E2010
  r.setReserved 4 7 0x8201F2001 Config.factoryKey

/-- A transition with `fuses` of its bit's three fuses programmed: the state changes with the second (R563). A replacement in progress
ends before it, and the key bus clears every context (R584).
DESIGN CHOICE, assumption 80: unsafe. -/
def Run.advance (r : Run) (next : Lc) (ownerKey fuses : Nat) : Run :=
  let old := r.srm.lc
  let r := r.dropReplaces fun _ => true
  let r := r.modSrm fun s => { s with fuses := modAt s.fuses next.bit (fun n => max n (min fuses 3)) }
  if fuses < 2 then r
  else
    let r := r.modSrm fun s => { s with contexts := [] }
    let r := if next = .provisioned then r.provisionKeys else r.carryKeys next
    let r := if next = .secured then
        (r.setReserved 5 7 0x8201F2001 ownerKey).modSrm fun s => { s with ownerHash := Config.sha384 [ownerKey] }
      else r
    let r := r.modSrm fun s => { s with bankB := !s.bankB, bankSeq := s.bankSeq + 1, storeUsed := s.store.length }
    if fuses = 2 then r
    else (r.count .flbErases 4).raise { ev := .srmLc, source := 832, data := [old.code, next.code] }

end Sys2Proof.Machine
end

