-- ==== Sys2Proof/Machine/CellarOps.lean ====
section
/-! DEFINITION. The Cellar: flush, ring, clearing (R541 to R547). -/

namespace Sys2Proof.Machine

/-- The Cellar changed by `f`. -/
def Run.modCel (r : Run) (f : Cellar → Cellar) : Run := { r with cel := f r.cel }

/-- The page of a record (R544): 64 records a page, in the order of SEQ.
DESIGN CHOICE, assumption 79: unsafe. -/
def pageOf (seq : Nat) : Nat := (seq - 1) / 64 % 65536

/-- The oldest record held once the ring has entered the block after that of `head` (R545).
DESIGN CHOICE, assumption 79: unsafe. -/
def ringTail (head : Nat) : Nat := head / 1024 * 1024 + 2049 - 4194304

/-! ### Page tags (R546) -/

/-- The key that tags what is written now: the Cellar log key of slot 1, or the one that a clear under way puts in its place (R547). -/
def Run.logKey (r : Run) : Option Key :=
  match r.srm.replaces.find? fun x => x.slot == 1 with
  | some x => some x.new
  | none => r.srm.key 1

/-- A record as the numbers that its 64 bytes spell. -/
def CelRec.words (x : CelRec) : List Nat :=
  [x.seq, x.micros / 1000000, x.micros % 1000000, x.type, x.source, x.inst, x.epoch.toNat, x.tq, x.severity, x.logEpoch] ++
    celData x.type x.data

/-- HMAC-SHA-256 truncated to 128 bits, over the page index, LOG_EPOCH, the number of records and the records.
DESIGN CHOICE, assumption 79: unsafe. -/
def tagOver (k : Key) (page logEpoch : Nat) (l : List CelRec) : Nat :=
  Config.hmac k.material ([page, logEpoch, l.length] ++ l.flatMap CelRec.words) / 2 ^ 128

/-- The records that a page of the ring holds. -/
def Cellar.page (c : Cellar) (p : Nat) : List CelRec := c.ring.filter fun x => pageOf x.seq == p

/-- The records that a tag entry covers. -/
def Cellar.covered (c : Cellar) (t : PageTag) : List CelRec :=
  ((c.page t.page).filter fun x => decide (t.firstSeq ≤ x.seq)).take t.count

/-- A page is tagged: finally once it is full, in the journal before that, whose blocks hold 2,048 entries each and are used alternately
(Table 16.3). Without a log key there is no tag.
DESIGN CHOICE, assumption 79: unsafe. -/
def Run.tagPage (r : Run) (p : Nat) : Run :=
  match r.logKey, r.cel.page p with
  | some k, x :: l =>
    let t : PageTag := { page := p, tag := tagOver k p r.cel.logEpoch (x :: l), keyId := k.keyId, count := l.length + 1,
                         logEpoch := r.cel.logEpoch, firstSeq := x.seq }
    if (x.seq - 1) / 64 * 64 + 64 ≤ r.cel.last then r.modCel fun c => { c with tags := tabSet c.tags p t }
    else
      let full := decide (4096 ≤ r.cel.journal.length)
      let r := r.modCel fun c => { c with journal := (if full then c.journal.drop 2048 else c.journal) ++ [t] }
      if full then r.count .flbErases else r
  | _, _ => r

/-- A page begins anew: what was known of its earlier records is no longer about it. -/
def Cellar.freshPage (c : Cellar) (p : Nat) : Cellar :=
  { c with tags := tabDel c.tags p, journal := c.journal.filter (fun t => t.page != p), verifyRaised := setDel c.verifyRaised p }

/-- Records are written to the ring (R545): it erases a block for each one it enters, and the records of that block are released. -/
def Run.writeRing (r : Run) (out : List CelRec) : Run :=
  match out.getLast? with
  | none => r
  | some x =>
    let before := r.cel.last
    let began := (out.filter fun (x : CelRec) => decide ((before + 63) / 64 < (x.seq + 63) / 64)).map fun x => pageOf x.seq
    let r := r.modCel fun c => began.eraseDups.foldl Cellar.freshPage c
    let r := r.modCel fun c =>
      let tail := max c.tail (ringTail x.seq)
      { c with ring := (c.ring ++ out).filter (fun (y : CelRec) => decide (tail ≤ y.seq)), tail := tail, last := x.seq }
    (r.count .cellarRecords out.length).count .flbErases (x.seq / 1024 - before / 1024)

/-- The staged records up to `flushTo` are written to FLB, and then the tags of their pages (R541, R545, R546). -/
def Run.flushOnce (r : Run) : Run :=
  let due (x : CelRec) : Bool := decide (x.seq ≤ r.cel.flushTo)
  let out := r.cel.stage.filter due
  let r := r.modCel fun c => { c with stage := c.stage.filter (fun x => !due x), flushing := false, flushes := (c.flushes + 1) % 2 ^ 64 }
  ((out.map fun x => pageOf x.seq).eraseDups).foldl (fun (r : Run) p => r.tagPage p) (r.writeRing out)

/-- Core power is removed: the records staged and not flushed are lost, but those that a flush under way had written, whose tags had not
followed (R546); how many is free.
DESIGN CHOICE, assumption 79: unsafe.
DEDUCED, assumption 42: unsafe. -/
def Run.loseStage (r : Run) : Run :=
  let due := r.cel.stage.filter fun x => decide (x.seq ≤ r.cel.flushTo)
  let (n, r) := if r.cel.flushing then let (v, r) := r.takeFree 13; (v.toNat % (due.length + 1), r) else (0, r)
  (r.writeRing (due.take n)).modCel fun c => { c with stage := [], flushing := false }

/-! ### Clearing (R547) -/

/-- A new log key: KEY_GEN is one more (R569). -/
def Run.newLogKey (r : Run) : Key × Run :=
  let (m, r) := r.random 256
  match r.srm.key 1 with
  | some k => ({ k with gen := (k.gen + 1) % 2 ^ 32, material := m, created := secOf r.now }, r)
  | none =>
    let (i, r) := r.freshId 1 0x4A0C0E2010
    let (g, r) := r.random 32
    ({ type := 3, keyId := i, gen := g, attr := 0x4A0C0E2010, material := m, created := secOf r.now }, r)

/-- Step 3 of a clear, once every staged record is in the old log epoch (R547): a new log key, which the journal prepares in slot 1 (R568,
R579), the next LOG_EPOCH, and LOG_CLEAR, flushed at once. With the TRNG stopped the clear ends (R565). -/
def Run.clearStep (r : Run) (w : ClearWait) : Run :=
  if r.srm.trngFail then (r.modCel fun c => { c with clearing := none }).finish w.fn w.cseq { status := .srmTrng }
  else
    let (k, r) := r.newLogKey
    let x : Replace := { fn := w.fn, cseq := w.cseq, slot := 1, new := k, oldGen := (k.gen + (2 ^ 32 - 1)) % 2 ^ 32,
                         sha := r.srm.entrySha w.serial 1 k, serial := w.serial, step := 1 }
    let r := (r.modSrm fun s => { s with replaces := s.replaces ++ [x] }).replaceTo x 3
    let r := r.modCel fun c => { c with logEpoch := (c.logEpoch + 1) % 65536, clearing := some { w with clearSeq := some c.nextSeq } }
    let r := r.stage { type := 1, time := r.now, data := [w.oldEpoch, r.cel.tail, w.limit, w.keyId, w.fn, w.cseq.toNat] }
    r.modCel (·.flush)

/-- Every page that holds records is tagged again.
DESIGN CHOICE, assumption 79: unsafe. -/
def Run.retag (r : Run) : Run :=
  let r := r.modCel fun c => { c with tags := [], journal := [] }
  ((r.cel.ring.map fun x => pageOf x.seq).eraseDups).foldl (fun (r : Run) p => r.tagPage p) r

/-- Step 4 of a clear: the tag of its LOG_CLEAR is in FLB (R547), and the new log key takes slot 1 with the journal's COMMIT (R568). The
pages that stay are tagged under it. -/
def Run.clearDone (r : Run) (w : ClearWait) : Run :=
  let blocks := w.limit / 1024 - (r.cel.tail - 1) / 1024
  let r := match r.srm.replaces.find? fun x => x.slot == 1 with | some x => r.replaceTo x 5 | none => r
  let r := r.modCel fun c => { c with clearing := none, tail := max c.tail (w.limit + 1), ring := c.ring.filter (fun x => decide (w.limit < x.seq)) }
  let r := (r.retag.count .flbErases blocks).raise { ev := .celCleared, source := 801, data := [(r.cel.logEpoch : Int), w.limit] }
  r.finish w.fn w.cseq {}

/-- A clear that power or a reset cuts short leaves the log as it was, with the old key and the old LOG_EPOCH (R547): LOG_CLEAR is
withdrawn, and records staged since are of the old epoch.
DEDUCED, assumption 44: unsafe. -/
def Run.abandonClear (r : Run) : Run :=
  match r.cel.clearing with
  | none => r
  | some w =>
    let r := r.modCel fun c => { c with
      clearing := none, logEpoch := w.oldEpoch,
      stage := (c.stage.filter fun x => some x.seq != w.clearSeq).map fun x => { x with logEpoch := w.oldEpoch } }
    r.modSrm fun s => { s with replaces := s.replaces.filter fun x => x.slot != 1 }

/-- A clear under way ends while the device runs on: its command is discarded, and the journal notes that its key is not used. -/
def Run.cancelClear (r : Run) : Run :=
  match r.cel.clearing with
  | none => r
  | some w => (r.abandonClear.settleSlot 1).finish w.fn w.cseq { status := .discarded }

/-- What follows the end of a flush: a clear goes on, and CEL_FLUSH commands complete. -/
def Run.afterFlush (r : Run) : Run :=
  let waits := r.cel.flushWait
  let r := r.modCel fun c => { c with flushWait := [] }
  let r := waits.foldl (fun (r : Run) (w : Nat × Word) => r.finish w.1 w.2 {}) r
  match r.cel.clearing with
  | none => r
  | some w =>
    match w.clearSeq with
    | none => if r.cel.stage = [] then r.clearStep w else r.modCel (·.flush)
    | some q => if q ≤ r.cel.last then r.clearDone w else r.modCel (·.flush)

/-- A COMMIT write in progress ends: FLB serves it before the flush of a power-fail sequence (R542, R580).
DEDUCED, assumption 44: unsafe. -/
def Run.endCommits (r : Run) : Run :=
  (r.srm.replaces.filter fun x => x.step == 3 && x.slot != 1).foldl (fun (r : Run) (x : Replace) => r.replaceTo x 4) r

/-- A PREPARED write in progress stops as power fails (R580): what it has left in the journal is free.
DESIGN CHOICE, assumption 80: unsafe.
DEDUCED, assumption 44: unsafe. -/
def Run.tearPrepared (r : Run) : Run :=
  (r.srm.replaces.filter fun x => x.step == 1).foldl (fun (r : Run) (x : Replace) =>
    let (v, r) := r.takeFree 32
    r.journalAdd { x.entry 1 with crc := v.toNat }) r

/-! ### Reading (R546) -/

/-- The tag entry that covers a record: a final one, or the newest interim one. -/
def Cellar.covering (c : Cellar) (x : CelRec) : Option PageTag :=
  ((tabGet c.tags (pageOf x.seq)).toList ++ (c.journal.filter fun t => t.page == pageOf x.seq).reverse).find? fun t =>
    (c.covered t).contains x

/-- The state CEL_READ reports of a record (R546): 0 VERIFIED, 1 UNVERIFIED, 2 FAILED. `bad` are the pages that FLB returns altered. -/
def Run.verdict (r : Run) (bad : List Nat) (x : CelRec) : Nat :=
  match r.cel.covering x, r.srm.key 1 with
  | some t, some k =>
    if bad.contains t.page || tagOver k t.page t.logEpoch (r.cel.covered t) != t.tag then 2 else 0
  | _, _ => 1

/-- A record as CEL_READ returns it. -/
def CelRec.fields (x : CelRec) (verdict : Nat) : List Int :=
  [(x.seq : Int), x.micros / 1000000, x.micros % 1000000, x.type, x.source, x.inst, x.epoch.toNat, x.tq, x.severity, x.logEpoch] ++
    (celData x.type x.data).map Int.ofNat ++ [(verdict : Int)]

/-- Failed pages met for the first time raise EV_CEL_VERIFY (R546). -/
def Run.reportPages (r : Run) (l : List CelRec) (bad : List Nat) : Run :=
  l.foldl (fun (r : Run) (x : CelRec) =>
    let p := pageOf x.seq
    if r.verdict bad x = 2 ∧ !r.cel.verifyRaised.contains p then
      (r.modCel fun c => { c with verifyRaised := setIns c.verifyRaised p, failedPages := (c.failedPages + 1) % 2 ^ 64 }).raise
        { ev := .celVerify, source := 802, data := [(p : Int), ((x.seq - 1) / 64 * 64 + 1 : Nat)] }
    else r) r

end Sys2Proof.Machine
end

