-- ==== Sys2Proof/Machine/State.lean ====
section
/-! DEFINITION. The state of the block, the ways a step can stop, and the state after reset. -/

namespace Sys2Proof.Machine

/-- The state: the commands and events that wait, first in first out; reset, boot, power and the device
configuration; and everything that runs. -/
structure State where
  pending : List Instr := []
  sys : Sys := {}
  run : Run := {}
  deriving DecidableEq, Repr

/-- Why a step faults. No rule of the spec stops the block, so no meaning of this model raises one. -/
inductive Fault where
  /-- Raised by no meaning (safe): the type is kept closed and inhabited for the host's interface. -/
  | none
  deriving DecidableEq, Repr

/-- Why a step is refused. -/
inductive Refusal where
  /-- Raised by an arm of `exec` whose row has no meaning yet (safe). -/
  | notModelled (mnemonic : String)
  deriving DecidableEq, Repr

/-- The block right after reset: no supply has yet been reported, nothing has started, no command waits.
COLD_START brings it to READY (Table 20.2).
DESIGN CHOICE, assumption 31: unsafe. DEDUCED, assumption 32: safe. -/
def State.reset : State := {}

end Sys2Proof.Machine
end

