-- ==== Sys2Proof/Machine/Command.lean ====
section
/-! DEFINITION. How a command row runs (R66, R67, R76, R643), and how an event row acts on the state. -/

namespace Sys2Proof.Machine

/-- A step that changes what runs, while the device is out of reset; in reset it has no effect. -/
def whenUp (s : State) (f : Sys → Run → Run) : Host.Outcome State Fault Refusal :=
  if s.sys.phase = .reset then .next s else .next { s with run := f s.sys s.run }

/-- A step of the host over PCIe: it has no effect while a lasting fault of the PCIe island holds the link down (Table 19.3).
DEDUCED, assumption 52: unsafe. -/
def whenLinked (s : State) (f : Sys → Run → Run) : Host.Outcome State Fault Refusal :=
  whenUp s fun sys r => if r.flt.lasting.contains 28 then r else f sys r

/-- A step of the host over PCIe at function `fn`: recovery presents PF0 only (R643).
DEDUCED, assumption 36: unsafe. -/
def whenHost (fn : Nat) (s : State) (f : Sys → Run → Run) : Host.Outcome State Fault Refusal :=
  whenLinked s fun sys r => if sys.phase = .recovery ∧ fn ≠ 0 then r else f sys r

/-- A step of the engines, which run once READY has risen; before that, and in recovery, it has no effect. -/
def whenRunning (s : State) (f : Sys → Run → Run) : Host.Outcome State Fault Refusal :=
  if s.sys.phase = .ready ∨ s.sys.phase = .running then .next { s with run := f s.sys s.run } else .next s

/-- What all the command tables say of a command: its opcode, whether it is PF0 only, whether it needs its host
buffer as input, how many bytes of it its arguments take (all that BUF_LEN gives where this is none), and whether recovery
accepts it (R643). -/
structure CmdSpec where
  op : Nat
  pf0 : Bool
  buf : Bool := false
  need : Option Nat := none
  recovery : Bool := false
  deriving DecidableEq, Repr

/-- The judgements every command meets before its own rules: recovery (R643), the function (R76), its instance
field (Table 2.5) and its buffer, for which RESULT holds the length needed (Table 2.8). -/
def CmdSpec.refuses (k : CmdSpec) (sys : Sys) (c : Cmd) (a : Accepted) : Option Reply :=
  let need := k.need.getD a.entry.bufLen
  if sys.phase = .recovery ∧ !k.recovery then some { status := .state }
  else if k.pf0 ∧ c.fn ≠ 0 then some { status := .denied }
  else if c.fn ≠ 0 ∧ a.entry.inst ≠ noInst ∧ a.entry.inst + 1 ≠ c.fn then some { status := .denied }
  else if k.buf ∧ (c.bufErr ∨ a.entry.bufLen < need) then some { status := .buf, result := [(need : Int)] }
  else none

/-- A command of this opcode may make the Strongroom write to FLB: SRM_LC_ADVANCE and the commands that create, change or unload a key,
INST_DESTROY, SIO_PASSWORD_SET and CEL_CLEAR. -/
def strongWrites (op : Nat) : Bool :=
  (decide (0x0D02 ≤ op) && decide (op ≤ 0x0D0A)) || op == 0x0201 || op == 0x0A08 || op == 0x0C03

/-- A Strongroom command accepted before `a` has not begun: the Strongroom takes operations in the order of acceptance (R564).
DEDUCED, assumption 44: unsafe. -/
def Run.strongTurn (r : Run) (a : Accepted) : Bool :=
  r.fns.all fun f => f.accepted.all fun b => b.started || b.entry.opcode / 256 != 0x0D || decide (a.order ≤ b.order)

/-- The command a row executes, if the row can run now: an accepted command of that opcode which may start (R67),
with the device and its HKP up (R622), and in its turn where it is the Strongroom's (R564). While power fails the Strongroom starts no
FLB write (R580): commands that ask for one do not start.
DEDUCED, assumption 5: safe. -/
def State.commandFor (s : State) (k : CmdSpec) (c : Cmd) : Option Accepted :=
  if s.sys.phase = .reset ∨ s.run.flt.hkpAway ∨ s.run.flt.hkpDead ∨ (s.sys.pwrfailAt.isSome ∧ strongWrites k.op) then none
  else match (s.run.fn c.fn).startable c.cseq with
    | some a => if a.entry.opcode = k.op ∧ (k.op / 256 = 0x0D → s.run.strongTurn a) then some a else none
    | none => none

/-- A command row: it executes its command and generates the completion, or notes that the completion comes later.
A row whose command is not accepted, or may not start, has no effect (assumption 5, DEDUCED). A reply that does not fit the
host buffer completes with ST_BUF, RESULT holding the length needed, and changes nothing (Table 2.8). -/
def runCommand (k : CmdSpec) (c : Cmd) (s : State) (body : Accepted → Sys → Run → Sys × Run × Answer) :
    Host.Outcome State Fault Refusal :=
  match s.commandFor k c with
  | none => .next s
  | some a =>
    match k.refuses s.sys c a with
    | some rep => .next { s with run := s.run.finish c.fn c.cseq rep }
    | none =>
      match body a s.sys s.run with
      | (sys, run, .wait) => .next { s with sys := sys, run := run.started c.fn c.cseq }
      | (sys, run, .done rep) =>
        if a.entry.bufLen < rep.bufLen ∨ (0 < rep.bufLen ∧ c.bufErr) then
          .next { s with run := s.run.finish c.fn c.cseq { status := .buf, result := [(rep.bufLen : Int)] } }
        else .next { s with sys := sys, run := run.finish c.fn c.cseq rep }

/-- A command that changes only what runs.
DEDUCED, assumption 5: safe. -/
def runCmd (k : CmdSpec) (c : Cmd) (s : State) (body : Accepted → Run → Run × Answer) :
    Host.Outcome State Fault Refusal :=
  runCommand k c s (fun a sys run => let (run, ans) := body a run; (sys, run, ans))

/-- A command that changes nothing and returns what `body` answers.
DEDUCED, assumption 5: safe. -/
def runQuery (k : CmdSpec) (c : Cmd) (s : State) (body : Accepted → Sys → Run → Answer) :
    Host.Outcome State Fault Refusal :=
  runCommand k c s (fun a sys run => (sys, run, body a sys run))

/-- A command on one instance (Table 3.7): INSTANCE names the target; PF0 naming none meets ST_RANGE.
DESIGN CHOICE, assumption 66: unsafe. -/
def onTarget (a : Accepted) (run : Run) (f : Nat → Run × Answer) : Run × Answer :=
  match a.target with
  | some n => f n
  | none => (run, .status .range)

end Sys2Proof.Machine
end

