-- ==== Sys2Proof/Machine/Irig.lean ====
section
/-! DEFINITION. The decoding of an IRIG-B frame from the widths of its pulses (R219, R220). The places of the fields are those
of IRIG Standard 200 and of the control-function extension of IEEE C37.118.1, which the manual names and does not spell.
PRESUMED, assumption 98: unsafe. -/

namespace Sys2Proof

/-- The symbol of a pulse width in µs (R219): 0, 1, or 2 for a marker, each within ±0.5 ms. -/
def irigSymbol (w : Nat) : Option Nat :=
  if 1500 ≤ w ∧ w ≤ 2500 then some 0 else if 4500 ≤ w ∧ w ≤ 5500 then some 1 else if 7500 ≤ w ∧ w ≤ 8500 then some 2 else none

/-- Position `i` of a frame holds a marker: Pr at 0, P1 to P9 and P0 at each position that ends in 9. -/
def irigMarker (i : Nat) : Bool := i == 0 || i % 10 == 9

namespace IrigMsg

/-- The symbol at a position. -/
def symbol (m : IrigMsg) (i : Nat) : Option Nat := irigSymbol (m.pulses.getD i 0)

/-- The bit at a position. -/
def bit (m : IrigMsg) (i : Nat) : Bool := m.symbol i == some 1

/-- A number of `n` bits from position `i` on, least significant first. -/
def num (m : IrigMsg) (i n : Nat) : Nat := (List.range n).foldl (fun v k => if m.bit (i + k) then v + 2 ^ k else v) 0

/-- Seconds, minutes, hours, day of the year and year of the century. -/
def second (m : IrigMsg) : Nat := 10 * m.num 6 3 + m.num 1 4
/-- See `second`. -/
def minute (m : IrigMsg) : Nat := 10 * m.num 15 3 + m.num 10 4
/-- See `second`. -/
def hour (m : IrigMsg) : Nat := 10 * m.num 25 2 + m.num 20 4
/-- See `second`. -/
def day (m : IrigMsg) : Nat := 100 * m.num 40 2 + 10 * m.num 35 4 + m.num 30 4
/-- See `second`. -/
def yearOfCentury (m : IrigMsg) : Nat := 10 * m.num 55 4 + m.num 50 4

/-- The format carries the year (B004 to B007). -/
def hasYear (m : IrigMsg) : Bool := decide (4 ≤ m.format)

/-- The format carries control functions (B000, B001, B004, B005). -/
def hasControl (m : IrigMsg) : Bool := decide (m.format % 4 < 2)

/-- Markers stand at their positions and nowhere else, and every BCD digit lies in range (R219). -/
def wellFormed (m : IrigMsg) : Bool :=
  m.pulses.length == 100 &&
  ((List.range 100).all fun i => match m.symbol i with | some s => (s == 2) == irigMarker i | none => false) &&
  ([1, 10, 20, 30, 35] ++ if m.hasYear then [50, 55] else []).all (fun i => decide (m.num i 4 ≤ 9)) &&
  decide (m.second ≤ 60) && decide (m.minute ≤ 59) && decide (m.hour ≤ 23) && decide (1 ≤ m.day) && decide (m.day ≤ 366)

/-- The second of the year. -/
def secOfYear (m : IrigMsg) : Nat := (m.day - 1) * 86400 + m.hour * 3600 + m.minute * 60 + m.second

/-- The year, which B004 to B007 carry. -/
def year (m : IrigMsg) : Nat := 2000 + m.yearOfCentury

/-- Local minus UTC in s: the extension carries what is to be added to the coded time to give UTC. -/
def localOffset (m : IrigMsg) : Int :=
  let s : Int := 3600 * m.num 65 4 + if m.bit 70 then 1800 else 0
  if !m.hasControl then 0 else if m.bit 64 then s else -s

/-- The time-quality nibble. -/
def quality (m : IrigMsg) : Nat := m.num 71 4

/-- Leap second pending, and its direction: true for a deletion. -/
def leapPending (m : IrigMsg) : Bool := m.bit 60
/-- See `leapPending`. -/
def leapDir (m : IrigMsg) : Bool := m.bit 61

end IrigMsg

end Sys2Proof
end

