-- ==== Sys2Proof/Machine/PortOps.lean ====
section
/-! DEFINITION. Chapter 4: what the MACs do with queues, credits, links and counters. -/

namespace Sys2Proof.Machine

/-! ### Ports, units and time -/

/-- Port `n`. -/
def Run.port (r : Run) (n : Nat) : Port := r.ports.getD n {}

/-- Port `n` changed by `f`. -/
def Run.modPort (r : Run) (n : Nat) (f : Port → Port) : Run := { r with ports := modAt r.ports n f }

/-- The cycle time of a port's island in units of 10 ps (Table 1.1). -/
def islandPeriod (n : Nat) : Nat := if n < 48 then 800 else if n < 60 then 640 else 256

/-- The port-island cycles since power-up. -/
def Run.cyclesOf (r : Run) (n : Nat) : Nat := r.ticks * 400 / islandPeriod n

/-- The link speed in kb/s of a SPEED code (MAC_STATUS). -/
def speedKbps : Nat → Nat
  | 1 => 100000 | 2 => 1000000 | 3 => 2500000 | 4 => 5000000 | 5 => 10000000 | 6 => 25000000 | _ => 0

/-- The MODE codes listed for a port (Table 4.1). -/
def modesOf (n : Nat) : List Nat := if n < 48 then [0, 1] else if n < 60 then [2, 3] else [4, 3]

/-- The SPEED codes a mode may run at (Table 4.1). -/
def speedsOf : Nat → List Nat
  | 0 => [1, 2] | 1 => [2] | 2 => [2, 3, 4, 5] | 3 => [5] | 4 => [6] | _ => []

/-- Counter `k` of Table 4.4 plus `v` (R154). -/
def Port.count (p : Port) (k v : Nat) : Port := { p with stat := tabAdd p.stat k v }

/-- The egress queue `q` of a port, head first. -/
def Port.queue (p : Port) (q : Nat) : List Queued := tabGetD p.queues q []

/-- The egress queue `q` of a port replaced. -/
def Port.setQueue (p : Port) (q : Nat) (l : List Queued) : Port := { p with queues := tabPut p.queues q l [] }

/-! ### Credit (R147) -/

/-- The credit a rate in kb/s moves in one cycle, in 1/256 bit, rounded to nearest with ties away from zero. -/
def creditStep (kbps period : Nat) : Nat := (2 * (kbps * period * 256) + 100000000) / 200000000

/-- idleSlope: min(IDLE_SLOPE, link speed). -/
def Shaper.idle (s : Shaper) (speed : Nat) : Nat := min s.slope speed

/-- HI_CREDIT, then LO_CREDIT (R147). -/
def Shaper.bound (s : Shaper) (x : Int) : Int := max (s.lo * 256) (min (s.hi * 256) x)

/-- The credit of a queue brought up to cycle `now` while it is not sending: it rises while the queue holds a frame,
and while the queue is empty it is cut to 0 from above and returns to 0 from below. HI_CREDIT and LO_CREDIT apply in
each cycle, LO_CREDIT from the first on. -/
def Shaper.settle (s : Shaper) (speed period now : Nat) (holds : Bool) : Shaper :=
  let n := now - s.since
  let step := creditStep (s.idle speed) period
  let up : Int := max (s.credit + (n * step : Nat)) (s.lo * 256 + ((n - 1) * step : Nat))
  let credit := if holds then s.bound up else if 0 < s.credit then 0 else min 0 up
  { s with credit := if s.en && decide (0 < n) then credit else s.credit, since := max now s.since }

/-- The credits of a port brought up to now; while the link is down they stay (R147). -/
def Port.settleCredits (p : Port) (period now : Nat) : Port :=
  { p with shapers := p.shapers.map fun (q, s) =>
      (q, if p.link then s.settle (speedKbps p.speed) period now (p.queue q != []) else { s with since := max now s.since }) }

/-- The credits of port `n` brought up to now. -/
def Run.settlePort (r : Run) (n : Nat) : Run := r.modPort n (·.settleCredits (islandPeriod n) (r.cyclesOf n))

/-- The queue sends for `cycles`: its credit falls at (link speed − idleSlope) down to LO_CREDIT; HI_CREDIT applies from
the first cycle on. -/
def Shaper.sent (s : Shaper) (speed period cycles : Nat) : Shaper :=
  let step := creditStep (speed - s.idle speed) period
  let down : Int := min (s.credit - (cycles * step : Nat)) (s.hi * 256 - ((cycles - 1) * step : Nat))
  if s.en && decide (0 < cycles) then { s with credit := s.bound down, since := s.since + cycles } else s

/-- CREDIT (MAC_CBS_CTRL): the value rounded toward zero to whole bits. -/
def Shaper.creditBits (s : Shaper) : Int := s.credit.tdiv 256

/-- A queue may send at this opportunity as far as its shaper goes: the credit held in 1/256 bit, not the CREDIT field, is compared
with 0 (R146).
DESIGN CHOICE, assumption 95: unsafe. -/
def Port.creditOk (p : Port) (q : Nat) : Bool :=
  match tabGet p.shapers q with
  | some s => !s.en || decide (0 ≤ s.credit)
  | none => true

/-! ### Cells and copies (R177) -/

/-- Cells that a frame of `len` bytes holds. -/
def cellsOf (len : Nat) : Nat := (len + 255) / 256

/-- The cells a held frame counts in a queue: those it has taken, and while it arrives those it has reserved. -/
def Held.cells (h : Held) : Nat := if h.complete then h.taken else h.taken + h.reserved

/-- Cells that frames still arriving have taken from the free list against their reservations (R177), by the bytes of them
that are in Cistern.
DESIGN CHOICE, assumption 95: unsafe. -/
def Run.takeCells (r : Run) (present : Tab Nat) : Run :=
  present.foldl (fun (r : Run) (e : Nat × Nat) =>
    match tabGet r.sw.frames e.1 with
    | none => r
    | some h =>
      let n := min (((e.2 + 255) / 256) - h.taken) h.reserved
      if h.complete then r
      else { r with sw := { r.sw with
        frames := tabSet r.sw.frames e.1 { h with taken := h.taken + n, reserved := h.reserved - n }, free := r.sw.free - n } }) r

/-- The frame of a number, if Cistern holds it. -/
def Run.held (r : Run) (fid : Nat) : Option Held := tabGet r.sw.frames fid

/-- Cells charged back to an instance when a frame of its function leaves IPORT_HOST (R107). -/
def Run.uncharge (r : Run) (fn cells : Nat) : Run :=
  if fn = 0 then r else r.modInst (fn - 1) (fun i => { i with cells := i.cells - cells })

/-- Cells come free: those of a retired bank are withdrawn (R616).
DEDUCED, assumption 63: unsafe. -/
def Run.giveCells (r : Run) (n : Nat) : Run :=
  let d := min n r.flt.withdrawDue
  { r with
    flt := { r.flt with withdrawn := r.flt.withdrawn + d, withdrawDue := r.flt.withdrawDue - d }
    sw := { r.sw with free := r.sw.free + (n - d) } }

/-- A frame that no queue holds any more and that is complete leaves Cistern; its cells return to the free list. -/
def Run.freeFrame (r : Run) (fid : Nat) (h : Held) : Run :=
  let r := ({ r with sw := { r.sw with frames := tabDel r.sw.frames fid } } : Run).giveCells h.taken
  match h.fromFn with
  | some fn => r.uncharge fn h.taken
  | none => r

/-- One queue releases a frame. One that no queue holds any more while it still arrives has been dropped: its cells and its
reservation return at once (R177). -/
def Run.release (r : Run) (fid : Nat) : Run :=
  match r.held fid with
  | none => r
  | some h =>
    let h := { h with copies := h.copies - 1 }
    if h.copies = 0 ∧ h.complete then r.freeFrame fid h
    else if h.copies = 0 then
      ({ r with sw := { r.sw with frames := tabSet r.sw.frames fid { h with taken := 0, reserved := 0 } } } : Run).giveCells h.taken
    else { r with sw := { r.sw with frames := tabSet r.sw.frames fid h } }

/-- Frames dropped from a queue of a port: each is released. -/
def Run.releaseAll (r : Run) (l : List Queued) : Run := l.foldl (fun r x => r.release x.fid) r

/-! ### Sending -/

/-- The length a frame leaves with: without the tags its input port read, with those it leaves with, padded to 64 (R140). -/
def egressLen (f : Frame) (x : Queued) : Nat :=
  let core := f.len - (if f.vid.isSome then 4 else 0) - (if f.red.isSome && !x.keep then 6 else 0)
  max 64 (core + (if x.tagged then 4 else 0) + (if x.red.isSome then 6 else 0))

/-- The frame as it leaves a port. -/
def egressFrame (h : Held) (x : Queued) : Frame :=
  { h.frame with len := egressLen h.frame x, vid := if x.tagged then some h.vid else none,
                 pcp := if x.tagged then h.pcp else 0, dei := x.tagged && h.frame.dei,
                 red := if x.red.isSome then x.red else if x.keep then h.frame.red else none }

/-- The residence-time correction of the transparent clock (R217), in 2⁻¹⁶ ns.
DEDUCED, assumption 78: unsafe. -/
def correctSync (f : Frame) (residence : Int) (delay : Rat) : Frame :=
  match f.payload with
  | .ptp msg dom sid corr => { f with payload := .ptp msg dom sid (corr + residence * 65536 + (delay * 65536).floor) }
  | _ => f

/-- The device raises EV_PORT_LINK for port `n` (Table 4.7). -/
def Run.raisePortLink (r : Run) (n : Nat) : Run :=
  let p := r.port n
  r.raise { ev := .portLink, source := 64 + n,
            data := [n, if p.link then 1 else 0, p.speed, if p.speedUnsup then 1 else 0] }

/-- A receive timestamp at the ball of a port (R224). -/
def Run.rxStamp (r : Run) (n : Nat) (at' : Int) : Instant :=
  (at' - Config.laneLatency false n - tabGetD r.tsu.regs.rxLat n 0).toNat

/-- A transmit timestamp at the ball of a port (R224). -/
def Run.txStamp (r : Run) (n : Nat) (at' : Int) : Instant :=
  (at' + Config.laneLatency true n + tabGetD r.tsu.regs.txLat n 0).toNat

/-- The entry of a transmit timestamp in the queue of a port island (R226, R227). -/
def Run.stampTx (r : Run) (n : Nat) (kind ident : Nat) (time : Instant) : Run :=
  let i := if n < 48 then n / 4 else if n < 60 then 12 + (n - 48) / 4 else 15
  let q : TxQueue := tabGetD r.tsu.txq i {}
  if 64 ≤ q.entries.length then
    let r' := { r with tsu := { r.tsu with txq := tabSet r.tsu.txq i { q with lost := (q.lost + 1) % 2 ^ 32, ovf := true } } }.setW1c (.ovf i)
    if q.ovf then r' else r'.raise { ev := .tsqOverflow, source := 224 + i, data := [i, (q.lost + 1) % 2 ^ 32] }
  else
    let e : TxStamp := { kind := kind, tq := r.tsu.tq, port := n, id := ident, time := time }
    let r' := { r with tsu := { r.tsu with txq := tabSet r.tsu.txq i { q with entries := q.entries ++ [e] } } }
    if q.entries = [] then r'.raiseSource 0 (224 + i) else r'

/-- A frame has left port `n` whole: TX_OK, its octets, its timestamp entry, and its release. Its egress timestamp is that of its
first byte, which a cut-through frame has sent before (R217, R224). -/
def Run.sentOk (r : Run) (n : Nat) (x : Queued) : Run :=
  match r.held x.fid with
  | none => r
  | some h =>
    let f := egressFrame h x
    let left := r.txStamp n (x.startAt.getD r.now)
    let f := if x.tc then correctSync f ((left : Int) - h.arrival) (if h.inPort < 64 then tabGetD r.tsu.linkDelay h.inPort 0 else 0) else f
    let r := r.modPort n (fun p => (p.count 16 1).count 17 f.len)
    let r := r.emit (.wire n f false)
    let r := match h.stampId with
      | some (kind, ident) => r.stampTx n kind ident left
      | none => r
    r.release x.fid

/-- The output ends a frame it has started with an inverted CRC (R142 step 1) and counts it in counter `k`. -/
def Run.sentBad (r : Run) (n : Nat) (x : Queued) (k : Nat) : Run :=
  let r := r.modPort n (fun p => p.count k 1)
  let r := match r.held x.fid with
    | some h => r.emit (.wire n (egressFrame h x) true)
    | none => r
  r.release x.fid

/-! ### Heads of queues -/

/-- A head frame of queue 0 to 3 is older than its age limit (R153): `since` is when it entered Cistern. -/
def tooOld (p : Port) (q since now : Nat) : Bool :=
  decide (q < 4) && decide (0 < p.ageQ.getD q 0) && decide (msTicks (p.ageQ.getD q 0) < now - since)

/-- The frame that reaches the head of queue `q` is judged for its age; each one too old is dropped (R153). -/
def Run.settleHead : Nat → Run → Nat → Nat → Run
  | 0, r, _, _ => r
  | fuel + 1, r, n, q =>
    match (r.port n).queue q with
    | [] => r
    | x :: rest =>
      match r.held x.fid with
      | none => r
      | some h =>
        if tooOld (r.port n) q h.since r.ticks then
          Run.settleHead fuel ((r.modPort n (fun p => (p.count 23 1).setQueue q rest)).release x.fid) n q
        else r

/-- The head of queue `q` leaves it, and the next one is judged. -/
def Run.popHead (r : Run) (n q : Nat) : Run :=
  let rest := ((r.port n).queue q).tail
  (r.modPort n (fun p => p.setQueue q rest)).settleHead (rest.length + 1) n q

/-- Complete head frames longer than MAX_FRAME are dropped (R140). -/
def Run.dropLong : Nat → Run → Nat → Nat → Run
  | 0, r, _, _ => r
  | fuel + 1, r, n, q =>
    match (r.port n).queue q with
    | [] => r
    | x :: _ =>
      match r.held x.fid with
      | none => r
      | some h =>
        if h.complete ∧ (r.port n).maxFrame < egressLen h.frame x then
          Run.dropLong fuel (((r.modPort n (fun p => p.count 20 1)).popHead n q).release x.fid) n q
        else r

/-- The head frame of a queue may start (R141): complete, or cut-through with min(CUR, L) bytes present, and no less than the
64 that a frame has which is no runt (R144). -/
def Run.mayStart (r : Run) (n q : Nat) (present : Tab Nat) : Bool :=
  match (r.port n).queue q with
  | [] => false
  | x :: _ =>
    match r.held x.fid with
    | none => false
    | some h =>
      let there := tabGetD present x.fid 0
      h.complete || (x.cutThrough && decide (64 ≤ there) && decide (min (r.port n).cur h.frame.len ≤ there))

/-- The queue the MAC serves at this opportunity (R146): the highest one that may send. -/
def Run.pickQueue (r : Run) (n : Nat) (present : Tab Nat) : Option Nat :=
  (List.range 8).reverse.find? (fun q => (r.port n).creditOk q && r.mayStart n q present)

/-! ### Link loss and return -/

/-- The frames of queue `q` are dropped and counted in counter `k`. -/
def Run.dropQueue (r : Run) (n q k : Nat) : Run :=
  let l := (r.port n).queue q
  (r.modPort n (fun p => (p.count k l.length).setQueue q [])).releaseAll l

/-- The frame in transmission is lost with the link (R150 step 1). -/
def Run.dropSending (r : Run) (n : Nat) : Run :=
  match (r.port n).sending with
  | some (_, x) => (r.modPort n (fun p => { p.count 21 1 with sending := none })).release x.fid
  | none => r

/-- The queues of a list are dropped and counted in counter `k`. -/
def Run.dropQueues (r : Run) (n : Nat) (qs : List Nat) (k : Nat) : Run :=
  qs.foldl (fun (r : Run) (q : Nat) => r.dropQueue n q k) r

/-- What a loss of link does to the frames of a port (R150 steps 1 to 3, R136). -/
def Run.lossOfQueues (r : Run) (n : Nat) : Run :=
  let r := ((r.settlePort n).dropSending n).dropQueues n [4, 5, 6, 7] 21
  if (r.port n).hold = 0 then r.dropQueues n [0, 1, 2, 3] 21
  else r.modPort n (fun p => { p with holding := true, holdSince := r.ticks })

/-- The link of port `n` goes down (R150): its frames, LINK_DOWNS and EV_PORT_LINK. -/
def Run.linkDown (r : Run) (n : Nat) : Run :=
  if (r.port n).link then
    let r := r.lossOfQueues n
    (r.modPort n (fun p => { p.count 24 1 with link := false, speed := 0, pcsSync := false, fecLock := false })).raisePortLink n
  else r

/-- EV_RED_PAIR for the pair of port `n` when the pair has a mode (R192). -/
def Run.raisePair (r : Run) (j cause : Nat) (more : List Int := []) : Run :=
  if tabGetD r.sw.redMode j 0 = 0 then r
  else r.raise { ev := .redPair, source := 160 + j, data := [(j : Int), cause] ++ more }

end Sys2Proof.Machine
end

