-- ==== Sys2Proof/Machine/TimeOps.lean ====
section
/-! DEFINITION. Chapter 6: the servo, the states of the time unit and its references. -/

namespace Sys2Proof.Machine

/-! ### Numbers -/

/-- A rational rounded to the nearest integer, ties away from zero.
DEDUCED, assumption 77: unsafe. -/
def roundRat (x : Rat) : Int := if 0 ≤ x then (x + 1 / 2).floor else -((-x + 1 / 2).floor)

/-- A rational held to a range. -/
def clampRat (lo hi x : Rat) : Rat := if x < lo then lo else if hi < x then hi else x

/-- The magnitude of a rational. -/
def absRat (x : Rat) : Rat := if x < 0 then -x else x

/-- INC of a rate in ppb (R199). -/
def incOf (y : Rat) : Nat := (roundRat (0x400000000 * (1 + clampRat (-500000) 500000 y / 1000000000))).toNat

/-- The time unit changed by `f`. -/
def Run.modTsu (r : Run) (f : Tsu → Tsu) : Run := { r with tsu := f r.tsu }

/-- The servo changed by `f`. -/
def Run.modServo (r : Run) (f : Servo → Servo) : Run := r.modTsu fun t => { t with servo := f t.servo }

/-- The rate y takes effect (R199, R203). -/
def Run.setRate (r : Run) (y : Rat) : Run :=
  r.modTsu fun t => { t with inc := incOf y, servo := { t.servo with y := y } }

/-! ### Steps of the counter (R204, R687) -/

/-- The first Q tick whose processing instant lies at or after a counter value (R263, R265). -/
def firstTickFrom (counter horizon : Nat) : Nat :=
  let due := counter - horizon * 1000 * 2 ^ 32
  (9 * due + 625000 * 2 ^ 32 - 1) / (625000 * 2 ^ 32)

/-- The instants kept of reference events and messages move with the counter, so that the time since each stays what it is.
DEDUCED, assumption 77: unsafe. -/
def Tsu.shifted (t : Tsu) (d : Int) : Tsu :=
  let m (x : Instant) : Instant := ((x : Int) + d).toNat
  { t with
    lastEdge := m t.lastEdge,
    ppsOutSince := m t.ppsOutSince,
    lossAt := t.lossAt.map m,
    parent := t.parent.map fun p => { p with announceAt := m p.announceAt, syncAt := m p.syncAt },
    syncSent := t.syncSent.map fun (e : Nat × Nat × Instant) => (e.1, e.2.1, m e.2.2),
    pdelayAt := t.pdelayAt.map fun (e : Nat × Nat × Instant) => (e.1, e.2.1, m e.2.2),
    foreign := t.foreign.map fun (e : Nat × DataSet × Instant) => (e.1, e.2.1, m e.2.2) }

/-- The record of TQ after the counter is set to `new`: what a backward step runs through again has the TQ in force then (R213).
DEDUCED, assumption 77: unsafe. -/
def Tsu.tqFrom (t : Tsu) (new : Instant) : List (Instant × Nat) :=
  ((new, t.tq) :: t.tqLog.filter fun e => decide (e.1 < new)).take 64

/-- The counter is set, within its 48 bits of seconds (R198); ticks a forward step passes over are skipped (R687). -/
def Run.setCounter (r : Run) (new : Nat) : Run :=
  let new := new % counterWrap
  let moved : Int := (new / 2 ^ 32 : Nat) - (r.tsu.counter / 2 ^ 32 : Nat)
  let next := r.cfl.next.map fun (e : Nat × Nat) =>
    let first := max (tabGetD r.cfl.done e.1 0) (firstTickFrom new (tabGetD r.cfl.horizon e.1 300))
    (e.1, if r.tsu.counter < new then max e.2 first else min e.2 first)
  { r with tsu := { r.tsu.shifted moved with counter := new, tqLog := (r.tsu.noteTq r.now).tqFrom (new / 2 ^ 32) }, cfl := { r.cfl with next := next } }

/-- The counter steps: STEPPED is set and EV_TIME_STEP raised with the step in ns (R204, Table 6.5). -/
def Run.stepTo (r : Run) (new : Nat) (step : Int) : Run :=
  (((r.setCounter new).modTsu fun t => { t with stepped := true }).setW1c .stepped).raise { ev := .timeStep, source := 193, data := [step] }

/-! ### States (R207 to R212) -/

/-- OUT_GATE holds PPS_OUT low now (TSU_CTRL). -/
def Tsu.gated (t : Tsu) : Bool :=
  let open' := t.phase == .freerun || (t.phase == .acquiring && !t.lockedOnce)
  (t.regs.outGate == 1 && open') || (t.regs.outGate == 2 && (open' || t.phase == .holdover))

/-- PPS_OUT goes low where OUT_GATE now holds it (R222). -/
def Run.gatePps (r : Run) : Run :=
  if r.tsu.ppsOut && r.tsu.gated then
    (r.modTsu fun t => { t with ppsOut := false }).emit (.ball .ppsOut .low)
  else r

/-- Whether the reference reports traceability to TAI (R212); none while nothing is heard of it. -/
def Tsu.reports (t : Tsu) : Option Bool :=
  match t.regs.src with
  | 1 => t.parent.map (·.traceable)
  | 2 | 3 => some (t.regs.irigCfExt && t.irig.traceable)
  | _ => some false

/-- TRACEABLE on entry to a state (R212).
DEDUCED, assumption 77: unsafe. -/
def Tsu.traceableIn (t : Tsu) : TsuPhase → Bool
  | .holdover | .freerun => false
  | .holdPending => t.traceable
  | .acquiring | .locked => t.reports.getD t.traceable

/-- The time unit enters a state (Table 6.2): TRACEABLE as R212 has it, LOCKED sets LOCKED_ONCE, and EV_TIME_STATE names the
old and new states and TQ. -/
def Run.enter (r : Run) (p : TsuPhase) : Run :=
  let old := r.tsu.phase
  if old = p then r
  else
    let r := r.modTsu fun t => { t with
      phase := p,
      traceable := t.traceableIn p,
      lockedOnce := t.lockedOnce || p == .locked,
      ranSinceLock := t.ranSinceLock || p == .locked,
      newRef := t.newRef && p != .locked }
    (r.raise { ev := .timeState, source := 192, data := [old.code, p.code, r.tsu.tq] }).gatePps.serviceDay

/-- FREERUN with LOCKED_ONCE clear (Table 6.2). A step of the counter does not end its run since LOCKED (R200).
DEDUCED, assumption 77: unsafe. -/
def Run.toFreerun (r : Run) : Run :=
  (r.modTsu fun t => { t with lockedOnce := false, servo := { t.servo with last := none, inThresh := 0, outlierRun := 0 } }).enter .freerun

/-- HOLD_PENDING: y := −I is frozen and the hold timer starts (Table 6.2). -/
def Run.toHold (r : Run) : Run :=
  let y := -r.tsu.servo.integ
  ((r.setRate y).modTsu fun t => { t with lossAt := some r.now, servo := { t.servo with yHold := y, inThresh := 0, outlierRun := 0 } }).enter .holdPending

/-- The reference is lost (R208, Table 6.2). -/
def Run.loseRef (r : Run) : Run :=
  match r.tsu.phase with
  | .locked => r.toHold
  | .acquiring =>
    let r := r.modTsu fun t => { t with lossAt := some r.now }
    if r.tsu.lockedOnce then (r.modServo fun v => { v with yHold := v.y, inThresh := 0 }).enter .holdover
    else r.toFreerun
  | _ => r

/-- The reference changes (R208): EV_REF_CHANGE; LOCKED goes to HOLD_PENDING (Table 6.2). -/
def Run.changeRef (r : Run) (gm : Nat) : Run :=
  let r := r.raise { ev := .refChange, source := 194, data := [r.tsu.regs.src, gm] }
  let r := r.modTsu fun t => { t with newRef := true, servo := { t.servo with inThresh := 0, outlierRun := 0 } }
  if r.tsu.phase = .locked then r.toHold else r

/-! ### Measurements (R202 to R206) -/

/-- A difference per second; over no time it has no stated value and is free (assumption 12, DESIGN CHOICE). -/
def Run.perSecond (r : Run) (x spanNs : Rat) : Run × Rat :=
  if spanNs = 0 then let (v, r) := r.takeFree 32; (r, (v.toInt : Rat)) else (r, x * 1000000000 / spanNs)

/-- The servo's update (R203), with the slew limit of R205.
DEDUCED, assumption 16: unsafe. -/
def Run.servoUpdate (r : Run) (theta at' : Rat) : Run :=
  let t := r.tsu
  match t.servo.last with
  | none => r.modServo fun v => { v with last := some (theta, at') }
  | some (_, before) =>
    let (r, rate) := r.perSecond theta (at' - before)
    let integ := t.servo.integ + (t.regs.ki : Rat) / 65536 * rate
    let y := -((t.regs.kp : Rat) / 65536 * rate + integ)
    let slew : Rat := t.regs.slewMax * 10000
    let y := if t.phase = .acquiring ∧ t.lockedOnce then clampRat (t.servo.yHold - slew) (t.servo.yHold + slew) y else y
    (r.modServo fun v => { v with integ := integ, last := some (theta, at') }).setRate y

/-- A measurement counts toward LOCK_COUNT; enough of them enter LOCKED (Table 6.2). -/
def Run.countInThresh (r : Run) (ref : RefId) (ok : Bool) : Run :=
  let n := if ok then r.tsu.servo.inThresh + 1 else 0
  let r := r.modServo fun v => { v with inThresh := n }
  if r.tsu.regs.lockCount ≤ n then (r.modTsu fun t => { t with ref := ref }).enter .locked else r

/-- The second measurement of an acquisition (R204): the rate, then the step of the counter, from whose last edge on seconds are
expected (R208).
DEDUCED, assumption 77: unsafe. -/
def Run.acquire (r : Run) (ref : RefId) (a b : Rat × Rat) : Run :=
  let (r, integ) := r.perSecond (b.1 - a.1) (b.2 - a.2)
  let step := -b.1
  let new := ((r.tsu.counter : Int) + roundRat (step * 2 ^ 32)).toNat
  let r := (r.modTsu fun t => { t with ref := ref, servo := { t.servo with integ := integ, inThresh := 0, last := some b } }).setRate (-integ)
  ((r.stepTo new (roundRat step)).modTsu fun t => { t with lastEdge := (roundRat b.2).toNat }).enter .acquiring

/-- A measurement against the reference held in LOCKED or HOLD_PENDING that R206 judges an outlier. -/
def Run.outlier (r : Run) (ref : RefId) : Run :=
  let n := r.tsu.servo.outlierRun + 1
  let r := r.modTsu fun t => { t with outliers := (t.outliers + 1) % 2 ^ 64, servo := { t.servo with outlierRun := n } }
  if n = 3 then r.changeRef ref.gm else r

/-- The TSU enters HOLDOVER once the hold timer has reached 10 s (R210).
DEDUCED, assumption 77: unsafe. -/
def Run.settleHold (r : Run) : Run :=
  match r.tsu.lossAt with
  | some t => if r.tsu.phase = .holdPending ∧ t + 10000000000 ≤ r.now then r.enter .holdover else r
  | none => r

/-- A measured offset against `ref`, taken at reference instant `at'` (R202 to R207, Table 6.2).
DEDUCED, assumption 77: unsafe. -/
def Run.measure (r : Run) (ref : RefId) (theta at' : Rat) : Run :=
  let r := r.settleHold.modServo fun v => { v with theta := theta }
  let t := r.tsu
  let ok := decide (absRat theta ≤ t.regs.lockThresh)
  let far := decide (10 * (t.regs.lockThresh : Rat) < absRat theta)
  if !t.regs.servoEn then r
  else match t.phase with
    | .freerun =>
      match t.servo.last with
      | none => r.modTsu fun t => { t with ref := ref, servo := { t.servo with last := some (theta, at') } }
      | some a => r.acquire ref a (theta, at')
    | .acquiring => (r.servoUpdate theta at').countInThresh ref ok
    | .locked =>
      if far then r.outlier ref
      else (r.modServo fun v => { v with outlierRun := 0 }).servoUpdate theta at'
    | .holdPending =>
      if t.newRef || ref != t.ref then
        (r.modServo fun v => { v with last := some (theta, at') }).countInThresh ref ok
      else if far then r.outlier ref
      else
        let r := r.modServo fun v => { v with outlierRun := 0 }
        if ok then (r.enter .locked).servoUpdate theta at'
        else r.modServo fun v => { v with last := some (theta, at') }
    | .holdover =>
      let r := r.modTsu fun t => { t with
        lastEdge := (roundRat (at' + theta)).toNat, servo := { t.servo with last := some (theta, at'), inThresh := 0 } }
      (r.enter .acquiring).countInThresh ref ok

/-! ### PTP -/

/-- The domain of the device (Table 6.3).
DEDUCED, assumption 78: unsafe. -/
def Tsu.domainOf (t : Tsu) : Nat := t.regs.domain.getD (if t.regs.profile = 1 then 254 else 0)

/-- The one PTP port of an ordinary clock (R215): the lowest port enabled.
DESIGN CHOICE, assumption 78: unsafe. -/
def TsuRegs.firstPort (g : TsuRegs) : Option Nat := (List.range 64).find? fun p => g.ptpPorts.contains p

/-- A port runs the protocol as a clock port (R215, R217): any port enabled of a boundary clock; of an ordinary clock its one
port, or both ports of the redundancy pair it lies on.
DEDUCED, assumption 78: unsafe. -/
def Run.ptpPort (r : Run) (port : Nat) : Bool :=
  let g := r.tsu.regs
  g.ptpPorts.contains port && g.role != 2 &&
    (g.role == 1 || g.firstPort == some port || (g.firstPort == some (port ^^^ 1) && tabGetD r.sw.redMode (port / 2) 0 != 0))

/-- A port is a PTP port that may become slave. -/
def Run.mayFollow (r : Run) (port : Nat) : Bool := r.ptpPort port && r.tsu.regs.src == 1

/-- UTC_OFFSET, LEAP_PENDING and LEAP_DIR follow the parent no longer, but the configuration and IRIG-B (R223).
DEDUCED, assumption 77: unsafe. -/
def Tsu.leavePtp (t : Tsu) : Tsu :=
  if t.regs.fromPtp then
    { t with regs := { t.regs with fromPtp := false, utcOffset := t.regs.utcConfig, leapPending := false, leapDir := false } }
  else t

/-- UTC_OFFSET, LEAP_PENDING and LEAP_DIR follow the parent (R223). -/
def Tsu.followParent (t : Tsu) (p : Parent) : Tsu :=
  if t.regs.src = 1 ∧ p.utcValid then
    { t with regs := { t.regs with fromPtp := true, utcOffset := p.utcOffset, leapPending := p.leap59 || p.leap61, leapDir := p.leap59 } }
  else t.leavePtp

/-- TRACEABLE while the reference reports it (R212): not in HOLDOVER or FREERUN. -/
def Tsu.setTraceable (t : Tsu) (b : Bool) : Tsu :=
  { t with traceable := b && t.phase != .freerun && t.phase != .holdover }

/-- SRC and CF_EXT take values: the values of a parent end when SRC leaves 1 (R223), a report of traceability ends with the
reference that gave it (R212), and edges are expected from now on where SRC changes (R208).
DEDUCED, assumption 77: unsafe. -/
def Tsu.changeSource (t : Tsu) (f : TsuRegs → TsuRegs) : Tsu :=
  let was := t.regs.src
  let t := { t with regs := f t.regs }
  let t := if t.regs.src = 1 then t else t.leavePtp
  let t := if t.regs.irigCfExt then t else { t with irig := { t.irig with noRef := false, traceable := false } }
  if was ≠ t.regs.src then { t with lastEdge := t.counter / 2 ^ 32 }.setTraceable (t.reports.getD false)
  else if t.regs.src = 1 then t
  else t.setTraceable (t.reports.getD false)

/-- The order of the best-master comparison: smaller fields are better (assumption 13, PRESUMED). -/
def betterRank : List Nat → List Nat → Bool
  | [], _ => false
  | _ :: _, [] => false
  | a :: s, b :: t => decide (a < b) || (a == b && betterRank s t)

/-- One data set is better than another (R214): of one grandmaster, the one fewer steps away from it, then the smaller sender,
then the lower port; of two, the better rank, then the smaller identity.
PRESUMED, assumption 13: unsafe. -/
def DataSet.better (a b : DataSet) : Bool :=
  if a.gm = b.gm then betterRank [a.steps, a.sender, a.port] [b.steps, b.sender, b.port]
  else betterRank (a.rank ++ [a.gm]) (b.rank ++ [b.gm])

/-- The data set of an Announce. -/
def dataSetOf (ref : RefId) (port : Nat) (rank : List Nat) : DataSet :=
  { rank := rank.take 5, gm := ref.gm, steps := rank.getD 5 0, sender := ref.parentPort, port := port }

/-- The data set of the parent. -/
def Parent.dataSet (p : Parent) : DataSet := dataSetOf p.ref p.port p.rank

/-- The clockIdentity of the device: its MAC address as an EUI-64.
PRESUMED, assumption 13: unsafe. -/
def clockIdentity : Nat :=
  Config.deviceMac / 2 ^ 24 * 2 ^ 40 + 0xFFFE000000 + Config.deviceMac % 2 ^ 24

/-- The clock class a grandmaster advertises (R215). -/
def Tsu.ownClass (t : Tsu) : Nat :=
  if t.regs.gmEn && (t.regs.src == 2 || t.regs.src == 3) then
    match t.phase with
    | .locked | .holdPending => 6
    | .holdover => 7
    | _ => 248
  else 248

/-- The device's own data set in the order of the comparison: PRIORITY1, class, accuracy and variance unknown, PRIORITY2, and
its identity (R214).
PRESUMED, assumption 13: unsafe. -/
def Tsu.ownRank (t : Tsu) : List Nat := [t.regs.priority1, t.ownClass, 0xFE, 0xFFFF, t.regs.priority2, clockIdentity]

/-- An Announce beats the device's own data set, which competes where the device may be master: with GM_EN, or as a boundary
clock.
PRESUMED, assumption 13: unsafe. -/
def Tsu.beatsOwn (t : Tsu) (rank : List Nat) (gm : Nat) : Bool :=
  !(t.regs.gmEn || t.regs.role == 1) || betterRank (rank.take 5 ++ [gm]) t.ownRank

/-- The best Announce a port has heard within the Announce receipt timeout. -/
def Run.heardOn (r : Run) (port : Nat) : Option DataSet :=
  match tabGet r.tsu.foreign port with
  | some (d, at') => if r.now < at' + 3000000000 then some d else none
  | none => none

/-- An Announce of the device's domain on a port that runs the protocol is kept where it is the best of the port, or of its sender.
PRESUMED, assumption 13: unsafe. -/
def Run.noteForeign (r : Run) (m : AnnounceMsg) : Run :=
  let d := dataSetOf m.ref m.port m.rank
  let best : Bool := match r.heardOn m.port with | some x => x.sender == d.sender || d.better x | none => true
  if r.ptpPort m.port && m.domain == r.tsu.domainOf && best then
    r.modTsu fun t => { t with foreign := tabSet t.foreign m.port (d, r.now) }
  else r

/-- An Announce is taken into the best-master algorithm (R214, R208).
PRESUMED, assumption 13: unsafe.
DEDUCED, assumption 77: unsafe. -/
def Run.announce (r : Run) (m : AnnounceMsg) : Run :=
  let r := r.noteForeign m
  let t := r.tsu
  if !r.mayFollow m.port || m.domain != t.domainOf then r
  else if !t.beatsOwn m.rank m.ref.gm then r
  else
    let p : Parent :=
      { ref := m.ref, port := m.port, traceable := m.traceable, utcOffset := m.utcOffset,
        utcValid := m.utcValid, leap59 := m.leap59, leap61 := m.leap61, announceAt := r.now, syncAt := r.now,
        clockClass := m.clockClass, rank := m.rank,
        profileTlv := if t.regs.profile = 1 then m.profileTlv else none }
    let take (r : Run) (p : Parent) : Run :=
      r.modTsu fun t => (Tsu.followParent { t with parent := some p, lastParent := some p.ref } p).setTraceable p.traceable
    match t.parent with
    | none =>
      let changed : Bool := match t.lastParent with | some x => x != m.ref | none => false
      if changed then (take r p).changeRef m.ref.gm else take r p
    | some old =>
      if old.port = m.port ∧ old.ref.parentPort = m.ref.parentPort then
        let r := take r { p with syncAt := old.syncAt }
        if old.ref.gm = m.ref.gm then r else r.changeRef m.ref.gm
      else if p.dataSet.better old.dataSet then (take r p).changeRef m.ref.gm
      else r

/-- meanLinkDelay of a port; 0 until it is measured (assumption 14, DESIGN CHOICE). -/
def Tsu.delayOf (t : Tsu) (port : Nat) : Rat := tabGetD t.linkDelay port 0

/-- A Sync from the parent (R202). -/
def Run.sync (r : Run) (m : SyncMsg) : Run :=
  match r.tsu.parent with
  | none => r
  | some p =>
    if p.port ≠ m.port ∨ p.ref.parentPort ≠ m.parentPort ∨ m.domain ≠ r.tsu.domainOf ∨ !r.mayFollow m.port then r
    else
      let r := r.modTsu fun t => { t with parent := some { p with syncAt := r.now } }
      let t2 : Rat := r.rxStamp m.port m.stamp
      let theta := t2 - m.origin - (m.correction : Rat) / 65536 - r.tsu.delayOf m.port
      r.measure p.ref theta (t2 - theta)

/-- The device serves from its own pulses (R215). -/
def Tsu.serves (t : Tsu) : Bool := t.regs.gmEn && (t.regs.src == 2 || t.regs.src == 3)

/-- What a master port announces (R214, R215): a grandmaster its own data set, a boundary clock that of its parent. -/
def Tsu.masterData (t : Tsu) : MasterData :=
  let tlv := t.regs.profile == 1
  match (if t.serves then none else t.parent) with
  | some p =>
    { domain := t.domainOf, gm := p.ref.gm, priority1 := p.rank.getD 0 128, clockClass := p.clockClass, priority2 := p.rank.getD 4 128,
      stepsRemoved := p.rank.getD 5 0 + 1, timeTraceable := p.traceable, utcOffset := t.regs.utcOffset, profileTlv := tlv }
  | none =>
    { domain := t.domainOf, gm := clockIdentity, priority1 := t.regs.priority1, clockClass := t.ownClass, priority2 := t.regs.priority2,
      stepsRemoved := 0, timeTraceable := t.traceable, utcOffset := t.regs.utcOffset, profileTlv := tlv }

/-- A better master has been heard on a port within the Announce receipt timeout.
PRESUMED, assumption 13: unsafe. -/
def Run.outranked (r : Run) (port : Nat) : Bool :=
  match r.heardOn port with
  | some d => betterRank (d.rank ++ [d.gm]) r.tsu.ownRank
  | none => false

/-- A port of a boundary clock is passive (R214): it hears the parent's grandmaster, from which the parent is better by the path
alone.
PRESUMED, assumption 13: unsafe. -/
def Run.passive (r : Run) (port : Nat) (p : Parent) : Bool :=
  match r.heardOn port with
  | some d => d.gm == p.ref.gm && (d.steps == p.dataSet.steps ||
      (d.steps == p.dataSet.steps + 1 && decide (d.sender / 65536 < clockIdentity)))
  | none => false

/-- A PTP port acts as master (R215): the device is a grandmaster and no better one is heard there, or a boundary clock with its
slave on another port and the port is not passive. -/
def Run.isMaster (r : Run) (port : Nat) : Bool :=
  r.ptpPort port &&
    ((r.tsu.serves && !r.outranked port) ||
     (r.tsu.regs.role == 1 && (match r.tsu.parent with | some p => p.port != port && !r.passive port p | none => false)))

/-- A frame of the protocol engine leaves on a port.
DEDUCED, assumption 78: unsafe. -/
def Run.sendPtp (r : Run) (port : Nat) (da : Nat) (len : Nat) (p : Payload) : Run :=
  let f : Frame := { da := da, sa := Config.deviceMac, etype := 0x88F7, len := len, stamp := r.now, payload := p }
  (r.modPort port (fun q => (q.count 16 1).count 17 len)).emit (.wire port f false)

/-! ### IRIG-B (R219 to R223) -/

/-- Days from 1970 to the start of a year. -/
def daysTo (year : Nat) : Nat :=
  let y := year - 1
  365 * (year - 1970) + (y / 4 - 1969 / 4) - (y / 100 - 1969 / 100) + (y / 400 - 1969 / 400)

/-- The label a frame gives in a year, in TAI seconds (R220). -/
def Tsu.labelIn (t : Tsu) (m : IrigMsg) (year : Nat) : Int :=
  (daysTo year * 86400 + m.secOfYear : Nat) - (if t.regs.irigLocal then m.localOffset else 0) + t.regs.utcOffset

/-- The year whose label is closest to the counter. -/
def Tsu.closestYear (t : Tsu) (m : IrigMsg) (nowSec : Nat) : Nat :=
  let guess := 1970 + nowSec / 31556952
  [guess, guess + 1, guess + 2].foldl (fun (best y : Nat) =>
    if (t.labelIn m y - nowSec).natAbs < (t.labelIn m best - nowSec).natAbs then y else best) (guess - 1)

/-- The label of a frame (R220). -/
def Tsu.label (t : Tsu) (m : IrigMsg) (nowSec : Nat) : Int :=
  t.labelIn m (if 4 ≤ m.format then m.year else t.closestYear m nowSec)

/-- A frame is valid: well formed and of an accepted format (TSU_IRIG).
DEDUCED, assumption 77: unsafe. -/
def Tsu.irigValid (t : Tsu) (m : IrigMsg) : Bool :=
  m.wellFormed && decide (m.format < 8) && (t.regs.irigAuto || m.format == t.regs.irigFormat)

/-- The whole second nearest to an instant in ns.
DEDUCED, assumption 77: unsafe. -/
def nearestSec (t : Nat) : Nat := (t + 500000000) / 1000000000

/-- A label is compared with the counter's second at its on-time point (R221).
DEDUCED, assumption 77: unsafe. -/
def Run.compareLabel (r : Run) (label : Int) (onTime : Nat) : Run :=
  if r.tsu.phase = .freerun then r
  else if label = nearestSec onTime then r.modTsu fun t => { t with irig := { t.irig with mismatchRun := 0 } }
  else
    let n := r.tsu.irig.mismatchRun + 1
    let r := r.modTsu fun t => { t with irigMismatch := (t.irigMismatch + 1) % 2 ^ 64, irig := { t.irig with mismatchRun := n } }
    let r := r.raise { ev := .irigError, source := 196, data := [2] }
    if n = 3 then r.changeRef 0 else r

/-- What the control-function extension changes (R212, R220, R223). -/
def Tsu.takeExtension (t : Tsu) (m : IrigMsg) : Tsu :=
  if t.regs.irigCfExt && m.hasControl then
    let t := if t.regs.fromPtp then t else { t with regs := { t.regs with leapPending := m.leapPending, leapDir := m.leapDir } }
    let t := { t with irig := { t.irig with noRef := m.quality == 15, traceable := m.quality == 0 } }
    if t.regs.src = 2 ∨ t.regs.src = 3 then t.setTraceable (m.quality == 0) else t
  else
    let t := { t with irig := { t.irig with noRef := false, traceable := false } }
    if t.regs.src = 2 ∨ t.regs.src = 3 then t.setTraceable false else t

/-- An edge of a pulse source within ±1 ms of a whole second is the reference event R208 expects.
DEDUCED, assumption 77: unsafe. -/
def Run.noteEdge (r : Run) (onTime : Nat) : Run :=
  let off := ((onTime : Int) - nearestSec onTime * 1000000000).natAbs
  if off ≤ 1000000 then r.modTsu fun t => { t with lastEdge := onTime } else r

/-- A complete IRIG-B frame (R219 to R221; with SRC 3 also R202). An invalid one ends the acceptance of the label.
DEDUCED, assumption 77: unsafe. -/
def Run.irigFrame (r : Run) (m : IrigMsg) : Run :=
  if !r.tsu.irigValid m then
    (r.modTsu fun t => { t with irig := { t.irig with prev := none, accepted := false } }).raise
      { ev := .irigError, source := 196, data := [1] }
  else
    let r := r.modTsu (·.takeExtension m)
    let label := r.tsu.label m (nearestSec m.onTime)
    let follows := match r.tsu.irig.prev with | some p => decide (label = (p : Int) + 1) | none => false
    let was := r.tsu.irig.accepted
    let r := r.modTsu fun t => { t with irig := { t.irig with prev := some label.toNat, accepted := t.irig.accepted || follows, fresh := true } }
    if !(was || follows) then r
    else
      let r := r.compareLabel label m.onTime
      if r.tsu.regs.src ≠ 3 ∨ r.tsu.irig.noRef then r
      else
        let at' : Rat := m.onTime
        let theta := at' - r.tsu.regs.inDelay - (label : Rat) * 1000000000
        (r.noteEdge m.onTime).measure {} theta (at' - theta)

/-- The whole TAI second an edge of PPS_IN marks (R202): that after the last label while labels are accepted; otherwise,
outside FREERUN, the nearest of the counter (assumption 15, DEDUCED). -/
def Tsu.edgeSecond (t : Tsu) (now : Instant) : Option Nat :=
  match t.irig.accepted, t.irig.prev with
  | true, some p => some (p + 1)
  | _, _ => if t.phase = .freerun then none else some (nearestSec now)

/-- An active edge of PPS_IN (R202, R218, R221). -/
def Run.ppsEdge (r : Run) : Run :=
  if r.tsu.regs.src ≠ 2 then r
  else
    let lost := r.tsu.irig.accepted && !r.tsu.irig.fresh
    let r := r.modTsu fun t => { t with irig :=
      { t.irig with fresh := false, accepted := t.irig.accepted && !lost, prev := if lost then none else t.irig.prev } }
    let r := if lost then r.raise { ev := .irigError, source := 196, data := [3] } else r
    if r.tsu.irig.noRef then r
    else
      let r := r.noteEdge r.now
      match r.tsu.edgeSecond r.now with
      | none => r
      | some s =>
        let edge : Rat := (r.now : Rat)
        let theta := edge - r.tsu.regs.inDelay - (s * 1000000000 : Nat)
        r.measure {} theta (edge - theta)

/-- The reference timeout has expired (R208): for PTP 3 Sync or Announce intervals of 1 s; for pulses 1 ms after an expected
whole second, and with SRC 3 once the frame of that second would have ended too. SRC 0 gives no edge.
DEDUCED, assumption 77: unsafe. -/
def Run.refTimedOut (r : Run) : Bool :=
  if r.tsu.regs.src = 1 then
    match r.tsu.parent with
    | some p => decide (p.syncAt + 3000000000 ≤ r.now) || decide (p.announceAt + 3000000000 ≤ r.now)
    | none => true
  else
    let frame := if r.tsu.regs.src = 3 then 1000000000 else 0
    decide ((nearestSec r.tsu.lastEdge + 1) * 1000000000 + 1000000 + frame ≤ r.now)

/-- The parent is forgotten when its Announce has timed out (Table 6.3). -/
def Run.dropParent (r : Run) : Run :=
  match r.tsu.parent with
  | some p => if p.announceAt + 3000000000 ≤ r.now then r.modTsu fun t => Tsu.leavePtp { t with parent := none } else r
  | none => r

/-- R208: the loss of the reference; a missed pulse is reported (EV_PPS_MISS). -/
def Run.referenceLoss (r : Run) : Run :=
  if !r.refTimedOut || !(r.tsu.phase == .locked || r.tsu.phase == .acquiring) then r.dropParent
  else
    let src := r.tsu.regs.src
    let r := if src = 2 ∨ src = 3 then
        r.raise { ev := .ppsMiss, source := 195, data := [((nearestSec r.tsu.lastEdge + 1 : Nat) : Int)] }
      else r
    r.loseRef.dropParent

/-- The sign of the leap (R223).
DEDUCED, assumption 77: unsafe. -/
def TsuRegs.leapStep (g : TsuRegs) : Int := if g.leapDir then -1 else 1

/-- The end of the UTC day, where UTC_OFFSET takes its new value (R223).
DEDUCED, assumption 77: unsafe. -/
def Run.leapDue (r : Run) : Bool :=
  let g := r.tsu.regs
  g.leapPending && ((secOf r.now : Int) - (g.utcOffset + g.leapStep)) % 86400 == 0

/-- A fall of SERVO_EN (Table 6.2, R207). -/
def Run.servoOff (r : Run) : Run := (r.modTsu fun t => { t with regs := { t.regs with servoEn := false } }).toFreerun

/-- A rise of SERVO_EN (R207): acquisition starts from FREERUN. -/
def Run.servoOn (r : Run) : Run :=
  r.modTsu fun t => { t with regs := { t.regs with servoEn := true }, servo := { t.servo with last := none, inThresh := 0, outlierRun := 0 } }

/-- The counter passed a whole second in its last tick. -/
def Run.onSecond (r : Run) : Bool :=
  decide (r.tsu.counter / (2 ^ 32 * 1000000000) ≠ ((r.tsu.counter + counterWrap - r.tsu.inc) % counterWrap) / (2 ^ 32 * 1000000000))

end Sys2Proof.Machine
end

