-- ==== Sys2Proof/Machine/Cellar.lean ====
section
/-! DEFINITION. The steps of chapter 16. -/

namespace Sys2Proof.Machine

/-- CELLAR_FLUSH_SECOND (R541): a whole TAI second passes with a record staged. -/
def execCellarFlushSecond (dt : Nat) (s : State) : Host.Outcome State Fault Refusal :=
  whenUp s fun _ r =>
    let r := r.pass dt
    if r.onSecond && r.cel.stage != [] then r.modCel (·.flush) else r

/-- CELLAR_FLUSH_DONE (R541 to R547): `tagErases` are the blocks of CEL_TAGS the flush erased, `err` an FLB address of the Cellar
that needed retries. While power fails a COMMIT in progress ends first (R542).
DESIGN CHOICE, assumption 79: unsafe. -/
def execCellarFlushDone (tagErases : Nat) (err : Option (Nat × Nat)) (dt : Nat) (s : State) :
    Host.Outcome State Fault Refusal :=
  whenUp s fun _ r =>
    let r := r.pass dt
    if !r.cel.flushing then r
    else
      let r := if r.cel.powerFail then r.endCommits else r
      let r := (r.flushOnce.count .flbErases tagErases).afterFlush
      match err with
      | some (a, n) => if flushAddress a then r.raise { ev := .celFlushErr, source := 803, data := [a, n] } else r
      | none => r

/-- STAGE_LOSS_RECORD (R543): the record has no source and is staged after the copy of its event (R539), but for the last free place. -/
def execStageLossRecord (dt : Nat) (s : State) : Host.Outcome State Fault Refusal :=
  whenUp s fun _ r =>
    let r := r.pass dt
    let n := r.cel.lostNow
    if n = 0 ∨ r.stageFull then r
    else
      let r := r.modCel fun c => { c with lostNow := 0 }
      let rec' : CelItem := { type := 4, time := r.now, data := [n] }
      let event : Raise := { ev := .celLoss, source := 800, data := [(n % 2 ^ 32 : Nat)] }
      if r.cel.stage.length = 4095 then (r.stage rec').raise event else (r.raise event).stage rec'

/-- CEL_READ (R546, R556): `bad` are the pages that FLB returns altered. -/
def execCelRead (c : Cmd) (start count : Nat) (bad : List Nat) (s : State) : Host.Outcome State Fault Refusal :=
  runCmd { op := 0x0C00, pf0 := true } c s fun _ r =>
    if count < 1 ∨ 65536 < count then (r, .status .range)
    else if start < r.cel.tail then (r, .status .window)
    else
      let l := (r.cel.ring.filter (fun x => decide (start ≤ x.seq))).take count
      (r.reportPages l bad,
       .done { buffer := l.flatMap fun x => x.fields (r.verdict bad x), bufLen := 72 * l.length })

/-- CEL_FLUSH (R541). -/
def execCelFlush (c : Cmd) (s : State) : Host.Outcome State Fault Refusal :=
  runCmd { op := 0x0C01, pf0 := true } c s fun _ r =>
    if r.cel.stage = [] ∧ !r.cel.flushing then (r, .ok)
    else (r.modCel fun k => { k.flush with flushWait := k.flushWait ++ [(c.fn, c.cseq)] }, .wait)

/-- CEL_CHALLENGE (R547 step 1). -/
def execCelChallenge (c : Cmd) (s : State) : Host.Outcome State Fault Refusal :=
  runCommand { op := 0x0C02, pf0 := true } c s fun _ sys r =>
    if r.srm.trngFail then (sys, r, .status .srmTrng)
    else
      let (v, r) := r.takeFree 128
      (sys, r.modCel fun k => { k with
         nonce := some (v, r.now + 300000000000), oldNonces := (k.nonce.toList.map (·.1)) ++ k.oldNonces },
       .done { result := [(v.toNat : Int), r.cel.logEpoch], buffer := [(sys.serial : Int)], bufLen := 16 })

/-- The nonce of CEL_CHALLENGE while it is valid. -/
def Run.celNonce (r : Run) : Option Nat :=
  match r.cel.nonce with
  | some (v, t) => if r.now ≤ t then some v.toNat else none
  | none => none

/-- What the checks of CEL_CLEAR say of a key and a signature (R547 step 2): a nonce that has expired, or that the signature shows to have
been replaced; a key that does not permit the function to clear the log, or a signature that does not verify. -/
def Run.clearCheck (r : Run) (fn : Nat) (k : Key) (msg : Nat → List Nat) (sig : Nat) : Option Status :=
  let signs (nonce : Nat) : Bool := Config.ecdsaVerify k.material (msg nonce) sig
  match r.celNonce with
  | none => some .celNonce
  | some nonce =>
    if !k.attr.testBit 37 || !r.srm.commandServes k fn 5 then some .auth
    else if signs nonce then none
    else if r.cel.oldNonces.any fun v => signs v.toNat then some .celNonce
    else some .auth

/-- CEL_CLEAR (R547). A limit that names no record held meets ST_RANGE (assumption 19, DESIGN CHOICE). -/
def execCelClear (c : Cmd) (slot limit sig : Nat) (s : State) : Host.Outcome State Fault Refusal :=
  runCommand { op := 0x0C03, pf0 := true, buf := true, need := some 96 } c s fun _ sys r =>
    if r.cel.clearing.isSome then (sys, r, .status .busy)
    else if limit < r.cel.tail ∨ r.cel.nextSeq ≤ limit then (sys, r, .status .range)
    else match r.srm.key slot with
      | none => (sys, r, .status .srmSlot)
      | some k =>
        if slot < 8 then (sys, r, .status .srmSlot) else
        let msg (nonce : Nat) := [label [0x43, 0x45, 0x4C, 0x43, 0x4C, 0x52], sys.serial, r.cel.logEpoch, nonce, limit]
        match r.clearCheck c.fn k msg sig with
        | some st => (sys, if r.srm.commandServes k c.fn 5 then r.srmCount 0 else r.srmCount 1, .status st)
        | none =>
          if r.srm.trngFail then (sys, r.srmCount 0, .status .srmTrng)
          else
            let w : ClearWait := { fn := c.fn, cseq := c.cseq, limit := limit, oldEpoch := r.cel.logEpoch, keyId := k.keyId, serial := sys.serial }
            let r := (r.srmCount 0).modCel fun k => { k with clearing := some w }
            (sys, if r.cel.stage = [] then r.clearStep w else r.modCel (·.flush), .wait)

/-! ### Ledger -/

/-- LGR_READ (R556): a VF reads device counters and those assigned to its instance. -/
def execLgrRead (c : Cmd) (first count : Nat) (s : State) : Host.Outcome State Fault Refusal :=
  runQuery { op := 0x0C04, pf0 := false } c s fun _ _ r =>
    let l := (List.range count).map (· + first)
    let open' (k : Nat) : Bool := c.fn == 0 || decide (k < 256) || tabGet r.lgr.owner k == some (c.fn - 1)
    if 4096 < first + count then .status .range
    else if !l.all open' then .status .denied
    else .done { buffer := l.map fun k => (r.lgr.value k : Int), bufLen := 8 * count }

/-- LGR_ASSIGN (R551). -/
def execLgrAssign (c : Cmd) (counter inst : Nat) (s : State) : Host.Outcome State Fault Refusal :=
  runCmd { op := 0x0C05, pf0 := true } c s fun _ r =>
    if counter < 256 ∨ 4096 ≤ counter ∨ 32 ≤ inst then (r, .status .range)
    else (r.modLgr fun l => { l with owner := tabSet l.owner counter inst }, .ok)

/-- LGR_ADD (R551, R556): an assignable counter of the instance the command targets.
DESIGN CHOICE, assumption 79: unsafe. -/
def execLgrAdd (c : Cmd) (counter n : Nat) (s : State) : Host.Outcome State Fault Refusal :=
  runCmd { op := 0x0C06, pf0 := false } c s fun a r =>
    let mine := match a.target with
      | some k => tabGet r.lgr.owner counter == some k
      | none => c.fn == 0
    if counter < 256 ∨ 4096 ≤ counter ∨ !mine then (r, .status .lgrOwner)
    else (r.ledgerAdd counter n, .ok)

/-- OPERATING_HOUR (R548): each 3,600 s of core power since the last power-up. -/
def execOperatingHour (dt : Nat) (s : State) : Host.Outcome State Fault Refusal :=
  whenUp s fun _ r =>
    let r := r.pass dt
    if r.ticks < r.lgr.powerAt + msTicks (3600000 * (r.lgr.hours + 1)) then r
    else (r.modLgr fun l => { l with hours := l.hours + 1 }).count .operatingHours

/-- TEMP_BIN_MINUTE (R548): the bin of the highest junction temperature, which is `tj` in 1/16 °C now (HKP_TEMP).
DEDUCED, assumption 92: unsafe. -/
def execTempBinMinute (tj : Int) (dt : Nat) (s : State) : Host.Outcome State Fault Refusal :=
  if s.sys.phase = .reset then .next s
  else
    let r := s.run.pass dt
    let sys := { s.sys with tj := tj, maxTj := max s.sys.maxTj tj }
    let due := decide (r.lgr.minuteAt + msTicks 60000 ≤ r.ticks)
    .next { s with sys := sys, run :=
      if due then (r.modLgr fun l => { l with minuteAt := r.ticks }).count (.tempBin (tempBin tj)) else r }

/-- SERVICE_DAY (R549). -/
def execServiceDay (dt : Nat) (s : State) : Host.Outcome State Fault Refusal :=
  whenUp s fun _ r => (r.pass dt).serviceDay

/-- LEDGER_WRITE (R553, R554): the entries due, to copy A and then to copy B; `copyB` false when power fails between. -/
def execLedgerWrite (copyB : Bool) (dt : Nat) (s : State) : Host.Outcome State Fault Refusal :=
  whenUp s fun _ r =>
    let r := r.pass dt
    match r.entriesDue with
    | [] => r
    | cs => r.writeEntries cs copyB

/-- LEDGER_WEAR_CHECK (R555).
DESIGN CHOICE, assumption 79: unsafe. -/
def execLedgerWearCheck (dt : Nat) (s : State) : Host.Outcome State Fault Refusal :=
  whenUp s fun _ r => (r.pass dt).wearCheck

end Sys2Proof.Machine
end

