-- ==== Sys2Proof/Machine/Float.lean ====
section
/-! DEFINITION. IEEE 754 binary32 and binary64 with rounding to nearest even, on bit patterns. -/

namespace Sys2Proof.Machine

/-- A format: fraction bits and exponent bias. -/
structure Fmt where
  frac : Nat
  bias : Nat
  deriving DecidableEq, Repr

/-- binary32. -/
def f32 : Fmt := { frac := 23, bias := 127 }

/-- binary64. -/
def f64 : Fmt := { frac := 52, bias := 1023 }

/-- The bits below the sign. -/
def Fmt.low (f : Fmt) : Nat := f.frac + if f.bias = 127 then 8 else 11

/-- The pattern of +∞. -/
def Fmt.infBits (f : Fmt) : Nat := 2 ^ f.low - 2 ^ f.frac

/-- What a pattern stands for. -/
inductive FVal where
  | nan
  | inf (neg : Bool)
  /-- A finite value; `neg` tells the two zeros apart. -/
  | fin (neg : Bool) (q : Rat)
  deriving DecidableEq, Repr

/-- 2 to an integer power. -/
def pow2 (e : Int) : Rat := if 0 ≤ e then ((2 ^ e.toNat : Nat) : Rat) else 1 / ((2 ^ (-e).toNat : Nat) : Rat)

/-- The value of a pattern. -/
def Fmt.decode (f : Fmt) (bits : Nat) : FVal :=
  let neg := bits.testBit f.low
  let mag := bits % 2 ^ f.low
  let e := mag / 2 ^ f.frac
  let m := mag % 2 ^ f.frac
  if f.infBits < mag then .nan
  else if mag = f.infBits then .inf neg
  else
    let q : Rat := if e = 0 then (m : Rat) * pow2 (1 - f.bias - f.frac)
      else ((2 ^ f.frac + m : Nat) : Rat) * pow2 ((e : Int) - f.bias - f.frac)
    .fin neg (if neg then -q else q)

/-- The least whole number not below a rational. -/
def ceilRat (x : Rat) : Int := -((-x).floor)

/-- The nearest integer to a non-negative rational, ties to even. -/
def nearestEven (q : Rat) : Nat :=
  let n := q.num.toNat
  let k := n / q.den
  let r := n % q.den
  if 2 * r < q.den then k else if q.den < 2 * r then k + 1 else if k % 2 = 0 then k else k + 1

/-- The nearest integer to a rational, ties to even. -/
def nearestEvenInt (q : Rat) : Int := if q < 0 then -(nearestEven (-q) : Int) else nearestEven q

/-- The exponent of a positive rational: the greatest e with 2^e at most it. -/
def floorLog2 (q : Rat) : Int :=
  let e : Int := (q.num.toNat.log2 : Int) - q.den.log2
  if pow2 (e + 1) ≤ q then e + 1 else if q < pow2 e then e - 1 else e

/-- A non-negative rational rounded to a pattern without sign. -/
def Fmt.roundMag (f : Fmt) (q : Rat) : Nat :=
  if q = 0 then 0
  else
    let e := max (floorLog2 q) (1 - f.bias)
    let m := nearestEven (q * pow2 (f.frac - e))
    let bits := (e + f.bias - 1).toNat * 2 ^ f.frac + m
    min bits f.infBits

/-- A rational rounded to a pattern; `neg` is the sign of a zero result. -/
def Fmt.round (f : Fmt) (neg : Bool) (q : Rat) : Nat :=
  if q < 0 then 2 ^ f.low + f.roundMag (-q)
  else if q = 0 then (if neg then 2 ^ f.low else 0)
  else f.roundMag q

/-- The pattern of a NaN. -/
def Fmt.nanBits (f : Fmt) : Nat := f.infBits + 2 ^ (f.frac - 1) + Config.nanPayload % 2 ^ (f.frac - 1)

/-- The pattern of a value. -/
def Fmt.encode (f : Fmt) : FVal → Nat
  | .nan => f.nanBits
  | .inf neg => (if neg then 2 ^ f.low else 0) + f.infBits
  | .fin neg q => f.round neg q

/-- The sign of a value. -/
def FVal.neg : FVal → Bool
  | .nan => false | .inf n => n | .fin n _ => n

/-- The opposite value. -/
def FVal.opp : FVal → FVal
  | .nan => .nan | .inf n => .inf (!n) | .fin n q => .fin (!n) (-q)

/-- The magnitude. -/
def FVal.abs : FVal → FVal
  | .nan => .nan | .inf _ => .inf false | .fin _ q => .fin false (if q < 0 then -q else q)

/-- The exact product; the caller rounds. -/
def FVal.mul : FVal → FVal → FVal
  | .nan, _ | _, .nan => .nan
  | .inf a, .inf b => .inf (a != b)
  | .inf a, .fin b q => if q = 0 then .nan else .inf (a != b)
  | .fin a q, .inf b => if q = 0 then .nan else .inf (a != b)
  | .fin a p, .fin b q => .fin (a != b) (p * q)

/-- The exact sum: an exact zero is +0 unless both terms are −0. -/
def FVal.add : FVal → FVal → FVal
  | .nan, _ | _, .nan => .nan
  | .inf a, .inf b => if a = b then .inf a else .nan
  | .inf a, .fin _ _ => .inf a
  | .fin _ _, .inf b => .inf b
  | .fin a p, .fin b q => .fin (if p = 0 ∧ q = 0 then a && b else decide (p + q < 0)) (p + q)

/-- The exact quotient. -/
def FVal.div : FVal → FVal → FVal
  | .nan, _ | _, .nan => .nan
  | .inf _, .inf _ => .nan
  | .inf a, .fin b _ => .inf (a != b)
  | .fin a _, .inf b => .fin (a != b) 0
  | .fin a p, .fin b q => if q = 0 then (if p = 0 then .nan else .inf (a != b)) else .fin (a != b) (p / q)

/-- A rational close enough to a square root that rounding it to 60 bits or fewer gives the rounded root: an integer root
with a sticky half. -/
def sqrtRat (q : Rat) : Rat :=
  let e := floorLog2 q
  let k : Nat := (140 - e).toNat / 2 + 1
  let s := q * ((4 ^ k : Nat) : Rat)
  let n := s.num.toNat / s.den
  let root := n.sqrt
  let exact := decide ((root * root : Nat) = s)
  (if exact then (root : Rat) else (root : Rat) + 1 / 2) / ((2 ^ k : Nat) : Rat)

/-- The square root, before rounding. -/
def FVal.sqrt : FVal → FVal
  | .nan => .nan
  | .inf n => if n then .nan else .inf false
  | .fin n q => if q < 0 then .nan else if q = 0 then .fin n 0 else .fin false (sqrtRat q)

/-- a < b; false with a NaN. -/
def FVal.lt : FVal → FVal → Bool
  | .nan, _ | _, .nan => false
  | .inf a, .inf b => a && !b
  | .inf a, .fin _ _ => a
  | .fin _ _, .inf b => !b
  | .fin _ p, .fin _ q => decide (p < q)

/-- a = b; false with a NaN. -/
def FVal.eq : FVal → FVal → Bool
  | .nan, _ | _, .nan => false
  | .inf a, .inf b => a == b
  | .fin _ p, .fin _ q => decide (p = q)
  | _, _ => false

/-- a ≤ b; false with a NaN. -/
def FVal.le (a b : FVal) : Bool := a.lt b || a.eq b

/-! ### binary32 -/

/-- The value of a binary32 pattern. -/
def val32 (w : Word) : FVal := f32.decode w.toNat

/-- A value rounded to binary32. -/
def to32 (v : FVal) : Word := BitVec.ofNat 32 (f32.encode v)

/-- A rational rounded to binary32.
DEDUCED, assumption 21: unsafe. -/
def rat32 (q : Rat) : Word := to32 (.fin false q)

/-- The value of a finite binary32 pattern; 0 of the others. -/
def ratOf32 (w : Word) : Rat := match val32 w with | .fin _ q => q | _ => 0

/-- Sum. -/
def add32 (a b : Word) : Word := to32 ((val32 a).add (val32 b))

/-- Difference. -/
def sub32 (a b : Word) : Word := to32 ((val32 a).add (val32 b).opp)

/-- Product. -/
def mul32 (a b : Word) : Word := to32 ((val32 a).mul (val32 b))

/-- Quotient. -/
def div32 (a b : Word) : Word := to32 ((val32 a).div (val32 b))

/-- Fused multiply-add a·b + c, rounded once. -/
def fma32 (a b c : Word) : Word := to32 (((val32 a).mul (val32 b)).add (val32 c))

/-- Magnitude. -/
def abs32 (a : Word) : Word := a &&& 0x7FFFFFFF

/-- Opposite. -/
def neg32 (a : Word) : Word := a ^^^ 0x80000000

/-- The larger of two values: the second where the first is a NaN. -/
def max32 (a b : Word) : Word := if (val32 a).lt (val32 b) || val32 a == .nan then b else a

/-- A NaN pattern. -/
def isNan32 (a : Word) : Bool := val32 a == .nan

/-- Integer saturated to a range, from a value divided by 2^e and rounded to nearest even: the integer, whether it
saturated or was a NaN, and whether it was a NaN (R284, R296). -/
def quantise (v : Word) (e : Int) (lo hi : Int) : Int × Bool × Bool :=
  match val32 v with
  | .nan => (0, true, true)
  | .inf n => (if n then lo else hi, true, false)
  | .fin _ q =>
    let z := nearestEvenInt (q / pow2 e)
    if z < lo then (lo, true, false) else if hi < z then (hi, true, false) else (z, false, false)

/-! ### binary64 -/

/-- The value of a binary64 pattern. -/
def val64 (w : Word64) : FVal := f64.decode w.toNat

/-- A value rounded to binary64. -/
def to64 (v : FVal) : Word64 := BitVec.ofNat 64 (f64.encode v)

/-- A rational rounded to binary64.
DEDUCED, assumption 21: unsafe. -/
def rat64 (q : Rat) : Word64 := to64 (.fin false q)

/-- The value of a finite binary64 pattern; 0 of the others. -/
def ratOf64 (w : Word64) : Rat := match val64 w with | .fin _ q => q | _ => 0

/-- The binary32 nearest to a binary64 value. -/
def narrow (w : Word64) : Word := to32 (val64 w)

/-- A binary32 value in binary64. -/
def widen (w : Word) : Word64 := to64 (val32 w)

/-- Sum. -/
def add64 (a b : Word64) : Word64 := to64 ((val64 a).add (val64 b))

/-- Difference. -/
def sub64 (a b : Word64) : Word64 := to64 ((val64 a).add (val64 b).opp)

/-- Product. -/
def mul64 (a b : Word64) : Word64 := to64 ((val64 a).mul (val64 b))

/-- Quotient. -/
def div64 (a b : Word64) : Word64 := to64 ((val64 a).div (val64 b))

/-- π to the precision of binary64. -/
def pi64 : Word64 := 0x400921FB54442D18

end Sys2Proof.Machine
end

