-- ==== Sys2Proof/Machine/CleVm.lean ====
section
/-! DEFINITION. The programs of the CLE: variables, instructions, timers and edge detectors (R426 to R435). -/

namespace Sys2Proof.Machine

/-! ### The variable area -/

/-- `n` bytes of a VA from an address, least significant first. -/
def vaRead (va : Tab Nat) (addr n : Nat) : Nat := (List.range n).foldr (fun i acc => tabGetD va (addr + i) 0 + 256 * acc) 0

/-- `n` bytes of a VA written. -/
def vaWrite (va : Tab Nat) (addr n v : Nat) : Tab Nat :=
  (List.range n).foldl (fun (t : Tab Nat) i => tabPut t (addr + i) (v / 256 ^ i % 256) 0) va

/-- The size of a type (Table 12.2); 0 for a code it does not list. -/
def cleSize : Nat → Nat
  | 1 => 1 | 3 => 4 | 6 => 4 | 7 => 8 | 0x10 => 32 | 0x11 => 32 | 0x12 => 32 | 0x13 => 1 | 0x14 => 1 | _ => 0

/-- The alignment of a type (Table 12.2). -/
def cleAlign : Nat → Nat
  | 3 => 4 | 6 => 4 | 7 => 8 | 0x10 => 8 | 0x11 => 8 | 0x12 => 8 | _ => 1

/-- A variable of a value type as a register holds it: a load of BOOL reads any non-zero byte as 1 (R427). -/
def vaLoad (va : Tab Nat) (type addr : Nat) : Nat :=
  if type = 1 then (if vaRead va addr 1 = 0 then 0 else 1) else vaRead va addr (cleSize type)

/-- A register stored to a variable: BOOL writes 0 or 1. -/
def vaStore (va : Tab Nat) (type addr v : Nat) : Tab Nat :=
  if type = 1 then vaWrite va addr 1 (v % 2) else vaWrite va addr (cleSize type) v

/-! ### Instructions -/

/-- The fields of an instruction word (Table 12.3). -/
structure CleWord where
  opc : Nat
  rd : Nat
  rs : Nat
  imm : Nat
  deriving DecidableEq, Repr

/-- An instruction word in its fields. -/
def cleWord (w : Word) : CleWord :=
  { opc := field w.toNat 31 26, rd := field w.toNat 25 22, rs := field w.toNat 21 18, imm := field w.toNat 15 0 }

/-- The cycles of an opcode (Table 12.4); a JT or JF not taken costs 1. -/
def cleCost (opc : Nat) (taken : Bool) : Nat :=
  match opc with
  | 0x00 => 1 | 0x01 => 2 | 0x0A => 3 | 0x0B => 3 | 0x14 => 3 | 0x15 => 20 | 0x18 => 3 | 0x19 => 3 | 0x1A => 3 | 0x1B => 14
  | 0x1D => 2 | 0x1E => 2 | 0x20 => 2 | 0x21 => 2 | 0x23 => 3 | 0x24 => 3 | 0x25 => 3 | 0x26 => 20 | 0x27 => 2
  | 0x28 => if taken then 2 else 1
  | 0x29 => if taken then 2 else 1
  | 0x2A => 8 | 0x2B => 8 | 0x2C => 8 | 0x2D => 3 | 0x2E => 3 | 0x2F => 2
  | n => if 0x02 ≤ n ∧ n ≤ 0x09 then 2 else 1

/-- What a cycle runs with. -/
structure VmEnv where
  code : List Word
  /-- The elements of the array declared at an address. -/
  count : Nat → Nat
  tc : Word64
  cycleTime : Nat
  cycleNo : Nat
  flags : Nat

/-- The state of a cycle that executes. -/
structure Vm where
  va : Tab Nat
  regs : Tab Word64 := []
  pc : Nat := 0
  cost : Nat
  deriving DecidableEq, Repr

/-- How execution ends. -/
inductive VmEnd where
  | ended | bound | overrun
  deriving DecidableEq, Repr

/-- A register. -/
def Vm.reg (m : Vm) (k : Nat) : Word64 := tabGetD m.regs k 0

/-- A register written. -/
def Vm.put (m : Vm) (k : Nat) (v : Word64) : Vm := { m with regs := tabPut m.regs k v 0 }

/-- A BOOL result. -/
def boolReg (b : Bool) : Word64 := if b then 1 else 0

/-- The low 32 bits of a register. -/
def low32 (v : Word64) : Word := v.setWidth 32

/-- A 32-bit result. -/
def wide32 (w : Word) : Word64 := w.setWidth 64

/-- A register read as BOOL. -/
def bit0 (v : Word64) : Bool := v.getLsbD 0

/-- DIV.I: truncated toward 0; RS = 0 gives 0; −2³¹ / −1 gives −2³¹. -/
def divI (a b : Word) : Word := if b = 0 then 0 else a.sdiv b

/-- A comparison by code: equal, less. -/
def compareBy (code : Nat) (eq lt gt : Bool) : Bool :=
  match code with
  | 0 => eq | 1 => !eq | 2 => lt | 3 => lt || eq | 4 => gt | _ => gt || eq

/-- R2I: nearest even, saturated; NaN gives 0.
DESIGN CHOICE, assumption 74: unsafe. -/
def realToInt (w : Word) : Word := BitVec.ofInt 32 (quantise w 0 (-(2 ^ 31)) (2 ^ 31 - 1)).1

/-- T2I: milliseconds, truncated toward 0, saturated.
DESIGN CHOICE, assumption 74: unsafe. -/
def timeToInt (t : Word64) : Word :=
  let z := t.toInt.tdiv 1000000
  BitVec.ofInt 32 (if z < -(2 ^ 31) then -(2 ^ 31) else if 2 ^ 31 - 1 < z then 2 ^ 31 - 1 else z)

/-- A timer at an address (R434): the VA after it, and Q.
DESIGN CHOICE, assumption 74: unsafe. -/
def cleTimer (opc : Nat) (va : Tab Nat) (a : Nat) (tc : Word64) (input : Bool) : Tab Nat × Bool :=
  let t64 (k : Nat) : Word64 := BitVec.ofNat 64 (vaRead va (a + k) 8)
  let pt : Word64 := if (t64 0).toInt < 0 then 0 else t64 0
  let et := t64 8
  let start := t64 16
  let flags := vaRead va (a + 24) 1
  let prev := flags.testBit 0
  let q := flags.testBit 1
  let run := flags.testBit 2
  let e (s : Word64) : Word64 := if (tc - s).toInt < pt.toInt then tc - s else pt
  let (start, et, q, run) : Word64 × Word64 × Bool × Bool :=
    if opc = 0x2A then
      if input then
        let s := if prev then start else tc
        (s, e s, decide (pt.toInt ≤ (e s).toInt), run)
      else (start, 0, false, run)
    else if opc = 0x2B then
      if input then (start, 0, true, run)
      else if q then
        let s := if prev then tc else start
        (s, e s, decide ((e s).toInt < pt.toInt), run)
      else (start, et, q, run)
    else
      let rises := input && !prev && !run
      let s := if rises then tc else start
      let run := run || rises
      if run then
        let q := decide ((e s).toInt < pt.toInt)
        (s, e s, q, q)
      else (s, if input then et else 0, false, run)
  let b (x : Bool) (k : Nat) : Nat := if x then k else 0
  let flags := flags / 8 * 8 + b input 1 + b q 2 + b run 4
  (vaWrite (vaWrite (vaWrite va (a + 8) 8 et.toNat) (a + 16) 8 start.toNat) (a + 24) 1 flags, q)

/-- An edge detector at an address (R435): the VA after it, and Q. -/
def cleEdge (rising : Bool) (va : Tab Nat) (a : Nat) (clk : Bool) : Tab Nat × Bool :=
  let s := vaRead va a 1
  let m := s.testBit 0
  let first := s.testBit 1
  let q := !first && (if rising then clk && !m else !clk && m)
  (vaWrite va a 1 (if clk then 1 else 0), q)

/-- A system item (Table 12.5). -/
def VmEnv.sys (e : VmEnv) (item : Nat) : Word64 :=
  match item with
  | 0 => BitVec.ofNat 64 (e.cycleNo % 2 ^ 32)
  | 1 => e.tc
  | 2 => BitVec.ofNat 64 e.cycleTime
  | _ => BitVec.ofNat 64 e.flags

/-- The result of an operation on registers alone (Table 12.4); none for the other opcodes. -/
def cleAlu (w : CleWord) (d s : Word64) (sel : Bool) : Option Word64 :=
  let x := low32 d
  let y := low32 s
  match w.opc with
  | 0x0C => some (wide32 ((BitVec.ofNat 16 w.imm).signExtend 32))
  | 0x0D => some s
  | 0x0E => some (boolReg (bit0 d && bit0 s))
  | 0x0F => some (boolReg (bit0 d || bit0 s))
  | 0x10 => some (boolReg (bit0 d != bit0 s))
  | 0x11 => some (boolReg (!bit0 s))
  | 0x12 => some (wide32 (x + y))
  | 0x13 => some (wide32 (x - y))
  | 0x14 => some (wide32 (x * y))
  | 0x15 => some (wide32 (divI x y))
  | 0x16 => some (wide32 (x &&& y))
  | 0x17 => some (wide32 (x ||| y))
  | 0x18 => some (wide32 (add32 x y))
  | 0x19 => some (wide32 (sub32 x y))
  | 0x1A => some (wide32 (mul32 x y))
  | 0x1B => some (wide32 (div32 x y))
  | 0x1C => some (wide32 (abs32 y))
  | 0x1D => some (d + s)
  | 0x1E => some (d - s)
  | 0x1F => some (boolReg (compareBy (w.imm % 8) (x == y) (decide (x.toInt < y.toInt)) (decide (y.toInt < x.toInt))))
  | 0x20 => some (boolReg (compareBy (w.imm % 8) ((val32 x).eq (val32 y)) ((val32 x).lt (val32 y)) ((val32 y).lt (val32 x))))
  | 0x21 => some (boolReg (compareBy (w.imm % 8) (d == s) (decide (d.toInt < s.toInt)) (decide (s.toInt < d.toInt))))
  | 0x22 => some (if sel then s else d)
  | 0x23 => some (wide32 (rat32 (y.toInt : Rat)))
  | 0x24 => some (wide32 (realToInt y))
  | 0x25 => some (y.signExtend 64 * 1000000)
  | 0x26 => some (wide32 (timeToInt s))
  | _ => none

/-- The type a load or store names. -/
def cleTypeOf (opc : Nat) : Nat :=
  match opc with
  | 0x02 => 1 | 0x03 => 3 | 0x04 => 6 | 0x05 => 7 | 0x06 => 1 | 0x07 => 3 | 0x08 => 6 | _ => 7

/-- One instruction: the state after it, or how execution ends. -/
def Vm.step (e : VmEnv) (m : Vm) (w : CleWord) : Except VmEnd Vm :=
  let d := m.reg w.rd
  let s := m.reg w.rs
  let next := { m with pc := m.pc + 1 }
  let index := (low32 s).toInt
  let inside := decide (0 ≤ index) && decide (index < (e.count w.imm : Int))
  let addr := w.imm + 4 * index.toNat
  match w.opc with
  | 0x01 => .error .ended
  | 0x0A => if inside then .ok (next.put w.rd (BitVec.ofNat 64 (vaRead m.va addr 4))) else .error .bound
  | 0x0B => if inside then .ok { next with va := vaWrite m.va addr 4 (low32 d).toNat } else .error .bound
  | 0x27 => .ok { m with pc := w.imm }
  | 0x28 => .ok (if bit0 d then { m with pc := w.imm } else next)
  | 0x29 => .ok (if bit0 d then next else { m with pc := w.imm })
  | 0x2D => let (va, q) := cleEdge true m.va w.imm (bit0 s); .ok ({ next with va := va }.put w.rd (boolReg q))
  | 0x2E => let (va, q) := cleEdge false m.va w.imm (bit0 s); .ok ({ next with va := va }.put w.rd (boolReg q))
  | 0x2F => .ok (next.put w.rd (e.sys w.imm))
  | n =>
    if 0x2A ≤ n ∧ n ≤ 0x2C then
      let (va, q) := cleTimer n m.va w.imm e.tc (bit0 s)
      .ok ({ next with va := va }.put w.rd (boolReg q))
    else if 0x02 ≤ n ∧ n ≤ 0x05 then .ok (next.put w.rd (BitVec.ofNat 64 (vaLoad m.va (cleTypeOf n) w.imm)))
    else if 0x06 ≤ n ∧ n ≤ 0x09 then .ok { next with va := vaStore m.va (cleTypeOf n) w.imm d.toNat }
    else match cleAlu w d s (bit0 (m.reg (w.imm % 16))) with
      | some v => .ok (next.put w.rd v)
      | none => .ok next

/-- A branch is taken. -/
def Vm.taken (m : Vm) (w : CleWord) : Bool := if w.opc = 0x28 then bit0 (m.reg w.rd) else !bit0 (m.reg w.rd)

/-- Execution from index 0 to END (Table 12.1): an instruction completes only within the budget; at END the cost of the
output phase must remain (R423). -/
def Vm.run (e : VmEnv) (budget outCost : Nat) : Nat → Vm → Vm × VmEnd
  | 0, m => (m, .overrun)
  | fuel + 1, m =>
    let w := match e.code[m.pc]? with | some x => cleWord x | none => { opc := 1, rd := 0, rs := 0, imm := 0 }
    let cost := m.cost + cleCost w.opc (m.taken w)
    if budget < cost then ({ m with cost := budget }, .overrun)
    else
      match Vm.step e { m with cost := cost } w with
      | .ok m => Vm.run e budget outCost fuel m
      | .error .ended => if budget < cost + outCost then ({ m with cost := cost }, .overrun) else ({ m with cost := cost + outCost }, .ended)
      | .error x => ({ m with cost := cost }, x)

end Sys2Proof.Machine
end

