-- ==== Sys2Proof/Machine/CleBase.lean ====
section
/-! DEFINITION. Access to the tasks of the CLE, and their events (R456). -/

namespace Sys2Proof.Machine

/-- What the CLE holds of instance `n`. -/
def Run.cleOf (r : Run) (n : Nat) : CleInst := tabGetD r.cle.insts n {}

/-- The CLE changed by `f`. -/
def Run.modCle (r : Run) (f : Cle → Cle) : Run := { r with cle := f r.cle }

/-- Instance `n` of the CLE changed by `f`. -/
def Run.modCleInst (r : Run) (n : Nat) (f : CleInst → CleInst) : Run :=
  r.modCle fun x => { x with insts := tabSet x.insts n (f (tabGetD x.insts n {})) }

/-- Task `i` of instance `n`. -/
def Run.task (r : Run) (n i : Nat) : Option TaskSt := tabGet (r.cleOf n).tasks i

/-- Task `i` of instance `n` changed by `f`. -/
def Run.modTask (r : Run) (n i : Nat) (f : TaskSt → TaskSt) : Run :=
  match r.task n i with
  | some t => r.modCleInst n fun x => { x with tasks := tabSet x.tasks i (f t) }
  | none => r

/-- A CLE event: on the source of the task's engine, to PF0, and to the VF of the instance (R456). -/
def Run.cleEvent (r : Run) (n i : Nat) (ev : Ev) (offset : Nat) (data : List Int) : Run :=
  match r.task n i with
  | some t => r.raiseInst n { ev := ev, source := 576 + 16 * t.task.engine + offset, data := (t.dev : Int) :: (i : Int) :: data }
  | none => r

end Sys2Proof.Machine
end

