-- ==== Sys2Proof/Machine/CflOps.lean ====
section
/-! DEFINITION. Confluence: placing samples, interpolation, decimation, filters, detectors (R263 to R300). -/

namespace Sys2Proof.Machine

/-- Confluence changed by `f`. -/
def Run.modCfl (r : Run) (f : Confluence → Confluence) : Run := { r with cfl := f r.cfl }

/-- Channel `s` changed by `f`. -/
def Run.modChan (r : Run) (s : Nat) (f : Chan → Chan) : Run :=
  match tabGet r.cfl.chans s with
  | some c => r.modCfl fun x => { x with chans := tabSet x.chans s (f c) }
  | none => r

/-- A stream changed by `f`. -/
def Run.modStream (r : Run) (i : Nat) (f : Stream → Stream) : Run :=
  match tabGet r.cfl.streams i with
  | some c => r.modCfl fun x => { x with streams := tabSet x.streams i (f c) }
  | none => r

/-- A device total (CFL_STAT) plus `n`. -/
def Run.cflTotal (r : Run) (k n : Nat) : Run := r.modCfl fun x => { x with stat := tabAdd x.stat k n }

/-- A counter of a channel by its code of R303, and the device total it adds to. -/
def Run.chanCount (r : Run) (s code : Nat) (total : Option Nat) (n : Nat := 1) : Run :=
  if n = 0 then r
  else
    let r := r.modChan s fun c => { c with stat := tabAdd c.stat code n }
    match total with
    | some k => r.cflTotal k n
    | none => r

/-- H of an instance in µs (R265). -/
def Confluence.h (x : Confluence) (n : Nat) : Nat := tabGetD x.horizon n 300

/-- The source of an instance's Confluence events (R304). -/
def cflSource (n : Nat) : Nat := 416 + n

/-- The base grid is Q (R264). -/
def Chan.onQ (c : Chan) : Bool := decide (12800 ≤ c.rate)

/-- The channels of an instance, by slot. -/
def Confluence.chansOf (x : Confluence) (n : Nat) : List (Nat × Chan) := x.chans.filter fun e => e.2.inst == n

/-! ### Grid instants (R263) -/

/-- The instant of Q tick `q`, in ns. -/
def qInstant (q : Nat) : Rat := (q : Rat) * 625000 / 9

/-- The instant of P tick `p`, in ns. -/
def pInstant (p : Nat) : Rat := qInstant (3 * p)

/-- The counter value of an instant plus µs, in units of 2⁻³² ns, rounded up. -/
def dueCounter (q hMicros : Nat) : Nat := (625000 * 2 ^ 32 * q + 8) / 9 + hMicros * 1000 * 2 ^ 32

/-- The counter as an exact instant in ns. -/
def Run.nowExact (r : Run) : Rat := (r.tsu.counter : Rat) / ((2 ^ 32 : Nat) : Rat)

/-! ### Placing samples (R269 to R274) -/

/-- The nominal instant of an index at a rate. -/
def nominal (rate i : Nat) : Rat := (i : Rat) * 1000000000 / rate

/-- A value kept with 32 fraction bits, nearest.
DEDUCED, assumption 84: unsafe. -/
def keep32 (x : Rat) : Rat := ((x * ((2 ^ 32 : Nat) : Rat) + 1 / 2).floor : Rat) / ((2 ^ 32 : Nat) : Rat)

/-- The code of a loop in parameter STATE and in EV_CFL_TRACK. -/
def loopCode : Option TrackLoop → Nat
  | none => 0
  | some l => if l.locked then 2 else 1

/-- A loop in ACQ with no sample.
DEDUCED, assumption 84: unsafe. -/
def TrackLoop.fresh (lat : Option Rat) : TrackLoop :=
  { locked := false, hasSample := false, sLast := 0, iLast := 0, period := 0, outliers := 0, lockRun := 0, lat := lat }

/-- The position of an index for a channel, and whether it is a tracked one (R269 to R273). -/
def Stream.place (s : Stream) (comp : Int) (i : Nat) : Rat × Bool :=
  let base : Bool × Option TrackLoop := match s.past.find? fun b => decide (i < b.below) || b.held.contains i with
    | some b => (b.tracked, b.loop)
    | none => (!s.synced, s.loop)
  match base.1, base.2 with
  | true, some l =>
    if l.hasSample then (l.sLast + ((i : Rat) - l.iLast) * l.period - comp, true) else (nominal s.rate i - comp, true)
  | t, _ => (nominal s.rate i - comp, t)

/-- A loop takes the place of a stream's, with EV_CFL_TRACK on a change of its state (R304). -/
def Run.setLoop (r : Run) (i : Nat) (s : Stream) (new : Option TrackLoop) : Run :=
  let old := loopCode s.loop
  let r := r.modStream i fun x => { x with loop := new }
  if loopCode new = old then r
  else
    let t : Rat := match new with
      | some l => if l.hasSample then l.period else 1000000000 / (s.rate : Rat)
      | none => 1000000000 / (s.rate : Rat)
    r.raise { ev := .cflTrack, source := cflSource s.inst, owner := some s.inst,
              data := [i, old, loopCode new, (t * ((2 ^ 32 : Nat) : Rat)).floor] }

/-- Procedure track (R270, R271): index `i` of a stream that is not synchronised, received at `tArr`.
DEDUCED, assumption 84: unsafe. -/
def Run.track (r : Run) (si : Nat) (i : Nat) (tArr : Instant) : Run :=
  match tabGet r.cfl.streams si with
  | none => r
  | some s =>
    let l := s.loop.getD (.fresh none)
    let nom : Rat := 1000000000 / (s.rate : Rat)
    let o : Rat := (tArr : Rat) - l.lat.getD (s.record.latEst : Rat)
    if !l.locked && !l.hasSample then
      r.setLoop si s (some { l with hasSample := true, sLast := keep32 o, iLast := i, period := keep32 nom })
    else
      let p := l.sLast + ((i : Rat) - l.iLast) * l.period
      let e := o - p
      if (s.record.outlier : Rat) < absRat e then
        let r := (r.modStream si fun x => { x with outliers := (x.outliers + 1) % 2 ^ 64 }).cflTotal 3 1
        if l.outliers + 1 = 5 then r.setLoop si s (some (.fresh l.lat))
        else r.setLoop si s (some { l with sLast := keep32 p, iLast := i, outliers := l.outliers + 1, lockRun := 0 })
      else
        let run := if absRat e ≤ (s.record.lock : Rat) then l.lockRun + 1 else 0
        let at' := keep32 (p + e * pow2 (-(s.record.a : Int)))
        let period := keep32 (clampRat (999 * nom / 1000) (1001 * nom / 1000) (l.period + e * pow2 (-(s.record.b : Int))))
        let locked := l.locked || decide (s.record.lockN ≤ run)
        r.setLoop si s (some { l with sLast := at', iLast := i, period := period, outliers := 0, lockRun := run, locked := locked })

/-- The indices at or above `i` of the entries that a stream's channels hold: in their rings or in the interpolator's history.
DEDUCED, assumption 84: unsafe. -/
def Confluence.heldFrom (x : Confluence) (si i : Nat) : List Nat :=
  x.chans.flatMap fun e =>
    if e.2.stream = si then
      (e.2.ring.map (·.index) ++ (e.2.hist.filter fun h => !h.2.substitute).map (·.1)).filter fun j => decide (i ≤ j)
    else []

/-- The stream's time base changes at `at'`: the entries held and every index below `i` keep the one they have (R273). The lists of earlier
bases are forgotten once their entries are 20 ms old, when none is held any more.
DEDUCED, assumption 84: unsafe. -/
def Stream.keepBase (s : Stream) (i : Nat) (held : List Nat) (at' : Instant) : Stream :=
  let loop := match s.loop with | some l => if !s.synced && l.hasSample then some l else none | none => none
  let base : TimeBase := { below := i, held := held.eraseDups, made := at', tracked := !s.synced, loop := loop }
  { s with past := s.past.drop (s.past.length - 127) ++ [base] }

/-- The lists of entries held at changes 20 ms ago are forgotten: none of them is held any more. -/
def Stream.settleBases (s : Stream) (at' : Instant) : Stream :=
  { s with past := s.past.map fun b => if b.made + 20000000 ≤ at' then { b with held := [] } else b }

/-- The time base of an accepted ASDU (R269, R272, R273): index `i` in second `sec`, received at `tArr`. -/
def Run.placeAsdu (r : Run) (si i : Nat) (tArr : Instant) (accepted : Bool) : Run :=
  let r := r.modStream si (·.settleBases tArr)
  let held (r : Run) (i : Nat) : List Nat := r.cfl.heldFrom si i
  match tabGet r.cfl.streams si with
  | none => r
  | some s =>
    if accepted then
      let tNom := nominal s.rate i
      let d := (tArr : Rat) - tNom
      let r := if s.synced then r
        else
          ((r.modStream si (·.keepBase i (held r i) tArr)).setLoop si s none).modStream si fun x => { x with synced := true, latObs := none }
      r.modStream si fun x =>
        let obs := match x.latObs with | none => d | some l => l + (d - l) / 64
        { x with latObs := some obs, lastSync := some (tNom, i) }
    else
      let r :=
        match s.synced, s.lastSync with
        | true, some (t, il) =>
          let period := keep32 (1000000000 / (s.rate : Rat))
          let l : TrackLoop := { TrackLoop.fresh s.latObs with locked := true, hasSample := true, sLast := keep32 t, iLast := il, period := period }
          ((r.modStream si (·.keepBase (il + 1) (held r (il + 1)) tArr)).setLoop si s (some l)).modStream si fun x => { x with synced := false }
        | _, _ => if s.loop.isNone then r.setLoop si s (some (.fresh none)) else r
      r.track si i tArr

/-- An index has been judged (R280, R282). -/
def Chan.wasJudged (c : Chan) (i : Nat) : Bool := c.judged.any fun a => decide (a.1 ≤ i) && decide (i < a.2)

/-- An index joins those judged: at the end of a range, or as a range of its own. -/
def addJudged : List (Nat × Nat) → Nat → List (Nat × Nat)
  | [], i => [(i, i + 1)]
  | a :: t, i => if a.2 = i then (a.1, i + 1) :: t else a :: addJudged t i

/-- An entry arrives at a channel's ring (R267): dropped where the ring is full, late where its sample has been judged (R282).
DEDUCED, assumption 84: unsafe. -/
def Run.pushEntry (r : Run) (slot : Nat) (e : RingEntry) : Run :=
  match tabGet r.cfl.chans slot with
  | none => r
  | some c =>
    if 32 ≤ c.ring.length then r.chanCount slot 3 (some 2)
    else if c.wasJudged e.index then r.chanCount slot 1 (some 0)
    else r.modChan slot fun c => { c with ring := c.ring ++ [e] }

/-! ### The interpolator (R275 to R279) -/

/-- Tap `j` of row `p` of prototype 0 (R276). -/
def cubicTap (p j : Nat) : Word :=
  let x : Rat := (p : Rat) / 512
  if j = 12 then rat32 (-((x + 1) * x * (x - 1) / 6))
  else if j = 13 then rat32 ((x + 2) * x * (x - 1) / 2)
  else if j = 14 then rat32 (-((x + 2) * (x + 1) * (x - 1) / 2))
  else if j = 15 then rat32 ((x + 2) * (x + 1) * x / 6)
  else 0

/-- h[p][j] of a prototype. -/
def Confluence.tap (x : Confluence) (proto p j : Nat) : Word :=
  if proto = 0 then cubicTap p j
  else (((tabGet x.protos proto).getD []).getD p []).getD j 0

/-- The greatest index of a window of 48 around `n` whose position is at most `t`. -/
def Stream.seek (s : Stream) (comp : Int) (t : Rat) (n : Int) : Int :=
  ((List.range 48).foldl (fun (best : Option Int) (k : Nat) =>
    let i : Int := n - 24 + (k : Int)
    if 0 ≤ i ∧ (s.place comp i.toNat).1 ≤ t then some i else best) none).getD n

/-- The index that a time base puts last at or before an instant. -/
def baseIndex (rate : Nat) (tracked : Bool) (loop : Option TrackLoop) (t : Rat) : Int :=
  match tracked, loop with
  | true, some l => if l.hasSample ∧ 0 < l.period then l.iLast + ((t - l.sLast) / l.period).floor else (t * rate / 1000000000).floor
  | _, _ => (t * rate / 1000000000).floor

/-- The index at an instant under the bases of a stream, the newest first: a base holds from its first index on, before which the base that it
followed does.
DEDUCED, assumption 84: unsafe. -/
def nearIndex (rate : Nat) (t : Rat) : List TimeBase → Int → Int
  | [], n => n
  | b :: older, n => if (b.below : Int) ≤ n then n else nearIndex rate t older (baseIndex rate b.tracked b.loop t)

/-- The index n and the 32 bits of φ (R275). -/
def Stream.locate (s : Stream) (comp : Int) (t : Rat) : Int × Nat :=
  let near := nearIndex s.rate (t + comp) s.past.reverse (baseIndex s.rate (!s.synced) s.loop (t + comp))
  let n := s.seek comp t near
  let a := (s.place comp n.toNat).1
  let b := (s.place comp (n + 1).toNat).1
  (n, if b ≤ a then 0 else min (2 ^ 32 - 1) ((t - a) / (b - a) * ((2 ^ 32 : Nat) : Rat)).floor.toNat)

/-- The worse of two validities (R299): good, questionable, invalid. -/
def worse (a b : Nat) : Nat := if a = 1 ∨ b = 1 then 1 else if a = 3 ∨ b = 3 then 3 else 0

/-- Two quality words joined: the worse validity and the OR of the bits [2] to [11], and of bit 16. -/
def joinQ (a b : Nat) : Nat := worse (a % 4) (b % 4) + 4 * ((a / 4) ||| (b / 4))

/-- Bits [6:0] of the quality word from SRCQ (Table 8.3). -/
def srcQuality (q : Nat) : Nat :=
  let v := q % 4
  let bit (b : Bool) (k : Nat) : Nat := if b then 2 ^ k else 0
  (if v = 2 then 1 else v) + bit (q.testBit 2) 2 + bit (q.testBit 4 || q.testBit 3) 3 + bit (q.testBit 5) 4 +
    bit (q.testBit 7) 5 + bit (q.testBit 8) 6

/-- INVALID or VALID of a channel changes: EV_CFL_CHAN at most once in 100 ms (R304). -/
def Run.chanState (r : Run) (slot : Nat) (inv : Bool) : Run :=
  match tabGet r.cfl.chans slot with
  | none => r
  | some c =>
    let changes := c.changes + 1
    let quiet := match c.eventAt with | some t => decide (r.now < t + 100000000) | none => false
    let at' := if quiet then c.eventAt else some r.now
    let r := r.modChan slot fun c => { c with invalid := inv, changes := if quiet then changes else 0, eventAt := at' }
    if quiet then r
    else r.raise { ev := .cflChan, source := cflSource c.inst, owner := some c.inst,
                   data := [slot, if inv then 1 else 0, changes % 65536] }

/-- Changes kept back by the limit of 100 ms are reported once it has passed (R304). -/
def Run.chanReport (r : Run) (slot : Nat) : Run :=
  match tabGet r.cfl.chans slot with
  | none => r
  | some c =>
    let due := match c.eventAt with | some t => decide (t + 100000000 ≤ r.now) | none => false
    if c.changes = 0 ∨ !due then r
    else
      (r.modChan slot fun c => { c with changes := 0, eventAt := some r.now }).raise
        { ev := .cflChan, source := cflSource c.inst, owner := some c.inst,
          data := [slot, if c.invalid then 1 else 0, c.changes % 65536] }

/-- A present sample is judged (R280, R283 step 3). -/
def Run.judgePresent (r : Run) (slot : Nat) (c : Chan) (e : RingEntry) : Run :=
  let r := r.modChan slot fun c => { c with
    ring := c.ring.filter (fun x => x.index != e.index),
    hist := tabSet c.hist e.index { value := e.value, srcq := e.srcq, substitute := false }, m := 0, g := c.g + 1,
    judged := addJudged c.judged e.index }
  if c.invalid && c.g + 1 == 4 then r.chanState slot false else r

/-- A missing sample is judged (R282, R283 steps 1, 2 and 5).
DEDUCED, assumption 84: unsafe. -/
def Run.judgeMissing (r : Run) (slot : Nat) (c : Chan) (i : Nat) : Run :=
  let m := c.m + 1
  let x : Word :=
    if m ≤ 2 then
      match (if i = 0 then none else tabGet c.hist (i - 1)), (if i < 2 then none else tabGet c.hist (i - 2)) with
      | some a, some b => fma32 0x40000000 a.value (neg32 b.value)
      | some a, none => a.value
      | none, some b => b.value
      | none, none => 0
    else c.sub2
  let r := (r.modChan slot fun c => { c with
    ring := c.ring.filter (fun e => e.index != i),
    hist := tabSet c.hist i { value := x, srcq := 0, substitute := true }, m := m, g := 0, judged := addJudged c.judged i,
    sub2 := if m = 2 then x else c.sub2 }).chanCount slot 2 (some 1)
  if m = 3 ∧ !c.invalid then r.chanState slot true else r

/-- The samples of `need` that have not been judged are judged, ascending; `cut` is the cut-off (R280).
DEDUCED, assumption 84: unsafe. -/
def Run.judge (r : Run) (slot : Nat) (need : List Nat) (cut : Rat) : Run :=
  need.foldl (fun (r : Run) i =>
    match tabGet r.cfl.chans slot with
    | none => r
    | some c =>
      if c.wasJudged i then r
      else match c.ring.find? (fun e => e.index == i) with
        | some e => if (e.arrived : Rat) ≤ cut then r.judgePresent slot c e else r.judgeMissing slot c i
        | none => r.judgeMissing slot c i) r

/-- The interpolator output of base-grid tick `q` (counted on grid Q): value and quality bits [11:0] (R275 to R283, R299). History that no
tick needs any more goes, and so do entries that are behind every need and 10 ms old.
DEDUCED, assumption 84: unsafe. -/
def Run.interpolate (r : Run) (slot q hMicros : Nat) : Run × Word × Nat :=
  match tabGet r.cfl.chans slot with
  | none => (r, 0, 1)
  | some c =>
    match tabGet r.cfl.streams c.stream with
    | none => (r, 0, 1)
    | some s =>
      let comp := c.record.delayComp
      let (n, phi) := s.locate comp (qInstant q - c.record.alignDelay)
      let p := phi / 2 ^ 23
      let beta := rat32 (((phi % 2 ^ 23 : Nat) : Rat) / ((2 ^ 23 : Nat) : Rat))
      let x := r.cfl
      let taps := (List.range 16).map fun j =>
        let h0 := x.tap c.record.proto p j
        let h1 := x.tap c.record.proto (p + 1) j
        (j, h0, h1)
      let needed := taps.filter fun (_, h0, h1) =>
        !((val32 h0).eq (.fin false 0)) || (beta != 0 && !((val32 h1).eq (.fin false 0)))
      let idx (j : Nat) : Nat := (n - 14 + j).toNat
      let cut := qInstant q + hMicros * 1000 - 4000
      let r := r.judge slot (needed.map fun t => idx t.1) cut
      match tabGet r.cfl.chans slot with
      | none => (r, 0, 1)
      | some c =>
        let sample (i : Nat) : Judged := tabGetD c.hist i { value := 0, srcq := 1, substitute := true }
        let y := needed.foldl (fun (y : Word) (t : Nat × Word × Word) =>
          fma32 (fma32 beta (sub32 t.2.2 t.2.1) t.2.1) (sample (idx t.1)).value y) 0
        let places := needed.map fun t => (s.place comp (idx t.1)).2
        let base := needed.foldl (fun (a : Nat) (t : Nat × Word × Word) =>
          let z := sample (idx t.1)
          joinQ a ((if z.substitute then 128 else srcQuality z.srcq))) 0
        let est := if places.any id then 256 else 0
        let both := if places.any id && places.any (!·) then 512 else 0
        let acq := !s.synced && (match s.loop with | some l => !l.locked | none => true)
        let quality := joinQ base (est + both + if c.invalid || acq then 1 else 0)
        let low := (n - 40).toNat
        let hist := c.hist.filter (fun e => decide (low ≤ e.1) && decide ((e.1 : Int) ≤ n + 40))
        let ring := c.ring.filter (fun e => decide (low ≤ e.index) || decide (qInstant q < e.arrived + 10000000))
        (r.modChan slot fun c => { c with hist := hist, ring := ring }, y, quality)

/-! ### Decimation (R284 to R289) -/

/-- One input enters the integrators (R285). -/
def Cic.push (d : Cic) (n : Nat) (x : Int) : Cic :=
  let start := bitsOfInt 64 x
  let sums := ((List.range n).foldl (fun (acc : List Nat × Nat) m =>
    let v := (d.integ.getD m 0 + acc.2) % 2 ^ 64
    (acc.1 ++ [v], v)) ([], start)).1
  { d with integ := sums, fed := d.fed + 1 }

/-- The combs give one output (R285): a signed 64-bit number. -/
def Cic.take (d : Cic) (n : Nat) : Cic × Int :=
  let (combs, out) := (List.range n).foldl (fun (acc : List Nat × Nat) m =>
    (acc.1 ++ [acc.2], (acc.2 + 2 ^ 64 - d.comb.getD m 0) % 2 ^ 64)) ([], d.integ.getD (n - 1) 0)
  ({ d with comb := combs }, signedOf 64 out)

/-- The output of a decimator of order `n` and ratio `ratio` scaled back by 2^L (R285). -/
def cicScale (out l : Int) (n ratio : Nat) : Word := mul32 (rat32 out) (rat32 (pow2 l / ((ratio ^ n : Nat) : Rat)))

/-- The quality bits a quantisation adds: OVERRANGE, and bit 16 for a NaN (R284, R299). -/
def quantBits (sat nan : Bool) : Nat := (if sat then 1024 else 0) + (if nan then 65536 else 0)

/-! ### FIR and banks (R290 to R293) -/

/-- The set a bank of a channel names, where it names one that has been written (R290). -/
def Confluence.setOf (x : Confluence) (c : Chan) (bankB : Bool) : Option CoefSet :=
  let n := if bankB then c.record.setB else c.record.setA
  if n = 0xFFFF then none else tabGet x.coefs (32 * c.inst + n)

/-- The output of a bank: h_j u[k − j] summed from j = T − 1 down to 0 (R290). -/
def firOut (set : Option CoefSet) (line : List Word) : Word :=
  match set with
  | none => line.getD 0 0
  | some s => (List.range s.taps.length).foldr (fun j (acc : Word) => fma32 (s.taps.getD j 0) (line.getD j 0) acc) 0

/-- The bank that CHAN_DELAY follows: the target of a fade, or the active one. -/
def Chan.delayBank (c : Chan) : Bool := match c.fade with | some f => f.toB | none => c.bankB

/-- CHAN_DELAY in ns (R293). -/
def Confluence.chanDelay (x : Confluence) (c : Chan) : Nat :=
  c.record.alignDelay + (if c.onQ then c.record.np * 69444 else 0) +
    (match x.setOf c c.delayBank with | some s => s.delay | none => 0)

/-- T of the banks whose output stands in the P output. -/
def Confluence.tapsOf (x : Confluence) (c : Chan) : Nat :=
  let t (b : Bool) : Nat := match x.setOf c b with | some s => s.taps.length | none => 0
  max (max 1 (t c.bankB)) (match c.fade with | some f => t f.toB | none => 0)

/-- EV_CFL_BANK (R304). -/
def Run.bankEvent (r : Run) (slot inst cause : Nat) (toB : Bool) : Run :=
  r.raise { ev := .cflBank, source := cflSource inst, owner := some inst, data := [slot, cause, if toB then 1 else 0] }

/-- A bank select request (R291): 0 taken or without effect, 1 queued, 2 queued in place of another. -/
def Run.bankRequest (r : Run) (slot : Nat) (toB : Bool) (len : Nat) : Run × Nat :=
  match tabGet r.cfl.chans slot with
  | none => (r, 0)
  | some c =>
    if c.fade.isSome then
      match c.queued with
      | some (old, _) =>
        (((r.modChan slot fun c => { c with queued := some (toB, len) }).cflTotal 6 1).bankEvent slot c.inst 3 old, 2)
      | none => (r.modChan slot fun c => { c with queued := some (toB, len) }, 1)
    else if toB = c.bankB then (r, 0)
    else (r.modChan slot fun c => { c with fade := some { toB := toB, len := len, at' := 0 } }, 0)

/-- The FIR stage at one P tick (R290, R291): the output y.
DEDUCED, assumption 84: unsafe. -/
def Run.fir (r : Run) (slot : Nat) (u : Word) : Run × Word :=
  match tabGet r.cfl.chans slot with
  | none => (r, u)
  | some c =>
    let line := (u :: c.line).take 64
    let r := r.modChan slot fun c => { c with line := line }
    let yOld := firOut (r.cfl.setOf c c.bankB) line
    match c.fade with
    | none => (r, yOld)
    | some f =>
      let r := if f.at' = 0 then r.bankEvent slot c.inst 1 f.toB else r
      let yNew := firOut (r.cfl.setOf c f.toB) line
      let j := f.at' + 1
      if f.len ≤ j then
        let r := (r.modChan slot fun c => { c with bankB := f.toB, fade := none, queued := none }).bankEvent slot c.inst 2 f.toB
        match c.queued with
        | some (b, len) =>
          if b ≠ f.toB then (r.modChan slot fun c => { c with fade := some { toB := b, len := len, at' := 0 } }, yNew)
          else (r.bankEvent slot c.inst 4 b, yNew)
        | none => (r, yNew)
      else
        (r.modChan slot fun c => { c with fade := some { f with at' := j } },
         fma32 (rat32 ((j : Rat) / f.len)) (sub32 yNew yOld) yOld)

/-! ### DC blocking and detectors (R294 to R296) -/

/-- DC blocking (R294): the new dc and the output. -/
def dcBlock (c : Chan) (y : Word) (hold : Bool) : Word64 × Word :=
  let dc := if hold then c.dc
    else add64 c.dc (mul64 (rat64 (pow2 (-(c.record.dcK : Int)))) (sub64 (widen y) c.dc))
  (dc, to32 ((val32 y).add (val64 dc).opp))

/-- The peak detector (R295). -/
def peakStep (c : Chan) (x : Word) : Word :=
  max32 (abs32 x) (mul32 c.peak (rat32 (1 - pow2 (-(c.record.peakK : Int)))))

/-- The envelope detector (R295). -/
def envStep (c : Chan) (x : Word) : Word :=
  let k := if (val32 c.env).le (val32 (abs32 x)) then c.record.attack else c.record.release
  add32 c.env (mul32 (rat32 (pow2 (-(k : Int)))) (sub32 (abs32 x) c.env))

/-- The RMS detector (R296): the history with r[n] in it, RMS and RMS_QUALITY. `q` is the quality of the P output.
DEDUCED, assumption 84: unsafe. -/
def rmsStep (c : Chan) (x : Word) (q : Nat) : List RmsWord × Word × Nat × Bool :=
  let w := c.record.rmsW
  let (z, sat, nan) := quantise x (c.record.l + 8) (-(2 ^ 23)) (2 ^ 23 - 1)
  let own := (if nan then 1 else worse (q % 4) (if sat then 3 else 0)) + (if q.testBit 7 then 128 else 0)
  let hist := ({ r := z, quality := own } :: c.rms).take w
  let sum : Nat := (hist.foldl (fun (a : Int) h => a + h.r * h.r) 0).toNat % 2 ^ 64
  let root := to32 ((val32 (rat32 ((sum : Rat) / w))).sqrt)
  let rms := mul32 root (rat32 (pow2 (c.record.l + 8)))
  let joined := hist.foldl (fun a h => joinQ a h.quality) 0
  let bits := (q / 4) * 4 ||| (if joined.testBit 7 then 128 else 0) ||| (if sat then 1024 else 0)
  let v := worse (joined % 4) (if hist.length < w then 1 else 0)
  (hist, rms, bits + v, sat)

/-! ### One tick of one channel -/

/-- TQ of a grid instant, in bits [15:12] (R213). -/
def Run.tqBits (r : Run) (q : Nat) : Nat := 4096 * r.tsu.tqAt ((qInstant q).floor.toNat)

/-- The bits a span gives a P output (R299), with the rules on OVERRANGE, SETTLING and NaN.
DEDUCED, assumption 84: unsafe. -/
def spanQuality (span : List Nat) (settling : Bool) : Nat :=
  let j := span.foldl joinQ 0
  let bits := (j / 4) % 1024 * 4 + (if settling ∧ !j.testBit 11 then 2048 else 0)
  let v := j % 4
  let v := if bits.testBit 10 then worse v 3 else v
  bits + (if bits.testBit 11 || j.testBit 16 then 1 else v)

/-- A channel on grid Q at Q tick `q`: its Q output, and D_P takes the value (R284, R285, R297). -/
def Run.qTick (r : Run) (slot q hMicros : Nat) : Run :=
  let (r, y, bits) := r.interpolate slot q hMicros
  match tabGet r.cfl.chans slot with
  | none => r
  | some c =>
    let (z, sat, nan) := quantise y c.record.l (-(2 ^ 31)) (2 ^ 31 - 1)
    let out : QOut := { tick := q, value := y, quality := bits + r.tqBits q }
    let r := r.modChan slot fun c => { c with
      qRing := (out :: c.qRing).take 24, dp := c.dp.push c.record.np z,
      span := (joinQ bits (quantBits sat nan) :: c.span).take 201 }
    if sat then r.chanCount slot 5 (some 5) else r

/-- D_R takes the P output of tick `p` and gives an output where its phase counter is 0 (R287, R289).
DEDUCED, assumption 84: unsafe. -/
def Run.reduce (r : Run) (slot p : Nat) (value : Word) (quality : Nat) : Run :=
  match tabGet r.cfl.chans slot with
  | none => r
  | some c =>
    let n := c.record.nr
    let (z, sat, nan) := quantise value c.record.l (-(2 ^ 31)) (2 ^ 31 - 1)
    let d := c.dr.push n z
    let spanned := (joinQ (quality % 4096) (quantBits sat nan) :: c.pSpan).take (n * (c.record.rr - 1) + 1)
    let phase := (c.drPhase + 1) % c.record.rr
    let r := if sat then r.chanCount slot 5 (some 5) else r
    if c.drPhase = 0 then
      let (d, out) := d.take n
      let e : QOut := { tick := c.drCount % 65536, value := cicScale out c.record.l n c.record.rr,
                        quality := spanQuality spanned (decide (d.fed < n * c.record.rr)) + r.tqBits (3 * p) }
      r.modChan slot fun c => { c with
        dr := d, drPhase := phase, drCount := c.drCount + 1, pSpan := spanned, rRing := (e :: c.rRing).take 2 }
    else r.modChan slot fun c => { c with dr := d, drPhase := phase, pSpan := spanned }

/-- A channel at P tick `p`: its P output (R285 to R300).
DEDUCED, assumption 84: unsafe. -/
def Run.pTick (r : Run) (slot p hMicros : Nat) : Run :=
  match tabGet r.cfl.chans slot with
  | none => r
  | some c =>
    let (r, u, settling) : Run × Word × Bool :=
      if c.onQ then
        let (d, out) := c.dp.take c.record.np
        (r.modChan slot fun c => { c with dp := d }, cicScale out c.record.l c.record.np 3,
         decide (d.fed < 3 * c.record.np))
      else
        let (r, y, bits) := r.interpolate slot (3 * p) hMicros
        (r.modChan slot fun c => { c with span := (bits :: c.span).take 201 }, y, false)
    match tabGet r.cfl.chans slot with
    | none => r
    | some c =>
      let taps := r.cfl.tapsOf c
      let len := if c.onQ then 3 * (c.record.np + taps - 1) else taps
      let flags := (settling :: c.settling).take 64
      let r := r.modChan slot fun c => { c with settling := flags }
      let quality := spanQuality (c.span.take len) ((flags.take taps).any id) + r.tqBits (3 * p)
      let delay := r.cfl.chanDelay c
      let (r, y) := r.fir slot u
      let (dc, x) := if c.record.dcEn then dcBlock c y (c.dcHold || quality % 4 == 1) else (c.dc, y)
      let peak := if c.record.peakEn then peakStep c x else 0
      let env := if c.record.envEn then envStep c x else 0
      let (hist, rms, rq, sat) := if c.record.rmsEn then rmsStep c x quality else ([], 0, 0, false)
      let out : POut := { tick := p, value := x, quality := quality, peak := peak, rms := rms, envelope := env,
                          rmsQuality := rq, delay := delay }
      let r := r.modChan slot fun c => { c with
        dc := dc, peak := peak, env := env, rms := hist, pRing := (out :: c.pRing).take 8 }
      let r := if c.record.drEn then r.reduce slot p x quality else r
      let r := if sat then r.chanCount slot 5 (some 5) else r
      let r := if c.invalid then r.chanCount slot 4 (some 4) else r
      r.chanReport slot

/-- The P output of a slot at a tick, where its ring still holds it (R297). -/
def Confluence.pOut (x : Confluence) (slot tick : Nat) : Option POut :=
  match tabGet x.chans slot with
  | some c => c.pRing.find? (fun o => o.tick == tick)
  | none => none

/-! ### DEC_SYNC (R288) -/

/-- The pending request's tick has come: EV_DEC_SYNC with cause 1.
DEDUCED, assumption 84: unsafe. -/
def Run.settleDecSync (r : Run) : Run :=
  if r.cfl.dsPending ∧ pInstant r.cfl.dsTick ≤ r.nowExact then
    (r.modCfl fun x => { x with dsPending := false }).raise
      { ev := .decSync, source := 385, data := [1, r.cfl.dsTick / 4800, r.cfl.dsTick % 4800] }
  else r

/-- The first P tick at least 200 µs after an instant. -/
def decSyncTick (t : Instant) : Nat := (3 * (t + 200000) + 624999) / 625000

/-- A request for an instant: taken with its tick, or ignored while one waits. -/
def Run.decSyncRequest (r : Run) (t : Instant) : Run × Bool :=
  let r := r.settleDecSync
  let k := decSyncTick t
  if r.cfl.dsPending then
    (r.raise { ev := .decSync, source := 385, data := [2, r.cfl.dsTick / 4800, r.cfl.dsTick % 4800] }, false)
  else (r.modCfl fun x => { x with dsTick := k, dsPending := true, dsTicks := (x.dsTicks ++ [k]).drop (x.dsTicks.length - 63) }, true)

/-- Every register of D_P and D_R and the D_R phase counter set to 0. -/
def Chan.decReset (c : Chan) : Chan := { c with dp := {}, dr := {}, drPhase := 0 }

/-- Before Q tick `q` of instance `n`, the requests that take effect by it are applied. -/
def Run.applyDecSync (r : Run) (n q : Nat) : Run :=
  let done := tabGetD r.cfl.dsDone n 0
  match (r.cfl.dsTicks.filter fun d => decide (done < d) && decide (3 * d ≤ q + 2)).max? with
  | none => r
  | some d =>
    let r := r.settleDecSync
    r.modCfl fun x => { x with
      dsDone := tabSet x.dsDone n d,
      chans := x.chans.map fun (e : Nat × Chan) => if e.2.inst = n then (e.1, e.2.decReset) else e }

/-! ### Start (R283 step 5, R294) -/

/-- A channel as it starts when its instance enters ACTIVE. -/
def Chan.started (c : Chan) : Chan :=
  { inst := c.inst, stream := c.stream, rate := c.rate, record := c.record, dcHold := c.record.dcHold,
    bankB := c.bankB, fade := c.fade, queued := c.queued, stat := c.stat, eventAt := c.eventAt, changes := c.changes }

/-- A stream as it starts. -/
def Stream.started (s : Stream) : Stream :=
  { inst := s.inst, rate := s.rate, record := s.record, outliers := s.outliers }

/-- Confluence starts for an instance that enters ACTIVE: its channels, its streams and its next tick, none a second time (R687).
DEDUCED, assumption 84: unsafe. -/
def Run.cflStart (r : Run) (n : Nat) : Run :=
  r.modCfl fun x => { x with
    chans := x.chans.map fun (e : Nat × Chan) => if e.2.inst = n then (e.1, e.2.started) else e,
    streams := x.streams.map fun (e : Nat × Stream) => if e.2.inst = n then (e.1, e.2.started) else e,
    next := tabSet x.next n (max (tabGetD x.done n 0) (firstTickFrom r.tsu.counter (x.h n))), flagged := tabDel x.flagged n }

/-- Confluence stops for an instance that leaves ACTIVE. -/
def Run.cflStop (r : Run) (n : Nat) : Run :=
  r.modCfl fun x => { x with next := tabDel x.next n, flagged := tabDel x.flagged n }

end Sys2Proof.Machine
end

