-- ==== Sys2Proof/Machine/Operands.lean ====
section
/-! DEFINITION. What the operators share: input values, qualities, complex numbers, timers (R340 to R344, R382, R383). -/

namespace Sys2Proof.Machine

/-! ### Inputs -/

/-- One input value as a job reads it (Table 10.2), after R342. `value` is VALUE of a SCALAR and MAG of a PHASOR. -/
structure InVal where
  value : Word := 0
  re : Word := 0
  im : Word := 0
  ang : Word := 0
  /-- QUALITY, its validity invalid where the value is refused. -/
  q : Nat := 0
  refused : Bool := false
  /-- The producer's NSTAT has HELD set. -/
  held : Bool := false
  /-- The substitute of R320 stands in. -/
  subst : Bool := false
  /-- The value comes from another node, whose TQ counts (R344). -/
  fromNode : Bool := false
  /-- The value comes from a POINT input. -/
  fromPoint : Bool := false
  deriving DecidableEq, Repr

/-- The value is invalid. -/
def InVal.invalid (v : InVal) : Bool := v.q % 4 == 1

/-- A quality after R342: whether it is refused, and the quality that counts. -/
def accept (i : Input) (q : Nat) : Bool × Nat :=
  let refused := ((q.testBit 8 || q.testBit 9) && !i.estOk) || (q % 4 == 3 && !i.qOk)
  (refused, if refused then q / 4 * 4 + 1 else q)

/-- What a job reads of its inputs and its instance. -/
structure OpCtx where
  /-- The P tick of the job, from the TAI epoch. -/
  k : Nat
  ins : List (Option InVal)
  params : List (List Rat)
  group : Nat
  mem : OpMem
  /-- First of the free values the job may take (assumption 1). -/
  free : Nat
  /-- TQ in force at the tick. -/
  tq : Nat
  /-- The tick's reading of the history set flags GAP and STALE_INPUT, and refused values. -/
  gap : Bool := false
  stale : Bool := false
  refused : Bool := false
  /-- CHAN_DELAY of each CHAN input at the tick, in ns. -/
  delays : List Nat := []
  /-- A TRC that follows the lockout latch it names, which is set (R406). -/
  latched : Bool := false
  deriving DecidableEq, Repr

/-- Input `i`; an optional one that is not bound reads as none. -/
def OpCtx.input (c : OpCtx) (i : Nat) : Option InVal := (c.ins[i]?).join

/-- Input `i`; one that is not bound counts as 0 and good. -/
def OpCtx.arg (c : OpCtx) (i : Nat) : InVal := (c.input i).getD {}

/-- Parameter `i` in the job's group (R381). -/
def OpCtx.p (c : OpCtx) (i : Nat) : Rat :=
  let l := c.params.getD i []
  if l.length = 1 then l.getD 0 0 else l.getD c.group 0

/-- A parameter that is a whole number. -/
def OpCtx.n (c : OpCtx) (i : Nat) : Nat := (c.p i).floor.toNat

/-- A free value of 32 bits. -/
def OpCtx.free32 (c : OpCtx) (j : Nat) : Word := Config.freeValue 32 (c.free + j)

/-- A free value of 64 bits. -/
def OpCtx.free64 (c : OpCtx) (j : Nat) : Word64 := Config.freeValue 64 (c.free + j)

/-- A BOOL reads 1: 1.0, or the word 1 that a data point holds for a BOOL.
DEDUCED, assumption 85: unsafe. -/
def InVal.isOne (v : InVal) : Bool := (val32 v.value).eq (.fin false 1) || (v.fromPoint && v.value == 1)

/-- A BOOL input reads 1; one that is not bound reads 0. -/
def OpCtx.bool (c : OpCtx) (i : Nat) : Bool := (c.arg i).isOne

/-- Δt in ns (R382). -/
def OpCtx.dt (c : OpCtx) : Rat :=
  match c.mem.kLast with
  | some p => ((c.k - p : Nat) : Rat) * 625000 / 3
  | none => 0

/-! ### Qualities (R344) -/

/-- Some NODE input's producer has HELD set. -/
def OpCtx.heldInput (c : OpCtx) : Bool := c.ins.any fun i => match i with | some v => v.held | none => false

/-- Some POINT input is substituted. -/
def OpCtx.substituted (c : OpCtx) : Bool := c.ins.any fun i => match i with | some v => v.subst | none => false

/-- Some input is refused. -/
def OpCtx.anyRefused (c : OpCtx) : Bool :=
  c.refused || c.ins.any fun i => match i with | some v => v.refused | none => false

/-- TQ of the outputs of a node without CHAN inputs: that of its first NODE input, else that of the tick.
DEDUCED, assumption 87: unsafe. -/
def OpCtx.nodeTq (c : OpCtx) : Nat :=
  match c.ins.find? (fun i => match i with | some v => v.fromNode | none => false) with
  | some (some v) => v.q / 4096 % 16
  | _ => c.tq

/-- The quality of an element formed over `used`, with `tq`; `filling` makes it invalid (R344).
DEDUCED, assumption 87: unsafe. -/
def OpCtx.quality (c : OpCtx) (used : List Nat) (tq : Nat) (filling : Bool := false) : Nat :=
  let j := used.foldl (fun a q => joinQ a (q % 4096)) 0
  let v := if c.heldInput || c.substituted then worse (j % 4) 3 else j % 4
  j / 4 * 4 + (if filling then 1 else v) + 4096 * tq

/-- The quality of an element formed over the inputs numbered in `used`. -/
def OpCtx.qualityOf (c : OpCtx) (used : List Nat) : Nat :=
  c.quality (used.filterMap fun i => (c.input i).map (·.q)) c.nodeTq

/-- A quality at least as bad as `v`. -/
def atLeast (q v : Nat) : Nat := q / 4 * 4 + worse (q % 4) v

/-- OPST with the bits every operator forms alike (Table 10.4). -/
def OpCtx.opst (c : OpCtx) (filling clamped low event : Bool) : Nat :=
  let b (x : Bool) (k : Nat) : Nat := if x then 2 ^ k else 0
  b filling 0 + b clamped 1 + b low 2 + b c.heldInput 3 + b c.stale 4 + b c.anyRefused 5 + b c.gap 6 + b event 7

/-- A BOOL output. -/
def boolElem (b : Bool) (q : Nat) : Elem := .scalar (if b then 0x3F800000 else 0) q

/-- A whole number in binary32. -/
def natElem (n : Nat) (q : Nat) : Elem := .scalar (rat32 n) q

/-! ### Numbers -/

/-- A value compared with an exact one. -/
def FVal.geRat (v : FVal) (q : Rat) : Bool := (FVal.fin false q).le v

/-- See `FVal.geRat`. -/
def FVal.ltRat (v : FVal) (q : Rat) : Bool := v.lt (.fin false q)

/-- See `FVal.geRat`. -/
def FVal.leRat (v : FVal) (q : Rat) : Bool := v.le (.fin false q)

/-- See `FVal.geRat`. -/
def FVal.gtRat (v : FVal) (q : Rat) : Bool := (FVal.fin false q).lt v

/-- A complex number before rounding. -/
structure Cx where
  re : FVal
  im : FVal
  deriving DecidableEq, Repr

/-- A real constant. -/
def FVal.ofRat (q : Rat) : FVal := .fin (decide (q < 0)) q

/-- A complex constant. -/
def Cx.ofRat (a b : Rat) : Cx := { re := .ofRat a, im := .ofRat b }

/-- The phasor of an input. -/
def InVal.cx (v : InVal) : Cx := { re := val32 v.re, im := val32 v.im }

/-- Sum. -/
def Cx.add (a b : Cx) : Cx := { re := a.re.add b.re, im := a.im.add b.im }

/-- Opposite. -/
def Cx.neg (a : Cx) : Cx := { re := a.re.opp, im := a.im.opp }

/-- Difference. -/
def Cx.sub (a b : Cx) : Cx := a.add b.neg

/-- Conjugate. -/
def Cx.conj (a : Cx) : Cx := { a with im := a.im.opp }

/-- Product. -/
def Cx.mul (a b : Cx) : Cx :=
  { re := (a.re.mul b.re).add (a.im.mul b.im).opp, im := (a.re.mul b.im).add (a.im.mul b.re) }

/-- The square of the magnitude. -/
def Cx.normSq (a : Cx) : FVal := (a.re.mul a.re).add (a.im.mul a.im)

/-- A real multiple. -/
def Cx.scale (a : Cx) (s : FVal) : Cx := { re := a.re.mul s, im := a.im.mul s }

/-- Quotient. -/
def Cx.div (a b : Cx) : Cx :=
  let d := b.normSq
  let n := a.mul b.conj
  { re := n.re.div d, im := n.im.div d }

/-- The magnitude, to more than the precision of binary64. -/
def Cx.abs (a : Cx) : FVal := a.normSq.sqrt

/-- The angle in radians, in binary64. -/
def Cx.arg (a : Cx) : Word64 := Config.atan2 (to64 a.im) (to64 a.re)

/-- The angle of a phasor input, in binary64. -/
def InVal.arg (v : InVal) : Word64 := v.cx.arg

/-- A complex number rounded to binary32. -/
def Cx.round (a : Cx) : Word × Word := (to32 a.re, to32 a.im)

/-- A complex number with both parts rounded to binary32. -/
def Cx.narrowed (a : Cx) : Cx := { re := val32 (to32 a.re), im := val32 (to32 a.im) }

/-- A PHASOR element (Table 10.3). -/
def phasorElem (a : Cx) (q : Nat) : Elem :=
  let (re, im) := a.round
  let z : Cx := { re := val32 re, im := val32 im }
  .phasor re im (to32 z.abs) (narrow z.arg) q

/-- A binary64 constant nearest to a rational. -/
def w64 (q : Rat) : Word64 := rat64 q

/-- An angle in radians of degrees. -/
def radians (deg : Rat) : Word64 := div64 (mul64 (w64 deg) pi64) (w64 180)

/-- Degrees of an angle in radians, exact from its binary64 value. -/
def degrees (x : Word64) : Rat := ratOf64 (div64 (mul64 x (w64 180)) pi64)

/-- An angle in degrees wrapped to −180 to 180. -/
def wrapDeg (x : Rat) : Rat :=
  let y := x - 360 * ((x + 180) / 360).floor
  if y = -180 then 180 else y

/-- e^(jx), from binary64 sine and cosine. -/
def expj (x : Word64) : Cx := { re := val64 (Config.cos x), im := val64 (Config.sin x) }

/-- √3/2 in binary64. -/
def halfRoot3 : Rat := ratOf64 (to64 (.fin false (sqrtRat 3 / 2)))

/-- a = e^(j2π/3). -/
def cisA : Cx := Cx.ofRat (-1 / 2) halfRoot3

/-- a². -/
def cisA2 : Cx := Cx.ofRat (-1 / 2) (-halfRoot3)

/-- √2 in binary64. -/
def root2 : Rat := ratOf64 (to64 (.fin false (sqrtRat 2)))

/-! ### Node state (R382) -/

/-- A value of the state; 0 where there is none. -/
def OpMem.get (m : OpMem) (k : Nat) : Rat := tabGetD m.vals k 0

/-- A flag of the state. -/
def OpMem.flag (m : OpMem) (k : Nat) : Bool := m.get k != 0

/-- The state with a value. -/
def OpMem.set (m : OpMem) (k : Nat) (v : Rat) : OpMem := { m with vals := tabSet m.vals k v }

/-- The state with a flag. -/
def OpMem.setFlag (m : OpMem) (k : Nat) (b : Bool) : OpMem := m.set k (if b then 1 else 0)

/-- The state without a value. -/
def OpMem.del (m : OpMem) (k : Nat) : OpMem := { m with vals := tabDel m.vals k }

/-- A binary64 value of the state. -/
def OpMem.w (m : OpMem) (k : Nat) : Word64 := tabGetD m.wide k 0

/-- The state with a binary64 value. -/
def OpMem.setW (m : OpMem) (k : Nat) (v : Word64) : OpMem := { m with wide := tabSet m.wide k v }

/-- Timer `k` while `running`: it starts at 0, advances by Δt, and is gone when its condition fails. -/
def OpMem.timer (m : OpMem) (k : Nat) (running : Bool) (dt : Rat) : OpMem :=
  if !running then m.del k
  else match tabGet m.vals k with
    | some t => m.set k (t + dt)
    | none => m.set k 0

/-- A running timer has reached a duration in seconds. -/
def OpMem.reached (m : OpMem) (k : Nat) (seconds : Rat) : Bool :=
  match tabGet m.vals k with
  | some t => decide (seconds * 1000000000 ≤ t)
  | none => false

/-- An over-element (R383): whether it is started, from whether it was. -/
def overElem (was : Bool) (q : FVal) (pickup ratio : Rat) : Bool :=
  if was then !q.ltRat (ratio * pickup) else q.geRat pickup

/-- An under-element (R383). -/
def underElem (was : Bool) (q : FVal) (pickup ratio : Rat) : Bool :=
  if was then !q.gtRat (pickup / ratio) else q.leRat pickup

/-- An over-element with an absolute hysteresis. -/
def overAbs (was : Bool) (q : FVal) (pickup hyst : Rat) : Bool :=
  if was then !q.ltRat (pickup - hyst) else q.geRat pickup

/-- An under-element with an absolute hysteresis. -/
def underAbs (was : Bool) (q : FVal) (pickup hyst : Rat) : Bool :=
  if was then !q.gtRat (pickup + hyst) else q.leRat pickup

end Sys2Proof.Machine
end

