-- ==== Sys2Proof/Machine/Params.lean ====
section
/-! DEFINITION. The operator catalogue: classes, parameter ranges and inputs (Tables 10.1, 10.5, 11.1 to 11.16). -/

namespace Sys2Proof.Machine

/-- A parameter: its range and step, whether it has one value (measurement operators, ADP, and those marked †), and a
value outside the range that it may also take. A step of 0 stands for any binary32 value. -/
structure PSpec where
  lo : Rat
  hi : Rat
  step : Rat
  one : Bool := false
  also : Option Rat := none
  deriving DecidableEq, Repr

/-- A parameter with a value for each setting group. -/
def grp (lo hi step : Rat) : PSpec := { lo := lo, hi := hi, step := step }

/-- A parameter with one value. -/
def sole (lo hi step : Rat) (also : Option Rat := none) : PSpec := { lo := lo, hi := hi, step := step, one := true, also := also }

/-- `n` times a list. -/
def rep (n : Nat) (l : List PSpec) : List PSpec := (List.replicate n l).flatten

/-- One hundredth, one tenth and one thousandth.
DEDUCED, assumption 87: unsafe. -/
def cent : Rat := 1 / 100

/-- See `cent`.
DEDUCED, assumption 87: unsafe. -/
def tenth : Rat := 1 / 10

/-- See `cent`.
DEDUCED, assumption 87: unsafe. -/
def milli : Rat := 1 / 1000

/-- Table 10.5: FNOM, TRACK, TRACK_HOLD, CH. -/
def windowParams (ch : Rat) : List PSpec := [sole 50 60 10, sole 0 1 1, sole 0 10 cent, sole 1 ch 1]

/-- Table 11.2: ENABLE, DO_RATIO, INVALID_MODE, GSEL. -/
def commonParams : List PSpec := [grp 0 1 1, grp (80 / 100) (99 / 100) cent, sole 0 1 1, sole 0 3 1]

/-- The class of an operator of the catalogue (Tables 10.1 and 11.1). -/
def opClass (op : Nat) : Option Nat :=
  if op = 0x0101 ∨ op = 0x0102 then some 1
  else if 0x0103 ≤ op ∧ op ≤ 0x0109 then some 0
  else if 0x0201 ≤ op ∧ op ≤ 0x020E then some 0
  else none

/-- A decision operator. -/
def isDecision (op : Nat) : Bool := decide (0x0201 ≤ op) && decide (op ≤ 0x020E)

/-- The parameters of an operator, in the order of its tables. -/
def opParams (op : Nat) : List PSpec :=
  if op = 0x0101 then windowParams 8 ++ [sole 0 2 1]
  else if op = 0x0102 then windowParams 4 ++ [sole 0 1000000 1]
  else if op = 0x0103 then [sole 1 4 1, sole 0 1 1, sole 0 1 1]
  else if op = 0x0104 then [sole 50 60 10, sole 24 480 1, sole 48 4800 1, sole 0 1000000 1]
  else if op = 0x0105 then [sole 0 1 1, sole 0 1 1, sole 0 1000000000 1]
  else if op = 0x0106 then windowParams 8 ++ [sole 0 1 1, sole 2 160 1]
  else if op = 0x0107 then
    [sole 0 1 1, sole 0 10 milli, sole (-180) 180 tenth, sole (-1) 10 milli, sole (-1) 10 milli, sole 0 1 1, sole 1 100000 1]
  else if op = 0x0108 then
    [sole 1 100000 1, sole 1 (3 / 2) cent, sole 60 60000 1, sole 1 10 tenth, sole 0 (1 / 5) cent,
     sole (1 / 2) (99 / 100) cent, sole (1 / 2) (99 / 100) cent, sole 0 1 cent]
  else if op = 0x0109 then
    [sole 1 3 1, sole 5 100 1, sole 5 100 1, sole 1 10000 1, sole 1 100000 1, sole 1000 200000 100, sole 1 3 tenth] ++
    List.replicate 9 (sole 0 4095 1 (some 0xFFFF))
  else if op = 0x0201 ∨ op = 0x0202 then
    commonParams ++ [(if op = 0x0201 then sole 1 3 1 else sole 1 3 2), grp 0 1 1, grp 0 7 1, grp 1 100000 1, grp cent 15 cent,
     grp 0 300 milli, grp 0 10 milli, grp 0 2 1, grp 0 60 cent]
  else if op = 0x0203 then
    commonParams ++ [sole 0 2 1, grp (-90) 90 1, grp 0 30 1, grp 1 100000 1, grp 1 1000000 1, grp 0 (1 / 2) cent]
  else if op = 0x0204 then
    commonParams ++ [sole 1 5 1, grp 30 90 tenth, grp (-45) 0 1, grp 90 135 1, grp 0 20 1, grp 1 8 1, grp 0 31 1] ++
    rep 5 [grp 0 2 1, grp 0 2 1, grp 1 3 1, grp cent 500 cent, grp cent 500 cent, grp cent 500 cent, grp cent 500 cent, grp 0 10 milli]
  else if op = 0x0205 then
    commonParams ++ [sole 2 4 1] ++ rep 4 [grp 1 100000 cent, grp 0 11 1, grp 0 1 1] ++
    [grp (5 / 100) 1 cent, grp 0 5 cent, grp tenth (8 / 10) cent, grp (1 / 2) 10 cent, grp (3 / 10) (3 / 2) cent, grp 2 30 tenth,
     grp 0 2 1, grp 0 2 1, grp 5 50 1, grp 10 80 1, grp 0 1 milli]
  else if op = 0x0206 then
    commonParams ++ [sole 1 3 1, grp 0 1 1, grp 0 1 1, grp 1 1000000 1, grp 0 1000000 1, grp 0 300 milli]
  else if op = 0x0207 then commonParams ++ [grp 0 4 1, grp cent 80 cent, grp cent 1 cent, grp 0 300 milli]
  else if op = 0x0208 then
    commonParams ++ [sole 1 3 1, grp 0 2 1, grp 1 100000 1, grp 0 1 milli, grp (50 / 1000) 1 milli]
  else if op = 0x0209 then
    commonParams ++ [grp 1 1000000 1, grp 1 100000 1, grp cent 10 cent, grp tenth 10 cent, grp 1 100000 1]
  else if op = 0x020A then
    commonParams ++ [grp tenth 1000 tenth, grp tenth 1000 tenth, grp tenth 1000 tenth, grp tenth 1000 tenth,
     grp (5 / 1000) (200 / 1000) milli, grp 0 1 cent, grp tenth 10 tenth, grp 1 100000 1, grp 1 100000 1]
  else if op = 0x020B then
    commonParams ++ [grp 1 1000000 1, grp 1 1000000 1, grp 1 100000 1, grp 1 60 1, grp cent 1 cent, grp (-180) 180 1, grp 0 7 1,
     grp 0 10 cent, grp 0 10 cent]
  else if op = 0x020C then
    [sole 0 3 1, sole 1 16 1, grp (2 / 100) 5 cent, grp 0 1 1, grp 0 65535 1, sole 0 31 1 (some 0xFF), sole 0 511 1 (some 0xFFFF),
     sole 0 31 1 (some 0xFF)]
  else if op = 0x020D then
    [sole 0 3 1, sole 1 8 1] ++ rep 8 [sole 0 2 1, grp (-1000000000) 1000000000 0, grp 0 1000000000 0] ++ [sole 0 65535 1]
  else if op = 0x020E then
    [sole 1 16 1, sole 0 8 1, sole 0 3 1] ++
    rep 16 [sole 0 1 1, sole (-1000000000) 1000000000 0, sole 0 1000000000 0, sole 0 3600 cent, sole 0 3600 cent, sole 0 2 1] ++
    rep 8 [sole 0 65535 1, sole 0 65535 1, sole 0 7 1 (some 0xFF), sole 0 65535 1] ++ [sole 0 7 1 (some 0xFF), sole 0 65535 1] ++
    rep 8 [sole 0 8191 1 (some 0xFFFF), sole 1 4096 1]
  else []

/-- The place of GSEL among an operator's parameters (R381). -/
def gselIndex (op : Nat) : Nat := if op = 0x020C ∨ op = 0x020D then 0 else if op = 0x020E then 2 else 3

/-- A value lies in a parameter's range and on its step (R338). -/
def PSpec.ok (s : PSpec) (v : Rat) : Bool :=
  s.also == some v ||
    (decide (s.lo ≤ v) && decide (v ≤ s.hi) &&
      (if s.step = 0 then decide (ratOf32 (rat32 v) = v) else ((v - s.lo) / s.step).den == 1))

/-- The parameters of a node are those of its operator, each in range (R338, R381). -/
def paramsOk (op : Nat) (ps : List (List Rat)) : Bool :=
  let specs := opParams op
  ps.length == specs.length &&
    (specs.zip ps).all fun (s, l) => l.length == (if s.one then 1 else 8) && l.all s.ok

end Sys2Proof.Machine

namespace Sys2Proof

/-- Value `g` of parameter `i` of a node. -/
def GNode.p (n : GNode) (i g : Nat) : Rat :=
  let l := n.params.getD i []
  if l.length = 1 then l.getD 0 0 else l.getD g 0

/-- Parameter `i` of a node as a whole number. -/
def GNode.n (n : GNode) (i : Nat) (g : Nat := 0) : Nat := (n.p i g).floor.toNat

end Sys2Proof

namespace Sys2Proof.Machine

/-- The parameters † of two nodes agree (R386), and for a measurement operator its CH, SETS or POLES (R339). -/
def sameStructure (a b : GNode) : Bool :=
  a.op == b.op &&
    (if isDecision a.op then
      ((opParams a.op).zip (a.params.zip b.params)).all fun (s, x, y) => !s.one || x == y
     else if a.op = 0x0101 ∨ a.op = 0x0102 ∨ a.op = 0x0106 then a.p 3 0 == b.p 3 0
     else if a.op = 0x0103 ∨ a.op = 0x0109 then a.p 0 0 == b.p 0 0
     else true)

/-- The output elements of a node, in the order of its operator's section (R343): true for a BOOL, false for a PHASOR or another
SCALAR. A node that runs no operator has none. -/
def outElems (n : GNode) : List Bool :=
  let num (k : Nat) : List Bool := List.replicate k false
  let bit (k : Nat) : List Bool := List.replicate k true
  if 1 < n.cls then []
  else match n.op with
    | 0x0101 => num (n.n 3) | 0x0102 => num (16 * n.n 3) | 0x0103 => num (3 * n.n 0) | 0x0104 => num 2 | 0x0105 => num 13
    | 0x0106 => num (n.n 3) | 0x0107 => num 18 | 0x0108 => num 2 ++ bit 2 ++ num 1
    | 0x0109 => (List.replicate (n.n 0) [false, false, true, false]).flatten
    | 0x0201 => bit 5 ++ num 1 | 0x0202 => bit 2 ++ num 1 | 0x0203 => bit 8 | 0x0204 => bit 11 ++ num 1
    | 0x0205 => bit 7 ++ num 6 | 0x0206 => bit 5 | 0x0207 => bit 2 | 0x0208 => bit 3 | 0x0209 => bit 3
    | 0x020A => bit 2 ++ num 1 | 0x020B => bit 1 ++ num 3 | 0x020C => bit 2 ++ num 2 | 0x020D => bit 2 ++ num 1
    | 0x020E => num 3
    | _ => []

/-- Element `i` of a node's outputs: none where there is no such element, else whether it is a BOOL. -/
def outElem (g : Graph) (node i : Nat) : Option Bool := (g.nodes[node]?).bind fun n => (outElems n)[i]?

/-- The inputs an operator takes: how many, which of them are CHAN, and which may be left unbound. -/
structure InSpec where
  count : Nat
  chans : List Nat := []
  optional : List Nat := []
  deriving DecidableEq, Repr

/-- The inputs of a node, in the order of its operator's section; a decision operator's BLOCK comes last. -/
def inSpec (n : GNode) : InSpec :=
  let op := n.op
  if op = 0x0101 ∨ op = 0x0102 ∨ op = 0x0106 then
    let ch := n.n 3
    { count := ch + n.n 1, chans := List.range ch }
  else if op = 0x0103 then { count := 3 * n.n 0 }
  else if op = 0x0104 then { count := 1 }
  else if op = 0x0105 then { count := 6 }
  else if op = 0x0107 then { count := 6 + n.n 5 }
  else if op = 0x0108 then { count := 3, optional := [1, 2] }
  else if op = 0x0109 then { count := 3 * n.n 0, chans := (List.range (n.n 0)).map (3 * ·) }
  else if op = 0x0201 then { count := 5, optional := (List.range 5).filter (n.n 4 ≤ ·) }
  else if op = 0x0202 then { count := 3, optional := [1, 2] }
  else if op = 0x0203 then (if n.n 4 = 0 then { count := 7, optional := [6] } else { count := 3, optional := [2] })
  else if op = 0x0204 then { count := 20, optional := [18, 19] }
  else if op = 0x0205 then
    let ends := n.n 4
    { count := 37, optional := (List.range 37).filter fun i =>
        i == 36 || decide (3 * ends ≤ i % 12) || (decide (12 ≤ i)) }
  else if op = 0x0206 then { count := 4, optional := (List.range 4).filter (n.n 4 ≤ ·) }
  else if op = 0x0207 then { count := 3, optional := [2] }
  else if op = 0x0208 then { count := 6, optional := (List.range 6).filter fun i => i != 0 && decide (n.n 4 < i) }
  else if op = 0x0209 then { count := 12, optional := (List.range 12).filter fun i => i != 0 && i != 3 }
  else if op = 0x020A then { count := 4, optional := [3] }
  else if op = 0x020B then { count := 5, optional := [4] }
  else if op = 0x020C then { count := n.n 1 }
  else if op = 0x020D then { count := n.n 1 + 1, optional := [n.n 1] }
  else if op = 0x020E then { count := n.n 0 }
  else { count := 0 }

/-- The inputs of a node are bound as its operator asks (R340, R378). -/
def inputsOk (n : GNode) : Bool :=
  let s := inSpec n
  n.inputs.length == s.count &&
    (List.range s.count).all fun i =>
      match (n.inputs[i]?).join with
      | none => s.optional.contains i
      | some x =>
        match x.src with
        | .chan _ => s.chans.contains i
        | _ => !s.chans.contains i

end Sys2Proof.Machine
end

