-- ==== Sys2Proof/Machine/Measure.lean ====
section
/-! DEFINITION. The measurement operators (chapter 10): each from its inputs, parameters and state to its outputs. -/

namespace Sys2Proof.Machine

/-! ### Windows (R345 to R349) -/

/-- The analysis frequency of a job (R345). -/
structure Analysis where
  /-- f_a, in binary64 as an exact value. -/
  fa : Rat
  clamped : Bool := false
  /-- The quality of the FREQ value it was taken from; none where it is FNOM (R344). -/
  used : List Nat := []
  mem : OpMem
  deriving DecidableEq, Repr

/-- f_a and the state after (R345). FREQ is input CH; state: 0 the last value taken, 1 the time for which FREQ has been
invalid, in ns, 2 the quality of the last value taken.
DEDUCED, assumption 87: unsafe. -/
def analysisFreq (c : OpCtx) : Analysis :=
  let fnom := c.p 0
  let m := c.mem
  if c.p 1 = 0 then { fa := fnom, mem := m }
  else
    let v := c.arg (c.n 3)
    if !v.invalid then
      let lo := fnom * 8 / 10
      let hi := fnom * 12 / 10
      let (f, clamped) : Rat × Bool :=
        match val32 v.value with
        | .inf neg => (if neg then lo else hi, true)
        | .fin _ x => (clampRat lo hi x, decide (clampRat lo hi x ≠ x))
        | .nan =>
          let x := ratOf32 (c.free32 7)
          (clampRat lo hi x, decide (clampRat lo hi x ≠ x))
      { fa := f, clamped := clamped, used := [v.q], mem := ((m.set 0 f).del 1).set 2 v.q }
    else
      let m := m.timer 1 true c.dt
      let held := (tabGet m.vals 0).isSome && !decide (c.p 2 * 1000000000 < m.get 1)
      { fa := if held then m.get 0 else fnom, clamped := true, used := if held then [(m.get 2).floor.toNat] else [], mem := m }

/-- N_w of a window of `samples` samples per second, in binary64. -/
def windowLen (samples fa : Rat) : Rat := ratOf64 (rat64 (samples / fa))

/-- The value of history place `i`; 0 where there is none. -/
def histAt (h : List HistVal) (i : Nat) : Word := match h[i]? with | some v => v.value | none => 0

/-- w_i of a window (R347): 1 below m, the rest at m. -/
def weight (nw : Rat) (i : Nat) : Word := if (i : Rat) < (nw.floor : Rat) then 0x3F800000 else rat32 (nw - nw.floor)

/-- 2π f i / 4,800 in binary64. -/
def winAngle (f : Rat) (i : Nat) : Word64 := div64 (mul64 (mul64 (w64 2) pi64) (mul64 (w64 f) (w64 i))) (w64 4800)

/-- The sum over a window, formed in binary32 by fused multiply-add, i ascending (R349): `at' i` is the weighted sample,
`e i` the factor. -/
def winSum (n : Nat) (at' e : Nat → Word) : Word := (List.range n).foldl (fun (a : Word) i => fma32 (at' i) (e i) a) 0

/-- A weighted sample. -/
def weighted (nw : Rat) (h : List HistVal) (off i : Nat) : Word :=
  if (i : Rat) < (nw.floor : Rat) then histAt h (off + i) else mul32 (weight nw i) (histAt h (off + i))

/-- D of R347 at frequency `f` over a window of N_w, rounded to binary32. -/
def dft (nw f : Rat) (h : List HistVal) : Cx :=
  let n := nw.floor.toNat + 1
  let re := winSum n (weighted nw h 0) fun i => narrow (Config.cos (winAngle f i))
  let im := winSum n (weighted nw h 0) fun i => narrow (Config.sin (winAngle f i))
  let s := rat32 (root2 / nw)
  { re := val32 (mul32 s re), im := val32 (mul32 s im) }

/-- The reference phase ψ of R346: FNOM, P tick and CHAN_DELAY. -/
def refPhase (fnom : Rat) (k delay : Nat) : Word64 :=
  let x := fnom * (((k % 4800 : Nat) : Rat) / 4800 - (delay : Rat) / 1000000000)
  mul64 (mul64 (w64 2) pi64) (w64 (x - x.floor))

/-- Qualities of the first `n` values of a history. -/
def histQ (h : List HistVal) (n : Nat) : List Nat := (h.take n).map (·.quality)

/-- The history of channel `c`. -/
def OpMem.chan (m : OpMem) (c : Nat) : List HistVal := m.hist.getD c []

/-- TQ of the tick-k entry of the first CHAN input (R344). -/
def OpCtx.chanTq (c : OpCtx) : Nat :=
  match (c.mem.chan 0).head? with
  | some v => v.quality / 4096 % 16
  | none => c.tq

/-- FILLING: some history holds fewer than `n` ticks since the start (R349). -/
def filling (c : OpCtx) (n : Nat) : Bool := decide (c.k + 1 < c.mem.kFirst + n)

/-! ### PHS and HRM -/

/-- PHS (R347 to R349). -/
def evalPhs (c : OpCtx) : JobResult :=
  let ⟨fa, clamped, used, mem⟩ := analysisFreq c
  let mode := c.n 4
  let nw := windowLen (if mode = 1 then 2400 else 4800) fa
  let m := nw.floor.toNat
  let q := (nw / 4 + 1 / 2).floor.toNat
  let s := m + 1 + if mode = 2 then q else 0
  let fill := filling c s
  let out := (List.range (c.n 3)).map fun ch =>
    let h := mem.chan ch
    let turn := (expj (neg64 (refPhase (c.p 0) c.k (c.delays.getD ch 0)))).narrowed
    let x : Cx :=
      if mode = 2 then
        let part (off : Nat) : FVal :=
          val32 (mul32 (rat32 (2 / nw)) (winSum (m + 1) (weighted nw h off) fun i => narrow (Config.cos (winAngle fa i))))
        Cx.scale { re := part 0, im := part q } (val32 (rat32 (1 / root2)))
      else dft nw fa h
    phasorElem (x.mul turn) (c.quality (histQ h s ++ used) c.chanTq fill)
  { out := out, opst := c.opst fill clamped false false, mem := mem }
where
  neg64 (w : Word64) : Word64 := w ^^^ 0x8000000000000000

/-- HRM (R352, R353). -/
def evalHrm (c : OpCtx) : JobResult :=
  let ⟨fa, clamped, used, mem⟩ := analysisFreq c
  let nw := windowLen 4800 fa
  let s := nw.floor.toNat + 1
  let fill := filling c s
  let per := (List.range (c.n 3)).map fun ch =>
    let h := mem.chan ch
    let mags : List FVal := (List.range 15).map fun i =>
      val32 (to32 (dft nw (fa * ((i + 1 : Nat) : Rat)) h).abs)
    let h1 := mags.headD .nan
    let low := h1.ltRat (c.p 4)
    let q := c.quality (histQ h s ++ used) c.chanTq fill
    let ql := if low then atLeast q 3 else q
    let ratio (v : FVal) : Word := if low then 0 else to32 (((FVal.ofRat 100).mul v).div h1)
    let squares := (mags.drop 1).foldl (fun (a : FVal) v => a.add (v.mul v)) (.ofRat 0)
    (low, [Elem.scalar (to32 h1) q] ++ (mags.drop 1).map (fun v => Elem.scalar (ratio v) ql) ++ [Elem.scalar (ratio squares.sqrt) ql])
  { out := per.flatMap (·.2), opst := c.opst fill clamped (per.any (·.1)) false, mem := mem }

/-! ### SEQ -/

/-- SEQ (R355, R356). -/
def evalSeq (c : OpCtx) : JobResult :=
  let third := FVal.ofRat (1 / 3)
  let out := (List.range (c.n 0)).flatMap fun s =>
    let a := (c.arg (3 * s)).cx
    let b := (c.arg (3 * s + if c.p 2 = 1 then 2 else 1)).cx
    let d := (c.arg (3 * s + if c.p 2 = 1 then 1 else 2)).cx
    let q := c.qualityOf [3 * s, 3 * s + 1, 3 * s + 2]
    let pos := (a.add (cisA.mul b)).add (cisA2.mul d)
    let neg := (a.add (cisA2.mul b)).add (cisA.mul d)
    if c.p 1 = 0 then
      [phasorElem (((a.add b).add d).scale third) q, phasorElem (pos.scale third) q, phasorElem (neg.scale third) q]
    else
      let one := Cx.ofRat 1 0
      [phasorElem (Cx.ofRat 0 0) (atLeast q 1), phasorElem ((pos.div (one.sub cisA2)).scale third) q,
       phasorElem ((neg.div (one.sub cisA)).scale third) q]
  { out := out, opst := c.opst false false false false, mem := c.mem }

/-! ### FRQ -/

/-- FRQ (R357 to R359). State: 0 held from a LOW_SIGNAL until N_ROC ticks of valid FREQ have followed, as the tick from which
FREQ has been valid; words 0 and 1 the last FREQ and ROCOF.
DEDUCED, assumption 87: unsafe. -/
def evalFrq (c : OpCtx) : JobResult :=
  let x := c.arg 0
  let m := c.n 1
  let nroc := c.n 2
  let before (d : Nat) : Option FrqJob := if c.k < d then none else c.mem.frq.find? (fun j => j.tick == c.k - d)
  let past := before m
  let magOk (re im : Word) : Bool := !(({ re := val32 re, im := val32 im } : Cx).abs.ltRat (c.p 3))
  let low := !magOk x.re x.im || (match past with | some j => !magOk j.re j.im | none => false)
  let last := tabGetD c.mem.words 0 (c.free32 0)
  let raw : Word := match past with
    | some j =>
      let ang := (x.cx.mul ({ re := val32 j.re, im := val32 j.im } : Cx).conj).arg
      narrow (add64 (w64 (c.p 0)) (div64 (mul64 ang (w64 4800)) (mul64 (mul64 (w64 2) pi64) (w64 m))))
    | none => c.free32 1
  let lo := c.p 0 * 8 / 10
  let hi := c.p 0 * 12 / 10
  let clamped := !low && ((val32 raw).ltRat lo || (val32 raw).gtRat hi)
  let freq := if low then last
    else if (val32 raw).ltRat lo then rat32 lo else if (val32 raw).gtRat hi then rat32 hi else raw
  let q0 := c.quality (x.q :: (match past with | some j => [j.xq] | none => [1])) c.nodeTq
  let fq := if low then atLeast q0 1 else if clamped then atLeast q0 3 else q0
  let since : Option Nat :=
    if low then some (c.k + 1)
    else match tabGet c.mem.vals 0 with
      | none => none
      | some t => if fq % 4 = 1 then some (c.k + 1) else if t.floor.toNat + nroc ≤ c.k then none else some t.floor.toNat
  let old := before nroc
  let rq := match old with
    | some j => c.quality [fq, j.fq] c.nodeTq
    | none => atLeast (c.quality [fq] c.nodeTq) 1
  let rq := if since.isSome then atLeast rq 1 else rq
  let roc : Word :=
    if since.isSome then tabGetD c.mem.words 1 (c.free32 2)
    else match old with
      | some j => narrow (div64 (mul64 (sub64 (widen raw) (widen j.f)) (w64 4800)) (w64 nroc))
      | none => c.free32 3
  let job : FrqJob := { tick := c.k, re := x.re, im := x.im, f := if low then freq else raw, xq := x.q, fq := fq }
  let mem := { c.mem with frq := (job :: c.mem.frq).filter (fun j => decide (c.k < j.tick + 4801)),
                          words := tabSet (tabSet c.mem.words 0 freq) 1 roc }
  let mem := match since with | some t => mem.set 0 t | none => mem.del 0
  { out := [.scalar freq fq, .scalar roc rq], opst := c.opst false clamped low false, mem := mem }

/-! ### PWR -/

/-- PWR (R361 to R363). -/
def evalPwr (c : OpCtx) : JobResult :=
  let v (i : Nat) : Cx := (c.arg i).cx
  let dir (s : Cx) : Cx := if c.p 1 = 1 then s.neg else s
  let phase (i : Nat) : Cx := dir ((v i).mul (v (3 + i)).conj)
  let elems (s : Cx) (q : Nat) : List Elem :=
    let (p, w) := s.round
    [.scalar p q, .scalar w q, .scalar (to32 s.abs) q]
  let off := c.p 0 = 1
  let total : Cx :=
    if off then dir ((((v 2).mul (v 3).conj).neg).add ((v 1).mul (v 4).conj))
    else ((phase 0).add (phase 1)).add (phase 2)
  let used := if off then [2, 1, 3, 4] else [0, 1, 2, 3, 4, 5]
  let qt := c.qualityOf used
  let st := total.abs
  let low := (val32 (to32 st)).ltRat (c.p 2)
  let phases := (List.range 3).flatMap fun i =>
    if off then
      let q := atLeast (c.qualityOf [i, 3 + i]) 1
      [Elem.scalar 0 q, Elem.scalar 0 q, Elem.scalar 0 q]
    else elems (phase i) (c.qualityOf [i, 3 + i])
  let pf : Elem := if low then .scalar 0 (atLeast qt 1) else .scalar (to32 (total.re.div st)) qt
  { out := phases ++ elems total qt ++ [pf], opst := c.opst false false low false, mem := c.mem }

/-! ### TRMS -/

/-- TRMS (R364). -/
def evalTrms (c : OpCtx) : JobResult :=
  let fixed := c.p 4 = 1
  let ⟨fa, clamped, freq, mem⟩ := analysisFreq c
  let used := if fixed then [] else freq
  let nw : Rat := if fixed then c.p 5 else windowLen 4800 fa
  let s := if fixed then c.n 5 else nw.floor.toNat + 1
  let fill := filling c s
  let out := (List.range (c.n 3)).map fun ch =>
    let h := mem.chan ch
    let sum := winSum s (fun i => if fixed then histAt h i else weighted nw h 0 i) (histAt h)
    let v := to32 ((val32 (div32 sum (rat32 nw))).sqrt)
    Elem.scalar v (c.quality (histQ h s ++ used) c.chanTq fill)
  { out := out, opst := c.opst fill clamped false false, mem := mem }

/-! ### IMP -/

/-- One loop of IMP (R365 to R367): resistance, reactance, loop current, and whether LOW_SIGNAL applies. -/
def impLoop (imin : Rat) (r x amp : FVal) (div0 : Bool) : Word × Word × Word × Bool :=
  let cur := to32 amp
  if (val32 cur).ltRat imin || div0 then (0x7F800000, 0x7F800000, cur, true)
  else (to32 r, to32 x, cur, false)

/-- A value is zero. -/
def FVal.isZero (v : FVal) : Bool := v.eq (.ofRat 0)

/-- IMP (R365 to R367). -/
def evalImp (c : OpCtx) : JobResult :=
  let v (i : Nat) : Cx := (c.arg i).cx
  let measured := c.p 5 = 1
  let ie : Cx := if measured then v 6 else ((v 3).add (v 4)).add (v 5)
  let resid := if measured then [6] else [3, 4, 5]
  let earth (i : Nat) : (Word × Word × Word × Bool) × List Nat :=
    let used := [i, 3 + i] ++ resid
    if c.p 0 = 0 then
      let k0 := (expj (radians (c.p 2))).scale (.ofRat (c.p 1))
      let il := (v (3 + i)).add (k0.mul ie)
      let z := (v i).div il
      (impLoop (c.p 6) z.re z.im il.abs il.normSq.isZero, used)
    else
      let a := (v (3 + i)).add (ie.scale (.ofRat (c.p 3)))
      let b := (Cx.ofRat 0 1).mul ((v (3 + i)).add (ie.scale (.ofRat (c.p 4))))
      let dr := (a.mul b.conj).im
      let dx := (b.mul a.conj).im
      (impLoop (c.p 6) (((v i).mul b.conj).im.div dr) (((v i).mul a.conj).im.div dx) a.abs (dr.isZero || dx.isZero), used)
  let phase (i j : Nat) : (Word × Word × Word × Bool) × List Nat :=
    let il := (v (3 + i)).sub (v (3 + j))
    let z := ((v i).sub (v j)).div il
    (impLoop (c.p 6) z.re z.im il.abs il.normSq.isZero, [i, j, 3 + i, 3 + j])
  let loops := [earth 0, earth 1, earth 2, phase 0 1, phase 1 2, phase 2 0]
  let out := loops.flatMap fun ((r, x, a, _), used) =>
    let q := c.qualityOf used
    [Elem.scalar r q, Elem.scalar x q, Elem.scalar a q]
  { out := out, opst := c.opst false false (loops.any (·.1.2.2.2)) false, mem := c.mem }

/-! ### THM -/

/-- THM (R368 to R371). State: wide 0 θ; values 0 θ is set, 1 ALARM, 2 TRIP, 3 the quality of the last valid I; word 0 the
last valid I.
DEDUCED, assumption 87: unsafe. -/
def evalThm (c : OpCtx) : JobResult :=
  let ins := c.ins.filterMap id
  let good := ins.filter (fun v => !v.invalid)
  let biggest := good.foldl (fun (a : Word) v => max32 a (abs32 v.value)) 0
  let allBad := good.isEmpty
  let i : Word := if allBad then tabGetD c.mem.words 0 (c.free32 0) else biggest
  let used := if allBad then [(c.mem.get 3).floor.toNat] else good.map (·.q)
  let iw := widen i
  let ratio := div64 iw (mul64 (w64 (c.p 1)) (w64 (c.p 0)))
  let u := mul64 ratio ratio
  let running := (val32 i).gtRat (c.p 4 * c.p 0)
  let tau := if running then c.p 2 else c.p 3 * c.p 2
  let started := c.mem.flag 0
  let theta0 := if started then c.mem.w 0 else w64 (c.p 7)
  let first := c.mem.kLast.isNone
  let theta := if first then theta0
    else add64 u (mul64 (sub64 theta0 u) (Config.exp (div64 (w64 (-(c.dt / 1000000000))) (w64 tau))))
  let th := val64 theta
  let ttt : Word :=
    if th.geRat 1 then 0
    else if (val64 u).gtRat 1 then
      narrow (mul64 (w64 tau) (Config.ln (div64 (sub64 u theta) (sub64 u (w64 1)))))
    else 0x7F800000
  let alarm := if c.mem.flag 1 then !th.ltRat (c.p 5 - 2 / 100) else th.geRat (c.p 5)
  let trip := if c.mem.flag 2 then !th.ltRat (c.p 6) else th.geRat 1
  let q0 := c.quality used c.nodeTq
  let q := if allBad then atLeast q0 3 else q0
  let mem := ((((c.mem.setW 0 theta).setFlag 0 true).setFlag 1 alarm).setFlag 2 trip).set 3 (used.foldl joinQ 0 : Nat)
  let mem := { mem with words := tabSet mem.words 0 i }
  { out := [.scalar (narrow (mul64 (w64 100) theta)) q, .scalar ttt q, boolElem alarm q, boolElem trip q, .scalar i q],
    opst := c.opst false false false false, mem := mem }

/-! ### IIT -/

/-- Ticks of a duration in ms, to the nearest (R373). -/
def msToTicks (ms : Rat) : Nat := (ms * 1000000 * 3 / 625000 + 1 / 2).floor.toNat

/-- A whole number nearest to a binary64 value; a half goes up. -/
def roundWide (w : Word64) : Nat := (ratOf64 w + 1 / 2).floor.toNat

/-- One pole after the samples of one job (R373 to R375). State of pole p at 10p: 0 START at the previous job, 1 BUSY,
2 k0, 3 the separation has been taken, 4 ESTIMATED, 5 NOT_CLEARED of the last operation, 6 ESTIMATED of the last, 7 a sample
of E was invalid, 8 the quality of the phasor of k_s, 9 that of the samples read from k_s on; at 1000 + 10p both of the operation
that I2T and STATUS report; wide 3p: E, I_INT, I2T. -/
structure PoleStep where
  mem : OpMem
  adds : List (Nat × Nat × Nat) := []
  event : Bool := false
  deriving DecidableEq, Repr

/-- One tick of an operation: `t` the tick, `recent` the history from that tick backwards. -/
def poleTick (c : OpCtx) (p : Nat) (s : PoleStep) (t : Nat) : PoleStep :=
  let m := s.mem
  let b := 10 * p
  if !m.flag (b + 1) then s
  else
    let ks := (m.get (b + 2)).floor.toNat + msToTicks (c.p 1)
    if t < ks then s
    else
      let phasor := c.arg (3 * p + 1)
      let m := if t = ks then
          let bad := phasor.invalid
          let i := if bad then w64 (c.p 5) else widen phasor.value
          let m := (m.setW (3 * p + 1) i).setW (3 * p) 0
          (((m.setFlag (b + 3) true).setFlag (b + 4) bad).set (b + 8) (phasor.q : Nat)).del (b + 9)
        else m
      let h := (m.chan p).dropWhile (fun v => decide (t < v.tick))
      let gone : HistVal := { tick := t, value := 0, quality := 1 }
      let x : HistVal := match h with | v :: _ => if v.tick = t then v else gone | [] => gone
      let m := if x.quality % 4 = 1 then m.setFlag (b + 7) true else m
      let m := m.set (b + 9) (((h.take 24).map (·.quality)).foldl joinQ (joinQ (m.get (b + 9)).floor.toNat x.quality) : Nat)
      let e := add64 (m.w (3 * p)) (mul64 (mul64 (widen x.value) (widen x.value)) (w64 (625000 / 3000000000)))
      let m := m.setW (3 * p) e
      let quiet := decide (24 ≤ h.length) && (h.take 24).all (fun v => (val32 (abs32 v.value)).ltRat (c.p 3))
      let late := decide (ks + msToTicks (c.p 2) ≤ t)
      if !quiet && !late then { s with mem := m }
      else
        let int := m.w (3 * p + 1)
        let est := m.flag (b + 7)
        let e := if est then mul64 (mul64 int int) (w64 (c.p 2 / 1000)) else e
        let base := if (val64 int).ltRat (c.p 4) then w64 (c.p 4) else int
        let wear := mul64 (w64 1000000) (Config.pow (div64 base (w64 (c.p 5))) (w64 (c.p 6)))
        let k0 := (s.mem.get (b + 2)).floor.toNat
        let adds := [(c.n (7 + p), k0, 1), (c.n (10 + p), k0, roundWide e), (c.n (13 + p), k0, roundWide wear)]
        let m := (((m.setW (3 * p + 2) e).setFlag (b + 1) false).setFlag (b + 5) (!quiet)).setFlag (b + 6) (est || m.flag (b + 4))
        let m := (m.set (1000 + b) (m.get (b + 8))).set (1001 + b) (m.get (b + 9))
        { mem := (m.setFlag (b + 7) false).setFlag (b + 3) false,
          adds := s.adds ++ adds.filter (fun a => a.1 != 0xFFFF), event := true }

/-- IIT (R372 to R376). I_INT is formed over START and the phasor of k_s, BUSY over START and the samples of the operation begun last,
I2T and STATUS over START, the phasor and the samples of the operation they report (R344).
DEDUCED, assumption 87: unsafe. -/
def evalIit (c : OpCtx) : JobResult :=
  let poles := c.n 0
  let from' := match c.mem.kLast with | some k => k + 1 | none => c.k
  let s : PoleStep := (List.range poles).foldl (fun (s : PoleStep) p =>
    let b := 10 * p
    let now := (c.arg (3 * p + 2)).isOne
    let rise := now && !s.mem.flag b && c.mem.kLast.isSome && !s.mem.flag (b + 1)
    let m := s.mem.setFlag b now
    let m := if rise then ((m.setFlag (b + 1) true).set (b + 2) c.k).setFlag (b + 7) false |>.del (b + 9) else m
    (List.range (c.k + 1 - from')).foldl (fun (s : PoleStep) i => poleTick c p s (from' + i)) { s with mem := m }) { mem := c.mem }
  let out := (List.range poles).flatMap fun p =>
    let b := 10 * p
    let q (keys : List Nat) : Nat := c.quality ((c.arg (3 * p + 2)).q :: keys.map fun k => (s.mem.get k).floor.toNat) c.chanTq
    let past := q [1000 + b, 1001 + b]
    let status := (if s.mem.flag (b + 5) then 1 else 0) + (if s.mem.flag (b + 6) then 2 else 0)
    [Elem.scalar (narrow (s.mem.w (3 * p + 1))) (q [b + 8]), Elem.scalar (narrow (s.mem.w (3 * p + 2))) past,
     boolElem (s.mem.flag (b + 1)) (q [b + 9]), natElem status past]
  { out := out, opst := c.opst false false false s.event, mem := s.mem,
    acts := if s.adds.isEmpty then [] else [.ledger s.adds] }

end Sys2Proof.Machine
end

