-- ==== Sys2Proof/Machine/Decide.lean ====
section
/-! DEFINITION. The decision operators (chapter 11): each from its inputs, parameters and state to its outputs. -/

namespace Sys2Proof.Machine

/-- BLOCK is 1, or the active group has ENABLE 0 (R385). -/
def OpCtx.blocked (c : OpCtx) (block : Nat) : Bool := c.bool block || c.p 0 == 0

/-- INVALID_MODE is HOLD (R384). -/
def OpCtx.holds (c : OpCtx) : Bool := c.p 2 == 1

/-- The quality over every bound input. -/
def OpCtx.allQ (c : OpCtx) : Nat := c.qualityOf (List.range c.ins.length)

/-- `l` where `p` holds: inputs that a mode brings into use (R344). -/
def usedIf (p : Prop) [Decidable p] (l : List Nat) : List Nat := if p then l else []

/-- The numbers below `n` for which `p` holds, as a mask. -/
def maskWhere (n : Nat) (p : Nat → Bool) : Nat := (List.range n).foldl (fun m i => if p i then m + 2 ^ i else m) 0

/-- One of a list is true. -/
def anyOf (n : Nat) (p : Nat → Bool) : Bool := (List.range n).any p

/-! ### TOC and EF (R387 to R390) -/

/-- M^a in binary64: a product where the exponent is 1 or 2. -/
def powC (m : Word64) (a : Rat) : Word64 := if a = 1 then m else if a = 2 then mul64 m m else Config.pow m (w64 a)

/-- Constants of a curve (Table 11.3): k or A, α or p, B, TR. -/
def curve (n : Nat) : Rat × Rat × Rat × Rat :=
  match n with
  | 1 => (14 / 100, 2 / 100, 0, 0) | 2 => (135 / 10, 1, 0, 0) | 3 => (80, 2, 0, 0) | 4 => (120, 1, 0, 0)
  | 5 => (515 / 10000, 2 / 100, 114 / 1000, 485 / 100) | 6 => (1961 / 100, 2, 491 / 1000, 216 / 10)
  | 7 => (282 / 10, 2, 1217 / 10000, 291 / 10) | _ => (0, 1, 0, 0)

/-- M = q / IS, limited to 40 (R388); none where q is no number. -/
def multiple (q : FVal) (is : Rat) : Option Rat :=
  match q with
  | .fin _ x => some (min 40 (x / is))
  | .inf false => some 40
  | _ => none

/-- dt / t(M) for an operating time t(M) of R388 (0 where t is infinite); dt in seconds.
DEDUCED, assumption 87: unsafe. -/
def curveStep (n : Nat) (tms m dt : Rat) : Word64 :=
  if m ≤ 1 then 0
  else
    let (k, a, b, _) := curve n
    let t := mul64 (w64 tms) (add64 (div64 (w64 k) (sub64 (powC (w64 m) a) (w64 1))) (w64 b))
    div64 (w64 dt) t

/-- The state keys of phase `i` of TOC: START, OPERATE, the timer since START rose, the time since dropout. -/
def kStart (i : Nat) : Nat := 10 * i

/-- See `kStart`. -/
def kOper (i : Nat) : Nat := 10 * i + 1

/-- See `kStart`. -/
def kSince (i : Nat) : Nat := 10 * i + 2

/-- See `kStart`. -/
def kDrop (i : Nat) : Nat := 10 * i + 3

/-- E kept from 0 to 1 (R389, R390). -/
def capE (e : Word64) : Word64 := if (val64 e).ltRat 0 then 0 else if (val64 e).gtRat 1 then w64 1 else e

/-- Phase `i` not started: its timer is gone and E is reset by RESET_MODE (R390). `base` is the place of CURVE. Mode 2 takes
dt / tr(M) = dt (1 − M²) / (TMS TR) from E at every M, those of 1 and more included, where DIRIN has fallen.
DEDUCED, assumption 87: unsafe. -/
def tocReset (c : OpCtx) (m : OpMem) (i base : Nat) (q : FVal) (was : Bool) : OpMem :=
  let cv := c.n base
  let m := ((m.setFlag (kStart i) false).setFlag (kOper i) false).del (kSince i)
  let mode := c.n (base + 5)
  if cv = 0 then m.setW i 0
  else if mode = 1 then
    let m := if was then m.set (kDrop i) 0 else m.set (kDrop i) (m.get (kDrop i) + c.dt)
    if c.p (base + 6) * 1000000000 ≤ m.get (kDrop i) then m.setW i 0 else m
  else if mode = 2 ∧ 5 ≤ cv then
    let (_, _, _, tr) := curve cv
    let down := match multiple q (c.p (base + 1)) with
      | some r => div64 (mul64 (w64 (c.dt / 1000000000)) (w64 (1 - r * r))) (mul64 (w64 (c.p (base + 2))) (w64 tr))
      | none => c.free64 i
    m.setW i (capE (sub64 (m.w i) down))
  else m.setW i 0

/-- One phase of TOC or EF.
DEDUCED, assumption 87: unsafe. -/
def tocPhase (c : OpCtx) (base i : Nat) (v : InVal) (q : Word) (dirOk blocked : Bool) (m : OpMem) : OpMem :=
  let was := m.flag (kStart i)
  if blocked then ((m.setFlag (kStart i) false).setFlag (kOper i) false).del (kSince i) |>.setW i 0
  else if v.invalid && c.holds then m
  else
    let start := !v.invalid && dirOk && overElem was (val32 q) (c.p (base + 1)) (c.p 1)
    if !start then tocReset c m i base (val32 q) was
    else
      let m := (m.setFlag (kStart i) true).timer (kSince i) true c.dt
      if c.n base = 0 then
        let delay := c.p (base + 3)
        let e : Rat := if delay = 0 then 1 else min 1 (m.get (kSince i) / (delay * 1000000000))
        (m.setFlag (kOper i) (m.reached (kSince i) delay)).setW i (w64 e)
      else
        let up := match multiple (val32 q) (c.p (base + 1)) with
          | some x => curveStep (c.n base) (c.p (base + 2)) x (c.dt / 1000000000)
          | none => c.free64 i
        let e := if was then capE (add64 (m.w i) up) else m.w i
        (m.setW i e).setFlag (kOper i) ((val64 e).geRat 1 && m.reached (kSince i) (c.p (base + 4)))

/-- The largest E of some phases. -/
def largestE (m : OpMem) (n : Nat) : Word :=
  narrow ((List.range n).foldl (fun (a : Word64) i => if (val64 a).lt (val64 (m.w i)) then m.w i else a) 0)

/-- TOC. Parameters: common, PHASES 4, DIRMODE 5, CURVE 6, IS, TMS, DELAY, T_MIN, RESET_MODE, T_RESET. -/
def evalToc (c : OpCtx) : JobResult :=
  let n := c.n 4
  let dirOk := c.p 5 = 0 ∨ c.bool 3
  let m := (List.range n).foldl (fun m i => tocPhase c 6 i (c.arg i) (c.arg i).value dirOk (c.blocked 4) m) c.mem
  let also := usedIf (c.p 5 ≠ 0) [3] ++ [4]
  let q := c.qualityOf (List.range n ++ also)
  let out := (List.range 3).map (fun i => boolElem (decide (i < n) && m.flag (kStart i)) (c.qualityOf (usedIf (i < n) [i] ++ also))) ++
    [boolElem (anyOf n fun i => m.flag (kStart i)) q, boolElem (anyOf n fun i => m.flag (kOper i)) q, .scalar (largestE m n) q]
  { out := out, opst := c.opst false false false false, mem := m }

/-- EF. -/
def evalEf (c : OpCtx) : JobResult :=
  let v := c.arg 0
  let q := if c.p 4 = 3 then mul32 0x40400000 v.value else v.value
  let m := tocPhase c 6 0 v q (c.p 5 = 0 ∨ c.bool 1) (c.blocked 2) c.mem
  let uq := c.qualityOf ([0] ++ usedIf (c.p 5 ≠ 0) [1] ++ [2])
  { out := [boolElem (m.flag (kStart 0)) uq, boolElem (m.flag (kOper 0)) uq, .scalar (largestE m 1) uq],
    opst := c.opst false false false false, mem := m }

/-! ### DIR (R392, R393) -/

/-- A direction: 0 none, 1 forward, 2 reverse, from the angle in degrees and the one before. -/
def direction (was : Nat) (theta margin : Rat) : Nat :=
  let a := absRat theta
  if was = 1 ∧ a ≤ 90 - margin + 2 then 1
  else if was = 2 ∧ 90 + margin - 2 ≤ a then 2
  else if a ≤ 90 - margin then 1
  else if 90 + margin ≤ a then 2
  else 0

/-- One element of DIR. `badV` tells that its voltage is invalid, `bad` that its voltage or its current is, `vq` the quality of the
voltage; `memory` that it remembers V_pol. State at 10i: direction, 1 the age of the remembered V_pol, 2 its quality, 3 it is used; words
2i and 2i + 1 its phasor. A V_pol of at least VMIN is remembered on every job, and LOW_SIGNAL follows V_pol on every job (R393).
DEDUCED, assumption 87: unsafe. -/
def dirElem (c : OpCtx) (i : Nat) (iop vpol : Cx) (vq : Nat) (badV bad : Bool) (memory : Bool) (m : OpMem) : OpMem × Bool :=
  let blocked := c.blocked (if memory then 6 else 2)
  let hold := !blocked && bad && c.holds
  let live := !badV && (val32 (to32 vpol.abs)).geRat (c.p 8)
  let (vr, vi) := vpol.round
  let m := if live then
      { ((m.set (10 * i + 1) 0).set (10 * i + 2) vq) with words := tabSet (tabSet m.words (2 * i) vr) (2 * i + 1) vi }
    else if hold then m
    else m.set (10 * i + 1) (m.get (10 * i + 1) + c.dt)
  let known := (tabGet m.words (2 * i)).isSome
  let usable := live || (memory && known && decide (m.get (10 * i + 1) ≤ c.p 9 * 1000000000))
  let m := m.setFlag (10 * i + 3) (usable && !live)
  if hold then (m, !usable)
  else if blocked || bad || !usable then (m.set (10 * i) 0, !usable)
  else
    let pol : Cx := if live then vpol
      else { re := val32 (tabGetD m.words (2 * i) 0), im := val32 (tabGetD m.words (2 * i + 1) 0) }
    let theta := wrapDeg (degrees iop.arg - degrees pol.arg - c.p 5)
    let was := (m.get (10 * i)).floor.toNat
    let imag := val32 (to32 iop.abs)
    let d := if imag.geRat (c.p 7) then direction was theta (c.p 6)
      else if was ≠ 0 ∧ !imag.ltRat (c.p 1 * c.p 7) then
        (let d := direction was theta (c.p 6); if d = was then d else 0)
      else 0
    (m.set (10 * i) d, false)

/-- DIR. Parameters: common, MODE 4, RCA, MARGIN, IMIN, VMIN, MEM_TIME. -/
def evalDir (c : OpCtx) : JobResult :=
  let v (i : Nat) : Cx := (c.arg i).cx
  let bad (l : List Nat) : Bool := l.any fun i => (c.arg i).invalid
  let vq (l : List Nat) : Nat := (l.map fun i => (c.arg i).q).foldl joinQ 0
  let phases := decide (c.p 4 = 0)
  let (m, low) : OpMem × Bool :=
    if phases then
      let one (m : OpMem) (x y z : Nat) : OpMem × Bool :=
        dirElem c x (v (3 + x)) ((Cx.ofRat 0 1).mul ((v y).sub (v z))) (vq [y, z]) (bad [y, z]) (bad [3 + x, y, z]) true m
      let (m, a) := one c.mem 0 1 2
      let (m, b) := one m 1 2 0
      let (m, d) := one m 2 0 1
      (m, a || b || d)
    else dirElem c 0 (v 1) (v 0).neg (vq [0]) (bad [0]) (bad [0, 1]) false c.mem
  let is (d i : Nat) : Bool := (m.get (10 * i)).floor.toNat == d
  let used (i : Nat) : List Nat := if phases then [3 + i, (i + 1) % 3, (i + 2) % 3, 6] else [0, 1, 2]
  let past (i : Nat) : List Nat := usedIf (m.flag (10 * i + 3)) [(m.get (10 * i + 2)).floor.toNat]
  let n := if phases then 3 else 1
  let qOf (l : List Nat) : Nat :=
    c.quality (((l.flatMap used).filterMap fun j => (c.input j).map (·.q)) ++ l.flatMap past) c.nodeTq
  let per (d : Nat) : List Elem := (List.range 3).map fun i => boolElem (phases && is d i) (qOf [if phases then i else 0])
  let all := qOf (List.range n)
  { out := per 1 ++ per 2 ++ [boolElem (anyOf n (is 1)) all, boolElem (anyOf n (is 2)) all], opst := c.opst false false low false,
    mem := m }

/-! ### DIS (R394, R395) -/

/-- Place of a zone's parameter. -/
def zp (z i : Nat) : Nat := 11 + 8 * z + i

/-- The characteristic of a zone about one impedance, with reaches multiplied by `k` (R394). -/
def insideOnce (c : OpCtx) (z : Nat) (r x k : Rat) (directional : Bool) : Bool :=
  let ang := radians (c.p 5)
  if c.n (zp z 0) = 1 then
    let cot := ratOf64 (div64 (Config.cos ang) (Config.sin ang))
    let arg := degrees (Config.atan2 (w64 x) (w64 r))
    decide (x ≤ k * c.p (zp z 3)) && decide (r ≤ k * c.p (zp z 5) + x * cot) && decide (x * cot - k * c.p (zp z 6) ≤ r) &&
      (!directional || (decide (c.p 6 ≤ arg) && decide (arg ≤ c.p 7)))
  else
    let half := k * c.p (zp z 4) / 2
    let dr := r - half * ratOf64 (Config.cos ang)
    let dx := x - half * ratOf64 (Config.sin ang)
    decide (dr * dr + dx * dx ≤ half * half)

/-- A loop is inside a zone (R394). -/
def insideZone (c : OpCtx) (z : Nat) (r x : Word) (k : Rat) : Bool :=
  match val32 r, val32 x with
  | .fin _ r, .fin _ x =>
    match c.n (zp z 1) with
    | 0 => insideOnce c z r x k true
    | 1 => insideOnce c z (-r) (-x) k true
    | _ => insideOnce c z r x k false || insideOnce c z (-r) (-x) k false
  | _, _ => false

/-- LOOPS_z enables a loop. -/
def loopEnabled (c : OpCtx) (z l : Nat) : Bool := (c.n (zp z 2)).testBit (if l < 3 then 0 else 1)

/-- State keys of zone `z` and loop `l`: its run of jobs inside, and whether it has started the zone. -/
def kRun (z l : Nat) : Nat := 20 * z + l

/-- See `kRun`. -/
def kIn (z l : Nat) : Nat := 20 * z + 6 + l

/-- The timer of START_z. -/
def kZone (z : Nat) : Nat := 20 * z + 12

/-- One zone of DIS. -/
def disZone (c : OpCtx) (z : Nat) (m : OpMem) : OpMem :=
  let off := c.blocked 19 || (c.bool 18 && (c.n 10).testBit z) || c.n (zp z 0) == 0
  let m := (List.range 6).foldl (fun m l =>
    let r := c.arg (3 * l)
    let x := c.arg (3 * l + 1)
    let bad := r.invalid || x.invalid
    if off || !loopEnabled c z l then (m.set (kRun z l) 0).setFlag (kIn z l) false
    else if bad && c.holds then m
    else if bad then (m.set (kRun z l) 0).setFlag (kIn z l) false
    else if m.flag (kIn z l) then
      if insideZone c z r.value x.value (1 + c.p 8 / 100) then m else (m.set (kRun z l) 0).setFlag (kIn z l) false
    else if insideZone c z r.value x.value 1 then
      let n := m.get (kRun z l) + 1
      (m.set (kRun z l) n).setFlag (kIn z l) (decide (c.p 9 ≤ n))
    else m.set (kRun z l) 0) m
  let start := anyOf 6 fun l => m.flag (kIn z l)
  let frozen := c.holds && !off && (tabGet m.vals (kZone z)).isSome &&
    (List.range 6).all fun l => !m.flag (kIn z l) || (c.arg (3 * l)).invalid || (c.arg (3 * l + 1)).invalid
  if start && frozen then m else m.timer (kZone z) start c.dt

/-- DIS. Parameters: common, ZONES 4, LINE_ANG 5, DIR_LO 6, DIR_HI 7, HYST 8, CONFIRM 9, PSB_MASK 10, then per zone SHAPE,
DIRECTION, LOOPS, XR, REACH, RR, RL, DELAY. -/
def evalDis (c : OpCtx) : JobResult :=
  let n := c.n 4
  let m := (List.range n).foldl (fun m z => disZone c z m) c.mem
  let used (z : Nat) : List Nat :=
    usedIf (z < n ∧ c.n (zp z 0) ≠ 0)
      ((List.range 6).flatMap (fun l => usedIf (loopEnabled c z l) [3 * l, 3 * l + 1]) ++ usedIf ((c.n 10).testBit z) [18]) ++ [19]
  let q := c.qualityOf ((List.range n).flatMap used)
  let st (z : Nat) : Bool := decide (z < n) && anyOf 6 fun l => m.flag (kIn z l)
  let op (z : Nat) : Bool := st z && m.reached (kZone z) (c.p (zp z 7))
  let out := (List.range 5).flatMap (fun z => [boolElem (st z) (c.qualityOf (used z)), boolElem (op z) (c.qualityOf (used z))]) ++
    [boolElem (anyOf n st) q, natElem (maskWhere 6 fun l => anyOf n fun z => st z && decide (0 < m.get (kRun z l))) q]
  { out := out, opst := c.opst false false false false, mem := m }

/-! ### PSB (R396) -/

/-- PSB. Parameters: common, R_OUT 4, X_OUT, R_IN, X_IN, T_PSB 8, T_REL, T_MAX, I_UNB, IMIN 12. State: 0 time in the band,
1 BLOCK and its age 2, 3 time outside, 4 SWING, 5 no new BLOCK until Z1, from valid inputs, has been found outside the outer region.
DEDUCED, assumption 87: unsafe. -/
def evalPsb (c : OpCtx) : JobResult :=
  let v := c.arg 0
  let i := c.arg 1
  let unb := c.arg 2
  let bad := v.invalid || i.invalid || unb.invalid
  let weak := (val32 (to32 i.cx.abs)).ltRat (c.p 12)
  let z := v.cx.div i.cx
  let within (r x : Rat) : Bool := z.re.abs.leRat r && z.im.abs.leRat x
  let region := if weak || !within (c.p 4) (c.p 5) then 0 else if within (c.p 6) (c.p 7) then 2 else 1
  let known := !v.invalid && !i.invalid
  let m := c.mem.setFlag 5 (c.mem.flag 5 && !(known && region == 0))
  let m :=
    if c.blocked 3 then ({ m with vals := [] } : OpMem).setFlag 5 (m.flag 5)
    else if bad && c.holds then m
    else
      let region := if bad then 0 else region
      let m := m.timer 0 (region == 1) c.dt
      let m := m.timer 3 (region == 0) c.dt
      let swing := m.reached 0 (c.p 8)
      let rise := swing && !m.flag 4
      let m := m.setFlag 4 swing
      let fault := !unb.invalid && (val32 unb.value).geRat (c.p 11)
      let m := m.timer 2 (m.flag 1) c.dt
      let drop := m.flag 1 && (m.reached 3 (c.p 9) || m.reached 2 (c.p 10))
      let m := if drop then (m.setFlag 1 false).del 2 else m
      let m := if rise && !m.flag 5 then (m.setFlag 1 true).set 2 0 else m
      if fault && m.flag 1 then ((m.setFlag 1 false).del 2).setFlag 5 (!known || region != 0) else m
  let q := c.qualityOf [0, 1, 3]
  { out := [boolElem (m.flag 1) c.allQ, boolElem (m.flag 4) q, natElem region (c.qualityOf [0, 1])], opst := c.opst false false false false, mem := m }

/-! ### DIF (R397 to R400) -/

/-- I'_x of one end in per unit (R397), phases A, B and C. -/
def difEnd (c : OpCtx) (e : Nat) : List Cx :=
  let v (i : Nat) : Cx := (c.arg (3 * e + i)).cx
  let third := FVal.ofRat (1 / 3)
  let shift := c.p (5 + 3 * e + 1)
  let i0 := (((v 0).add (v 1)).add (v 2)).scale third
  let i1 := ((((v 0).add (cisA.mul (v 1))).add (cisA2.mul (v 2))).scale third).mul (expj (radians (-30 * shift)))
  let i2 := ((((v 0).add (cisA2.mul (v 1))).add (cisA.mul (v 2))).scale third).mul (expj (radians (30 * shift)))
  let i0 := if c.p (5 + 3 * e + 2) = 1 then Cx.ofRat 0 0 else i0
  let per (z : Cx) : Cx := z.scale (.ofRat (1 / c.p (5 + 3 * e)))
  [per ((i0.add i1).add i2), per ((i0.add (cisA2.mul i1)).add (cisA.mul i2)), per ((i0.add (cisA.mul i1)).add (cisA2.mul i2))]

/-- char(Ib) (R398). -/
def difChar (c : OpCtx) (ib : Rat) : Rat :=
  if ib ≤ c.p 18 then c.p 17
  else if ib ≤ c.p 20 then c.p 17 + c.p 19 * (ib - c.p 18)
  else c.p 17 + c.p 19 * (c.p 20 - c.p 18) + c.p 21 * (ib - c.p 20)

/-- DIF. Parameters: common, ENDS 4, per end BASE, SHIFT, ZSEQ_ELIM (5 to 16), IDMIN 17, IB1, SLOPE1, IB2, SLOPE2, IDUNR 22,
H2_MODE, H5_MODE, H2_SET, H5_SET, DELAY 27. State per phase: 0 to 2 START, 3 to 5 its timer while not withheld. -/
def evalDif (c : OpCtx) : JobResult :=
  let ends := c.n 4
  let per := (List.range ends).map (difEnd c)
  let phase (x : Nat) : List Cx := per.map fun l => l.getD x (Cx.ofRat 0 0)
  let mags (x : Nat) : List FVal := (phase x).map Cx.abs
  let id' (x : Nat) : Word := to32 ((phase x).foldl Cx.add (Cx.ofRat 0 0)).abs
  let ib (x : Nat) : Word := to32 (((mags x).foldl FVal.add (.ofRat 0)).mul (.ofRat (1 / 2)))
  let bad := anyOf (3 * ends) fun i => (c.arg i).invalid
  let blocked := c.blocked 36
  let largest (x : Nat) : Nat :=
    ((List.range ends).foldl (fun (b : Nat × FVal) e =>
      let w := (mags x).getD e (.ofRat 0)
      if b.2.lt w then (e, w) else b) (0, (mags x).getD 0 (.ofRat 0))).1
  let m0 := c.mem
  let hold := bad && c.holds
  let start (x : Nat) : Bool :=
    if blocked then false else if hold then m0.flag x else if bad then false
    else
      let ch := difChar c (ratOf32 (ib x))
      if m0.flag x then !(val32 (id' x)).ltRat (c.p 1 * ch) else (val32 (id' x)).geRat ch
  let harmonic (off : Nat) (set : Rat) (x : Nat) : Bool :=
    let v := c.arg (off + 3 * largest x + x)
    v.invalid || (val32 v.value).geRat set
  let withheld (mode off : Nat) (set : Rat) (x : Nat) : Bool :=
    if mode = 1 then harmonic off set x
    else if mode = 2 then anyOf 3 fun y => start y && harmonic off set y
    else false
  let h2 (x : Nat) : Bool := withheld (c.n 23) 12 (c.p 25) x
  let h5 (x : Nat) : Bool := withheld (c.n 24) 24 (c.p 26) x
  let m := (List.range 3).foldl (fun (m : OpMem) x =>
    if hold && !blocked then m
    else (m.setFlag x (start x)).timer (3 + x) (start x && !h2 x && !h5 x) c.dt) m0
  let operate := !blocked && anyOf 3 fun x => m.reached (3 + x) (c.p 27)
  let unr := !blocked && (if hold then m0.flag 6 else !bad && anyOf 3 fun x => (val32 (id' x)).geRat (c.p 22))
  let m := m.setFlag 6 unr
  let amps := List.range (3 * ends)
  let ratios (mode off : Nat) : List Nat := usedIf (mode ≠ 0) ((List.range 3).map fun x => off + 3 * largest x + x)
  let u2 := ratios (c.n 23) 12
  let u5 := ratios (c.n 24) 24
  let q := c.qualityOf amps
  let qs := c.qualityOf (amps ++ [36])
  let out := (List.range 3).map (fun x => boolElem (m.flag x) qs) ++
    [boolElem operate (c.qualityOf (amps ++ u2 ++ u5 ++ [36])), boolElem unr qs,
     boolElem (anyOf 3 fun x => m.flag x && h2 x) (c.qualityOf (amps ++ u2 ++ [36])),
     boolElem (anyOf 3 fun x => m.flag x && h5 x) (c.qualityOf (amps ++ u5 ++ [36]))] ++
    (List.range 3).map (fun x => Elem.scalar (id' x) q) ++ (List.range 3).map (fun x => Elem.scalar (ib x) q)
  { out := out, opst := c.opst false false false false, mem := m }

/-! ### VLT and FRE (R401, R402) -/

/-- VLT. Parameters: common, PHASES 4, FUNC, LOGIC, PICKUP, VBLOCK, DELAY 9. State: START of phase i at i, the timer at 10, START 11,
OPERATE 12; these three stand while HOLD finds a phase invalid (R384).
DEDUCED, assumption 87: unsafe. -/
def evalVlt (c : OpCtx) : JobResult :=
  let n := c.n 4
  let blocked := c.blocked 3
  let m := (List.range n).foldl (fun (m : OpMem) i =>
    let v := c.arg i
    if blocked then m.setFlag i false
    else if v.invalid then (if c.holds then m else m.setFlag i false)
    else
      let q := val32 v.value
      m.setFlag i (if c.p 5 = 0 then overElem (m.flag i) q (c.p 7) (c.p 1)
        else !q.ltRat (c.p 8) && underElem (m.flag i) q (c.p 7) (c.p 1))) c.mem
  let start := if c.p 6 = 0 then anyOf n fun i => m.flag i else (List.range n).all fun i => m.flag i
  let frozen := !blocked && c.holds && anyOf n fun i => (c.arg i).invalid
  let m := if frozen then m
    else
      let m := m.timer 10 start c.dt
      (m.setFlag 11 start).setFlag 12 (start && m.reached 10 (c.p 9))
  let q := c.qualityOf (List.range n ++ [3])
  let out := (List.range 3).map (fun i => boolElem (decide (i < n) && m.flag i) (c.qualityOf [i, 3])) ++
    [boolElem (m.flag 11) q, boolElem (m.flag 12) q]
  { out := out, opst := c.opst false false false false, mem := m }

/-- FRE. Parameters: common, FUNC 4, PICKUP, HYST, DELAY 7. State: START 0, timer 1. -/
def evalFre (c : OpCtx) : JobResult :=
  let f := c.n 4
  let v := c.arg (if f ≤ 1 then 0 else 1)
  let x := val32 v.value
  let blocked := c.blocked 2
  let was := c.mem.flag 0
  let m :=
    if blocked then (c.mem.setFlag 0 false).del 1
    else if v.invalid && c.holds then c.mem
    else
      let start := !v.invalid &&
        (if f = 0 then underAbs was x (c.p 5) (c.p 6)
         else if f = 1 ∨ f = 2 then overAbs was x (c.p 5) (c.p 6)
         else if f = 3 then underAbs was x (-(c.p 5)) (c.p 6)
         else overAbs was x.abs (c.p 5) (c.p 6))
      (c.mem.setFlag 0 start).timer 1 start c.dt
  let q := c.qualityOf [if f ≤ 1 then 0 else 1, 2]
  { out := [boolElem (m.flag 0) q, boolElem (m.flag 0 && m.reached 1 (c.p 7)) q],
    opst := c.opst false false false false, mem := m }

/-! ### BFP and SOTF (R403, R404) -/

/-- BFP. Parameters: common, PHASES 4, MODE, I_BF, T_RETRIP, T_BACKUP 8. State: phase i at i, T1 10, T2 11, RETRIP 12,
BACKUP 13; these four stand while HOLD finds a current invalid (R384).
DEDUCED, assumption 87: unsafe. -/
def evalBfp (c : OpCtx) : JobResult :=
  let n := c.n 4
  let blocked := c.blocked 5
  let startBf := c.bool 0 && !blocked
  let anyBad := anyOf n fun i => (c.arg (1 + i)).invalid
  let usesCurrent := c.p 5 ≠ 1
  let hold := usesCurrent && anyBad && c.holds && !blocked
  let m := (List.range n).foldl (fun (m : OpMem) i =>
    let v := c.arg (1 + i)
    if blocked then m.setFlag i false
    else if v.invalid then (if c.holds then m else m.setFlag i false)
    else m.setFlag i (overElem (m.flag i) (val32 v.value) (c.p 6) (c.p 1))) c.mem
  let current := anyOf n fun i => m.flag i
  let closed := c.bool 4
  let notOpen := if c.p 5 = 0 then current else if c.p 5 = 1 then closed else current || closed
  let m := if hold then m
    else
      let m := (m.timer 10 startBf c.dt).timer 11 (startBf && notOpen) c.dt
      (m.setFlag 12 (startBf && m.reached 10 (c.p 7))).setFlag 13 (m.reached 11 (c.p 8))
  let q := c.qualityOf [0, 5]
  let qb := c.qualityOf ([0, 5] ++ usedIf (c.p 5 ≠ 1) ((List.range n).map (1 + ·)) ++ usedIf (c.p 5 ≠ 0) [4])
  { out := [boolElem (m.flag 12) q, boolElem (m.flag 13) qb, boolElem startBf q],
    opst := c.opst false false false false, mem := m }

/-- SOTF. Parameters: common, VDEAD 4, IDEAD, T_DEAD, T_WIN, I_SOTF 8. State: 0 the time dead, 1 ARMED, 2 the age of WINDOW,
3 MANUAL_CLOSE at the previous job, 4 OPERATE; all stand while HOLD finds a current invalid (R384).
DEDUCED, assumption 87: unsafe. -/
def evalSotf (c : OpCtx) : JobResult :=
  let volts := [0, 1, 2].filterMap c.input
  let amps := [3, 4, 5].filterMap c.input
  let blocked := c.blocked 11
  let badI := amps.any (·.invalid)
  let dead := volts.all (fun v => !v.invalid && (val32 v.value).ltRat (c.p 4)) &&
    amps.all (fun v => !v.invalid && (val32 v.value).ltRat (c.p 5))
  let close := c.bool 6
  let trig := anyOf 4 (fun i => c.bool (7 + i)) || amps.any (fun v => !v.invalid && (val32 v.value).geRat (c.p 8))
  let m :=
    if blocked then ({ c.mem with vals := [] } : OpMem).setFlag 3 close
    else if badI && c.holds then c.mem
    else
      let m := c.mem.timer 0 dead c.dt
      let was := m.flag 1
      let open' := (was && !dead) || (close && !m.flag 3 && c.mem.kLast.isSome)
      let m := if open' then (m.setFlag 1 false).set 2 0
        else
          let m := if m.reached 0 (c.p 6) then m.setFlag 1 true else m
          m.timer 2 ((tabGet m.vals 2).isSome && decide (m.get 2 + c.dt < c.p 7 * 1000000000)) c.dt
      (m.setFlag 3 close).setFlag 4 ((tabGet m.vals 2).isSome && trig)
  let q := c.qualityOf ([0, 1, 2, 3, 4, 5, 6] ++ [11])
  { out := [boolElem (m.flag 1) q, boolElem (tabGet m.vals 2).isSome q, boolElem (m.flag 4) c.allQ],
    opst := c.opst false false false false, mem := m }

/-! ### SYN (R405) -/

/-- SYN. Parameters: common, VLIVE 4, VDEAD, DV_MAX, DPHI_MAX, DF_MAX, COMP_ANG, DEAD_MODE, T_SYN, T_DEAD 12. State: 0 the live
condition's time, 1 the dead condition's. -/
def evalSyn (c : OpCtx) : JobResult :=
  let bus := c.arg 0
  let line := c.arg 1
  let vb := val32 bus.value
  let vl := val32 line.value
  let dv := to32 (vb.add vl.opp)
  let dphi := rat32 (wrapDeg (degrees ((line.cx.mul (expj (radians (c.p 9)))).arg) - degrees bus.arg))
  let df := sub32 (c.arg 3).value (c.arg 2).value
  let bad := anyOf 4 fun i => (c.arg i).invalid
  let isLive (v : FVal) : Bool := v.geRat (c.p 4)
  let isDead (v : FVal) : Bool := v.ltRat (c.p 5)
  let live := isLive vb && isLive vl && (val32 (abs32 dv)).leRat (c.p 6) && (val32 (abs32 dphi)).leRat (c.p 7) &&
    (val32 (abs32 df)).leRat (c.p 8)
  let mode := c.n 10
  let dead := (mode.testBit 0 && isDead vb && isLive vl) || (mode.testBit 1 && isLive vb && isDead vl) ||
    (mode.testBit 2 && isDead vb && isDead vl)
  let off := c.blocked 4 || bad
  let m := (c.mem.timer 0 (live && !off) c.dt).timer 1 (dead && !off) c.dt
  let ok := !off && (m.reached 0 (c.p 11) || m.reached 1 (c.p 12))
  { out := [boolElem ok c.allQ, .scalar dv (c.qualityOf [0, 1]), .scalar dphi (c.qualityOf [0, 1]), .scalar df (c.qualityOf [2, 3])],
    opst := c.opst false false false false, mem := m }

/-! ### TRC and DRT (R406 to R408) -/

/-- TRC. Parameters: GSEL, INPUTS 1, TMIN, LATCH, INV_TRIP, SO 5, PUB, LOCKOUT 7. State: 0 TRIP and its age 1, 3 FIRST,
4 SOURCES; that it follows its latch is kept with the latch, which outlasts every reset and start (R104, R406, R504). -/
def evalTrc (c : OpCtx) : JobResult :=
  let n := c.n 1
  let one (i : Nat) : Bool := if (c.arg i).invalid then (c.n 4).testBit i else c.bool i
  let sources := maskWhere n one
  let m := c.mem
  let was := m.flag 0
  let latched := c.latched
  let m := m.timer 1 was c.dt
  let held := was && !m.reached 1 (c.p 2)
  let on := sources != 0 || held || latched
  let rise := on && !was
  let lockout := c.n 7
  let sets := rise && c.p 3 == 1 && lockout != 0xFF
  let m := m.setFlag 0 on
  let m := if rise then
      ((m.set 1 0).set 3 (((List.range n).find? one).getD 0)).set 4 sources
    else m
  let m := if on then m else m.del 1
  let first := (m.get 3).floor.toNat
  let src := (m.get 4).floor.toNat
  let q := c.allQ
  { out := [boolElem on q, boolElem (latched || sets) q, natElem first q, natElem src q],
    opst := c.opst false false false false, mem := m,
    acts := (if sets then [.latch lockout] else []) ++
      [.trip (c.n 5) (c.n 6) on (on != was) first src] }

/-- DRT. Parameters: GSEL, INPUTS 1, then KIND, LEVEL, HYST of each of eight inputs (2 to 25), RECORDERS 26. State: input i at i,
ACTIVE 10; word i the value of input i at the previous job. -/
def evalDrt (c : OpCtx) : JobResult :=
  let n := c.n 1
  let kind (i : Nat) : Nat := c.n (2 + 3 * i)
  let level (i : Nat) : Rat := c.p (3 + 3 * i)
  let active (i : Nat) : Bool :=
    let v := c.arg i
    if v.invalid then false
    else if kind i = 0 then v.isOne
    else if kind i = 1 then overAbs (c.mem.flag i) (val32 v.value) (level i) (c.p (4 + 3 * i))
    else underAbs (c.mem.flag i) (val32 v.value) (level i) (c.p (4 + 3 * i))
  let blocked := c.bool n
  let on (i : Nat) : Bool := !blocked && active i
  let was := c.mem.flag 10
  let any := anyOf n on
  let rise := any && !was
  let tk : Rat := (c.k : Rat) * 625000 / 3
  let instant (i : Nat) : Option Rat :=
    match c.mem.kLast, tabGet c.mem.words i with
    | some kp, some w =>
      if !on i || c.mem.flag i || kind i == 0 then none
      else
        let tp : Rat := (kp : Rat) * 625000 / 3
        let ratio := div64 (sub64 (w64 (level i)) (widen w)) (sub64 (widen (c.arg i).value) (widen w))
        some (tp + ratOf64 (mul64 ratio (w64 (tk - tp))))
    | _, _ => none
  let early := (List.range n).foldl (fun (best : Option (Rat × Nat)) i =>
    match instant i, best with
    | some t, some b => if t < b.1 then some (t, i) else best
    | some t, none => some (t, i)
    | none, _ => best) none
  let (ti, idx) := early.getD (tk, ((List.range n).find? on).getD 0)
  let m := (List.range n).foldl (fun (m : OpMem) i =>
    let m := m.setFlag i (on i)
    { m with words := if (c.arg i).invalid then tabDel m.words i else tabSet m.words i (c.arg i).value }) (c.mem.setFlag 10 any)
  let q := c.allQ
  { out := [boolElem rise q, boolElem any q, natElem (maskWhere n on) q], opst := c.opst false false false false, mem := m,
    acts := if rise then [.record (c.n 26) c.k (ti + 1 / 2).floor.toNat idx] else [] }

/-! ### ADP (R413, R414) -/

/-- Condition `i` of ADP. State at 10i: the raw state, 1 the time it has been true, 2 the time it has been false, 3 the condition. -/
def adpCond (c : OpCtx) (i : Nat) (m : OpMem) : OpMem :=
  let b := 10 * i
  let p (j : Nat) : Rat := c.p (3 + 6 * i + j)
  let v := c.arg i
  if v.invalid then
    if p 5 = 0 then m
    else
      let on := decide (p 5 = 2)
      (((m.setFlag b on).del (b + 1)).del (b + 2)).setFlag (b + 3) on
  else
    let x := val32 v.value
    let raw := if p 0 = 0 then overAbs (m.flag b) x (p 1) (p 2) else underAbs (m.flag b) x (p 1) (p 2)
    let m := ((m.setFlag b raw).timer (b + 1) raw c.dt).timer (b + 2) (!raw) c.dt
    if raw && m.reached (b + 1) (p 3) then m.setFlag (b + 3) true
    else if !raw && m.reached (b + 2) (p 4) then m.setFlag (b + 3) false
    else m

/-- The bank requests of a BANKS word (R414); SLOT_t and F_t start at place 133. -/
def adpBanks (c : OpCtx) (word : Nat) : List Act :=
  (List.range 8).filterMap fun t =>
    let f := word / 4 ^ t % 4
    let slot := c.n (133 + 2 * t)
    if slot = 0xFFFF then none
    else if f = 1 then some (.bank slot false (c.n (134 + 2 * t)))
    else if f = 2 then some (.bank slot true (c.n (134 + 2 * t)))
    else none

/-- ADP. Parameters: CONDS, RULES, GSEL, six of each condition (3 to 98), four of each rule (99 to 130), DEFAULT_GROUP 131,
DEFAULT_BANKS 132, two of each target. State: the last result at 200, plus 1. -/
def evalAdp (c : OpCtx) : JobResult :=
  let conds := c.n 0
  let m := (List.range conds).foldl (fun m i => adpCond c i m) c.mem
  let mask := maskWhere conds fun i => m.flag (10 * i + 3)
  let holds (r : Nat) : Bool :=
    let t := c.n (99 + 4 * r)
    let f := c.n (100 + 4 * r)
    (mask &&& t) == t && (mask &&& f) == 0
  let rule := ((List.range (c.n 1)).find? holds).getD 8
  let group := if rule = 8 then c.n 131 else c.n (101 + 4 * rule)
  let banks := if rule = 8 then c.n 132 else c.n (102 + 4 * rule)
  let before := (tabGet m.vals 200).map fun x => x.floor.toNat
  let changed := match before with | some b => b != rule + 1 | none => false
  let q := c.allQ
  { out := [natElem rule q, natElem (if group = 0xFF then 255 else group) q, natElem mask q],
    opst := c.opst false false false false, mem := m.set 200 ((rule + 1 : Nat) : Rat),
    acts := (if group = 0xFF then [] else [.group (c.n 2) group]) ++ if changed then adpBanks c banks else [] }

/-- The evaluation of an operator of the catalogue; the previous tick is kept for Δt (R382).
DEDUCED, assumption 23: unsafe. -/
def evalOp (op : Nat) (c : OpCtx) : JobResult :=
  let r : JobResult :=
    match op with
    | 0x0101 => evalPhs c | 0x0102 => evalHrm c | 0x0103 => evalSeq c | 0x0104 => evalFrq c | 0x0105 => evalPwr c
    | 0x0106 => evalTrms c | 0x0107 => evalImp c | 0x0108 => evalThm c | 0x0109 => evalIit c
    | 0x0201 => evalToc c | 0x0202 => evalEf c | 0x0203 => evalDir c | 0x0204 => evalDis c | 0x0205 => evalDif c
    | 0x0206 => evalVlt c | 0x0207 => evalFre c | 0x0208 => evalBfp c | 0x0209 => evalSotf c | 0x020A => evalPsb c
    | 0x020B => evalSyn c | 0x020C => evalTrc c | 0x020D => evalDrt c | 0x020E => evalAdp c
    | _ => { mem := c.mem }
  { r with mem := { r.mem with kLast := some c.k }, subst := c.substituted }

end Sys2Proof.Machine
end

