-- ==== Sys2Proof/Machine/SioOps.lean ====
section
/-! DEFINITION. Safety outputs, lockout latches and HEALTHY (R498 to R510, R627, R628). -/

namespace Sys2Proof.Machine

/-- The trip paths changed by `f`. -/
def Run.modTrip (r : Run) (f : Trip → Trip) : Run := { r with trip := f r.trip }

/-- Safety output `n`. -/
def Run.so (r : Run) (n : Nat) : So := r.trip.sos.getD n {}

/-- Safety output `n` changed by `f`. -/
def Run.modSo (r : Run) (n : Nat) (f : So → So) : Run := r.modTrip fun t => { t with sos := modAt t.sos n f }

/-- A change of a mirrored item waits to be sent (R495), oldest change first. -/
def Run.noteMirror (r : Run) (k : MirrorKey) : Run :=
  if (r.trip.trib.cfg.isNone ∧ r.trip.trib.next.isNone) ∨ r.trip.trib.queue.contains k then r
  else r.modTrip fun t => { t with trib := { t.trib with queue := t.trib.queue ++ [k] } }

/-! ### Outputs (R498 to R500) -/

/-- The outputs driven and judged with output `n`: itself, or both of its pair. -/
def Run.channelsOf (r : Run) (n : Nat) : List Nat := if (r.so n).paired then [n / 2 * 2, n / 2 * 2 + 1] else [n]

/-- The level an output's ball is driven to. -/
def So.level (z : So) : Bool := z.drive && z.pulse.isNone

/-- The ball of an output serves as FB_n_STB (R670). -/
def Trip.muxed (t : Trip) (n : Nat) : Bool := decide (28 ≤ n) && decide (n < 32) && t.ballMux.testBit (n - 28)

/-- HEALTHY has fallen with HALT set (R628): outputs stay safe and publications suspended. -/
def Run.halted (r : Run) : Bool := r.flt.halt && r.flt.cause != 0

/-- The readback of an output that changes its level follows it (R499), unless the output is faulted.
DESIGN CHOICE, assumption 70: unsafe. -/
def So.follow (z : So) (was : Bool) : So := if z.enabled && !z.fault && z.level != was then { z with sofb := z.level } else z

/-- One output is commanded: an energisation counts in SO_OPS_n (Table 16.4), unless its ball serves the field bus (R670);
a command to de-energise ends an off-pulse (R500). -/
def Run.driveOne (r : Run) (v : Bool) (n : Nat) : Run :=
  let z := r.so n
  let y := { z with drive := v, pulse := if v then z.pulse else none }
  let r := r.modSo n fun _ => y.follow z.level
  let r := if v && !z.drive && !r.trip.muxed n then r.count (.soOps n) else r
  if z.enabled && y.level != z.level then r.emit (.ball (.so n) (if y.level then .high else .low)) else r

/-- An output, or its pair, takes a level; both channels take the same (R498). -/
def Run.soPut (r : Run) (n : Nat) (v : Bool) : Run := (r.channelsOf n).foldl (fun r i => r.driveOne v i) r

/-- An output, or its pair, takes its SAFE value; that of a pair is the one declared for its even output (assumption 24, DESIGN CHOICE). -/
def Run.soSafe (r : Run) (n : Nat) : Run :=
  r.soPut n (r.so (if (r.so n).paired then n / 2 * 2 else n)).safe

/-- The instance that owns an output is ACTIVE; without that the output keeps its SAFE value (R103). -/
def Run.soLive (r : Run) (n : Nat) : Bool :=
  match (r.so n).owner with | some i => (r.inst i).phase == .active | none => false

/-- A write to an output: none where it fails (Table 12.7: the output is faulted) or the device holds it safe. Outside ACTIVE it leaves
the output at its SAFE value (R103). -/
def Run.soWrite (r : Run) (n : Nat) (v : Bool) : Option Run :=
  if (r.so n).fault ∨ r.halted then none else some (if r.soLive n then r.soPut n v else r)

/-- The outputs an instance has claimed take their SAFE values (R103). -/
def Run.soSafeOf (r : Run) (inst : Nat) : Run :=
  (List.range 32).foldl (fun (r : Run) n => if (r.so n).owner = some inst then r.soSafe n else r) r

/-! ### HEALTHY (R627, R628) -/

/-- A cause of Table 19.4 occurs: HEALTHY falls and stays low; with HALT every output takes its SAFE value. -/
def Run.healthyFall (r : Run) (cause unit : Nat) : Run :=
  if r.flt.cause ≠ 0 then r
  else
    let was := r.flt.healthy
    let r := { r with flt := { r.flt with cause := cause, healthy := false } }
    let r := if was then (r.emit (.ball .healthy .low)).raise { ev := .healthy, source := 0, data := [cause, unit] } else r
    if r.flt.halt then (List.range 32).foldl (fun (r : Run) n => r.soSafe n) r else r

/-! ### Faults of outputs (R499) -/

/-- The claim an output is routed with (R514): the instance that owns it. -/
def Run.soOwner (r : Run) (n : Nat) : Option Nat := (r.so n).owner

/-- One channel is faulted. -/
def Run.faultOne (r : Run) (n cause : Nat) : Run :=
  if (r.so n).fault then r
  else
    let r := r.modSo n fun z => { z with fault := true, cause := cause, stat := tabInc z.stat 2 }
    r.raise { ev := .sioFault, source := 736 + n, owner := r.soOwner n, data := [n, cause] }

/-- An output faults, and its partner with it; with SO_FALL a claim of a RANK 0 instance makes HEALTHY fall. -/
def Run.soFault (r : Run) (n cause : Nat) : Run :=
  if (r.so n).fault then r
  else
    let r := (r.channelsOf n).foldl (fun (r : Run) i => r.faultOne i (if i = n then cause else 4)) r
    let r := r.soSafe n
    match r.soOwner n with
    | some i => if r.flt.soFall ∧ (r.inst i).rank = 0 then r.healthyFall 4 0 else r
    | none => r

/-! ### Lockout latches (R502 to R504) -/

/-- Latch `l`. -/
def Run.latch (r : Run) (l : Nat) : Latch := r.trip.latches.getD l {}

/-- Latch `l` changed by `f`. -/
def Run.modLatch (r : Run) (l : Nat) (f : Latch → Latch) : Run := r.modTrip fun t => { t with latches := modAt t.latches l f }

/-- A set, reset, refusal or mirrored change is entered in the Cellar, raised, and mirrored (R503); a change goes to DEV_STATE (R504). -/
def Run.latchEvent (r : Run) (l action : Nat) : Run :=
  let own := r.soOwner l
  let r := r.stage { type := 0x0012, time := r.now, source := 736 + l, inst := own.getD noInst, data := [l, action] }
  let r := (r.raise { ev := .sioLatch, source := 736 + l, owner := own, data := [l, action] }).noteMirror .latches
  if action = 3 then r else r.devState

/-- A TRC sets its latch, and from then on LATCHED follows it (R406).
DESIGN CHOICE, assumption 70: unsafe. -/
def Run.latchSet (r : Run) (l : Nat) : Run :=
  let r := r.modLatch l fun z => { z with followed := true }
  if (r.latch l).set then r
  else
    let at' := r.ticks
    (r.modLatch l fun z => { z with set := true, changes := (z.changes + 1) % 65536, setAt := at', highSince := none }).latchEvent l 1

/-- A reset refused because an input of the latch's TRC counts as 1: the attempt ends, it is counted, and the latch stays set (R503). -/
def Run.latchRefuse (r : Run) (l : Nat) : Run :=
  ((r.modLatch l fun z => { z with highSince := none }).modSo l fun z => { z with stat := tabInc z.stat 3 }).latchEvent l 3

/-- A state adopted from the twin (Table 14.5): the newer change count, or with equal counts a set state. A mirrored reset is refused
like a local one while an input of the latch's TRC counts as 1 (`holds`; R503).
DESIGN CHOICE, assumption 70: unsafe. -/
def Run.latchMirror (r : Run) (l : Nat) (set : Bool) (changes : Nat) (holds : Bool) : Run :=
  let z := r.latch l
  let ahead := (changes + 65536 - z.changes) % 65536
  if (1 ≤ ahead ∧ ahead < 32768) ∨ (ahead = 0 ∧ set ∧ !z.set) then
    if z.set && !set && holds then r.latchRefuse l
    else
    let at' := r.ticks
    let r := r.modLatch l fun z => { z with
      set := set, changes := changes, setAt := if set then at' else z.setAt, highSince := none }
    if set = z.set then r else r.latchEvent l 4
  else r

/-- Whether the high that begins now on a reset input can end in a reset (R502): low for 50 ms after the setting. -/
def Run.latchEligible (r : Run) (l lowSince : Nat) : Bool :=
  let z := r.latch l
  z.set && decide (max lowSince z.setAt + msTicks 50 ≤ r.ticks)

/-- The filtered level of input `n` changes: attempts on the latches that it resets begin or end. -/
def Run.resetInput (r : Run) (n : Nat) (high : Bool) (lowSince : Nat) : Run :=
  (List.range 32).foldl (fun (r : Run) l =>
    if (r.latch l).resetBi = n then
      let start : Option Nat := if high && r.latchEligible l lowSince then some r.ticks else none
      r.modLatch l fun z => { z with highSince := start }
    else r) r

/-! ### Sessions and the password (R506, R507) -/

/-- A function holds an unlocked session. -/
def Run.session (r : Run) (fn : Nat) : Bool :=
  match tabGet r.trip.sessions fn with
  | some t => decide (r.ticks < t + msTicks 600000)
  | none => false

/-- The lockout, in s, after some consecutive failures. -/
def lockoutOf (fails : Nat) : Nat := if fails < 5 then 0 else min (60 * 2 ^ (fails - 5)) 3600

/-- The hash of a password's verifier under a salt: 32 bytes (R506). -/
def verifierOf (password : List Nat) (salt : Nat) : Nat := Config.pbkdf2 password salt 200000 % 2 ^ 256

end Sys2Proof.Machine
end

