-- ==== Sys2Proof/Machine/SlcOps.lean ====
section
/-! DEFINITION. Sluice: flags, readiness, queues, dispatch and the ends of a job (R305 to R322, R340, R341). -/

namespace Sys2Proof.Machine

/-- Sluice changed by `f`. -/
def Run.modSluice (r : Run) (f : Sluice → Sluice) : Run := { r with slc := f r.slc }

/-- What Sluice keeps of instance `n`. -/
def Run.slcOf (r : Run) (n : Nat) : SlcInst := tabGetD r.slc.insts n {}

/-- Instance `n` of Sluice changed by `f`. -/
def Run.modSlc (r : Run) (n : Nat) (f : SlcInst → SlcInst) : Run :=
  r.modSluice fun x => { x with insts := tabSet x.insts n (f (tabGetD x.insts n {})) }

/-- A node of an instance changed by `f`. -/
def Run.modNode (r : Run) (n i : Nat) (f : NodeSt → NodeSt) : Run := r.modSlc n fun x => { x with nodes := modAt x.nodes i f }

/-- A device total (SLC_STAT) and the counter of the instance (R334) that follows it. -/
def Run.slcCount (r : Run) (k : Nat) (n : Nat) (item : Option Nat) : Run :=
  let r := r.modSluice fun x => { x with stat := tabInc x.stat k }
  match item with
  | some j => r.modSlc n fun x => { x with stat := tabInc x.stat j }
  | none => r

/-- The graph of an instance; an empty one where it has none. -/
def SlcInst.g (x : SlcInst) : Graph := x.graph.getD { nodes := [], edges := [], binds := [] }

/-- An edge list: from its head to the entry with LAST set (R309). -/
def listFrom : List GEdge → List GEdge
  | [] => []
  | e :: t => if e.last then [e] else e :: listFrom t

/-- The edges of an EDGE_HEAD. -/
def edgesOf (g : Graph) (head : Nat) : List GEdge := if head = 0xFFFF then [] else listFrom (g.edges.drop (2 * head))

/-- The clock period of a class in ps (Table 9.6). -/
def clsPeriod : Nat → Nat
  | 0 => 500 | 3 => 1250 | _ => 1000

/-- Dispatch crossing of a class in ps (Table 9.6). -/
def clsDispatch : Nat → Nat
  | 0 => 4000 | 3 => 7000 | _ => 6000

/-- Completion crossing of a class in ps (Table 9.6). -/
def clsComplete : Nat → Nat
  | 0 => 5000 | 3 => 6500 | _ => 6000

/-- Abort latency of a class in ps (Table 9.6). -/
def clsAbort : Nat → Nat
  | 0 => 32000 | 3 => 80000 | _ => 16000

/-- The units of a class (Table 9.6). -/
def clsUnits : Nat → Nat
  | 0 => 16 | 1 => 8 | 2 => 1 | 3 => 4 | 4 => 1 | _ => 0

/-- The units of a class that are in service (SLC_UNITS). -/
def Sluice.inService (x : Sluice) (cls : Nat) : List Nat :=
  (List.range (clsUnits cls)).filter fun u => !x.down.contains (cls, u)

/-! ### In-flight places -/

/-- Nodes queued or executing, device-wide. -/
def Sluice.inFlight (x : Sluice) : Nat := (x.flights.filter fun f => f.phase != .pending).length

/-- The in-flight quota of an instance (Table 3.3). -/
def InstState.flightQuota (i : InstState) : Nat := i.inEffect.sluice * 4096 / 1024

/-- The dispatch quota of an instance (Table 3.3). -/
def InstState.dispatchQuota (i : InstState) : Nat := i.inEffect.sluice * 1000000 / 1024

/-- There is room for one more node of an instance (R314). -/
def Run.room (r : Run) (n : Nat) : Bool :=
  decide ((r.inst n).inFlight < (r.inst n).flightQuota) && decide (r.slc.inFlight < 4096)

/-- The in-flight count of an instance changes, with the peaks (SLC_INFLIGHT, INFLIGHT_PEAK). -/
def Run.flightUp (r : Run) (n : Nat) : Run :=
  let r := r.modInst n fun i => { i with inFlight := i.inFlight + 1 }
  let own := (r.inst n).inFlight
  (r.modSlc n fun x => { x with peak := max x.peak own }).modSluice fun x => { x with peakNow := max x.peakNow x.inFlight }

/-- A place is freed. -/
def Run.flightDown (r : Run) (n : Nat) : Run := r.modInst n fun i => { i with inFlight := i.inFlight - 1 }

/-- Two records of one flight: a node can have a job of an old GEN beside a new one (R101). -/
def Flight.is (a b : Flight) : Bool := a.inst == b.inst && a.node == b.node && a.gen == b.gen && a.phase == b.phase

/-- The flight of a node in a state. -/
def Sluice.flightIn (x : Sluice) (n i : Nat) (p : NodePhase) : Option Flight :=
  x.flights.find? fun f => f.inst == n && f.node == i && f.phase == p

/-- A flight changed by `g`. -/
def Run.modFlight (r : Run) (f : Flight) (g : Flight → Flight) : Run :=
  r.modSluice fun x => { x with flights := x.flights.map fun h => if h.is f then g h else h }

/-- A flight is gone.
DEDUCED, assumption 88: unsafe. -/
def Run.dropFlight (r : Run) (f : Flight) : Run := r.modSluice fun x => { x with flights := x.flights.filter fun h => !h.is f }

/-- The flight of a node in a state is gone. -/
def Run.dropIn (r : Run) (n i : Nat) (p : NodePhase) : Run :=
  match r.slc.flightIn n i p with | some f => r.dropFlight f | none => r

/-- A ready node enters the ready queue of its level (R314): it takes the GEN of its instance and the last P tick flagged. -/
def Run.enqueueNode (r : Run) (f : Flight) : Run :=
  let n := f.inst
  let i := f.node
  let x := r.slcOf n
  let gen := (r.inst n).gen
  let groups := x.sels.map (·.active)
  let cycle := r.slc.cycle
  let q := tabGetD r.cfl.next n 0 - 1
  let r := (r.modFlight f fun f => { f with phase := .queued, enq := cycle, gen := gen, tick := x.tick, q := q, groups := groups }).modNode n i
    fun s => { s with phase := .queued }
  r.flightUp n

/-- PENDING nodes move into queues while room remains: the most urgent level first, then in the order they became ready (R314). -/
def Run.admitPending : Nat → Run → Run
  | 0, r => r
  | fuel + 1, r =>
    let waiting := r.slc.flights.filter fun f => f.phase == .pending && r.room f.inst
    let before (a b : Flight) : Bool :=
      decide (a.prio < b.prio) || (a.prio == b.prio && (decide (a.ready < b.ready) || (a.ready == b.ready &&
        (decide (a.inst < b.inst) || (a.inst == b.inst && decide (a.node < b.node))))))
    match waiting.foldl (fun (best : Option Flight) f => match best with | none => some f | some b => if before f b then some f else some b) none with
    | none => r
    | some f => Run.admitPending fuel (r.enqueueNode f)

/-! ### One Sluice cycle (R315) -/

/-- A release reaches a task whose previous job has not ended (R425): SLIPS, and EV_CLE_SLIP at most once in 100 ms.
DEDUCED, assumption 88: unsafe. -/
def Run.slip (r : Run) (n i : Nat) : Run :=
  match (r.slcOf n).g.nodes[i]? with
  | none => r
  | some g =>
    if g.cls ≠ 3 then r
    else match r.task n g.op with
      | none => r
      | some t =>
        let at' := r.now
        let quiet : Bool := match t.slipAt with | some x => decide (at' < x + 100000000) | none => false
        let r := r.modTask n g.op fun t => { t with
          stat := tabInc t.stat 7, slips := if quiet then t.slips + 1 else 0, slipAt := if quiet then t.slipAt else some at' }
        if quiet then r else r.cleEvent n g.op .cleSlip 5 [t.cycleNo, (t.slips + 1) % 65536]

/-- A flag to be set: its node, its bit, and the chains behind it. -/
structure FlagSet where
  inst : Nat
  node : Nat
  bit : Nat
  origins : List (Nat × Nat) := []
  deriving DecidableEq, Repr

/-- A mark joins those of a node: a flag that was set already keeps the tick of its first setting, and has the chains of both behind it. -/
def putMark (l : List FlagMark) (m : FlagMark) : List FlagMark :=
  if l.any fun x => x.bit == m.bit then
    l.map fun x => if x.bit = m.bit then { x with origins := (x.origins ++ m.origins).eraseDups } else x
  else l ++ [m]

/-- A flag is set in a node (R313). -/
def Run.setFlag (r : Run) (x : FlagSet) : Run :=
  let n := x.inst
  let i := x.node
  match (r.slcOf n).nodes[i]? with
  | none => r
  | some s =>
    let mark : FlagMark := { bit := x.bit, tick := (r.slcOf n).tick, q := tabGetD r.cfl.next n 0 - 1, origins := x.origins }
    let r := if s.phase = .idle then r else r.slip n i
    let r := if s.flags.getLsbD x.bit then r.slcCount 4 n (some 7) else r
    r.modNode n i fun s => { s with flags := s.flags ||| BitVec.ofNat 32 (2 ^ x.bit), marks := putMark s.marks mark }

/-- A node without the flags of a mask, and what they carried. -/
def NodeSt.clear (s : NodeSt) (mask : Word) : NodeSt :=
  { s with flags := s.flags &&& ~~~mask, marks := s.marks.filter fun m => !mask.getLsbD m.bit }

/-- The mask of a node. -/
def SlcInst.maskOf (x : SlcInst) (i : Nat) : Word := match x.g.nodes[i]? with | some g => g.mask | none => 0

/-- A cancellation acts on a node (Table 9.7). -/
def Run.cancelNode (r : Run) (n i : Nat) : Run :=
  match (r.slcOf n).nodes[i]? with
  | none => r
  | some s =>
    let mask := (r.slcOf n).maskOf i
    match s.phase with
    | .idle => (r.modNode n i fun s => { s.clear mask with cancelled := true }).slcCount 2 n (some 5)
    | .pending => ((r.dropIn n i .pending).modNode n i fun s => { s with phase := .idle, cancelled := true }).slcCount 2 n (some 5)
    | .queued =>
      (((r.dropIn n i .queued).flightDown n).modNode n i fun s => { s with phase := .idle, cancelled := true }).slcCount 2 n (some 5)
    | .executing => r.slcCount 3 n (some 6)

/-- A node in IDLE is ready (R312). -/
def nodeReady (g : GNode) (s : NodeSt) : Bool :=
  s.phase == .idle && (if g.any then (s.flags &&& g.mask) != 0 else (s.flags &&& g.mask) == g.mask)

/-- The nodes of an instance that are ready become so (R312, R315 step 4). -/
def Run.readyNodes (r : Run) (n : Nat) : Run :=
  let nodes := (r.slcOf n).g.nodes
  (List.range nodes.length).foldl (fun (r : Run) i =>
    match nodes[i]?, (r.slcOf n).nodes[i]? with
    | some g, some s =>
      if nodeReady g s then
        let marks := s.marks.filter fun m => g.mask.getLsbD m.bit
        let last := marks.foldl (fun (a : FlagMark) m => if a.q < m.q then m else a) { bit := 0, tick := 0, q := 0 }
        let f : Flight := { inst := n, node := i, gen := 0, prio := g.prio, cls := g.cls, unit := g.unit, phase := .pending,
                            ready := r.slc.cycle, enq := 0, tick := 0, relTick := last.tick, relQ := last.q,
                            origins := (marks.flatMap (·.origins)).eraseDups }
        let r := (r.modNode n i fun s => { s.clear g.mask with phase := .pending }).modSluice
          fun x => { x with flights := x.flights ++ [f] }
        if r.room n then r.enqueueNode f else r
      else r
    | _, _ => r) r

/-- Steps 2 to 4 of a Sluice cycle (R315): the flags set, the cancellations, and readiness over the ACTIVE instances. -/
def Run.sluiceCycle (r : Run) (sets : List FlagSet) (cancels : List (Nat × Nat)) : Run :=
  let r := r.modSluice fun x => { x with cycle := x.cycle + 1 }
  let r := sets.foldl (fun (r : Run) s => r.setFlag s) r
  let r := cancels.foldl (fun (r : Run) (c : Nat × Nat) => r.cancelNode c.1 c.2) r
  let r := (List.range 32).foldl (fun (r : Run) n => if (r.inst n).phase = .active then r.readyNodes n else r) r
  r.admitPending 65536

/-- What an edge list sets, with the chains behind it, and what it cancels. -/
def edgeActs (n : Nat) (es : List GEdge) (cancelOut : Bool) (origins : List (Nat × Nat)) : List FlagSet × List (Nat × Nat) :=
  ((es.filter fun e => !e.cancel).map fun e => { inst := n, node := e.node, bit := e.bit, origins := origins },
   if cancelOut then (es.filter (·.cancel)).map fun e => (n, e.node) else [])

/-- A chain whose end node has completed: the interval in ns enters its record (R322).
DEDUCED, assumption 88: unsafe. -/
def ChainSt.answered (c : ChainSt) (ns : Nat) : ChainSt :=
  { c with largest := max c.largest ns, measured := (c.measured + 1) % 2 ^ 64 }

/-- The bindings of an ACTIVE instance that `p` picks fire (R310): their edges set flags, behind which the chains of the binding stand
(R322).
DEDUCED, assumption 88: unsafe. -/
def Run.fire (r : Run) (n : Nat) (p : Nat → GBind → Bool) : Run :=
  if (r.inst n).phase ≠ .active then r
  else
    let g := (r.slcOf n).g
    let hit := (List.range g.binds.length).filter fun b => match g.binds[b]? with | some x => p b x | none => false
    if hit.isEmpty then r
    else
      let behind (b : Nat) : List (Nat × Nat) := (List.range g.chains.length).filterMap fun c => match g.chains[c]? with
        | some x => if x.bind = b then some (c, r.ticks) else none
        | none => none
      let sets := hit.flatMap fun b => match g.binds[b]? with
        | some x => (edgeActs n (edgesOf g x.edges) false (behind b)).1
        | none => []
      r.sluiceCycle sets []

/-! ### Reading inputs (R340, R341, R320) -/

/-- An output element of a node. -/
def Elem.asInput (e : Elem) : InVal :=
  match e with
  | .scalar v q => { value := v, re := v, q := q }
  | .phasor re im mag ang q => { value := mag, re := re, im := im, ang := ang, q := q }

/-- A value after R342. -/
def InVal.accepted (v : InVal) (i : Input) : InVal :=
  let (refused, q) := accept i v.q
  { v with q := q, refused := refused }

/-- What an operator reads from a member word of TYPE `type` (Tables 7.3 and 10.2): the number of a BOOLEAN, a BIT-STRING, an INTEGER or
an UNSIGNED in binary32, the word of a FLOAT32.
DEDUCED, assumption 85: unsafe. -/
def memberValue (type w : Nat) : Word :=
  match type with
  | 1 => if w = 0 then 0 else 0x3F800000
  | 2 | 4 => rat32 (w % 2 ^ 32 : Nat)
  | 3 => rat32 (signedOf 32 w)
  | _ => BitVec.ofNat 32 w

/-- TYPE of a member of a GOOSE subscription, and the data point it feeds. -/
def Sub.memberType (s : Sub) (m : Nat) : Nat :=
  match s.record with | .goose x => ((x.members[m]?).map (·.2)).getD 0 | .sv _ => 0

/-- The members that feed a data point (R232): whether VALID is set, and their TYPE. -/
def Run.feeds (r : Run) (p : Nat) : List (Bool × Nat) :=
  r.ing.goose.flatMap fun e => match e.2.record with
    | .goose x => (x.members.filter fun m => m.1 == p && p != 0).map fun m => (e.2.valid, m.2)
    | .sv _ => []

/-- A POINT input for a job (R320): the value, or while its member is not valid the substitute: the declared safe value, else the last
valid one.
DEDUCED, assumption 85: unsafe. -/
def pointInput (i : Input) (valid : Bool) (now last : Word) : InVal :=
  if valid then { InVal.accepted { value := now, re := now } i with fromPoint := true }
  else
    let w := i.safe.getD last
    { InVal.accepted { value := w, re := w, q := 3 } i with subst := true, fromPoint := true }

/-- The value an input of kind NODE, POINT or CONST has for a job; `last` is what the node read from it last.
DEDUCED, assumption 85: unsafe. -/
def Run.readInput (r : Run) (n : Nat) (i : Input) (last : Word) : InVal :=
  match i.src with
  | .chan _ => {}
  | .const v => { value := v, re := v }
  | .node j e =>
    match (r.slcOf n).nodes[j]? with
    | some s =>
      match s.out[e]? with
      | some x => { (x.asInput.accepted i) with held := s.held, fromNode := true }
      | none => { q := 1, held := s.held, fromNode := true }
    | none => { q := 1 }
  | .member s m =>
    match tabGet r.ing.goose s with
    | some sub =>
      match sub.words[m]? with
      | some w => let v := memberValue (sub.memberType m) w; pointInput i sub.valid v v
      | none => pointInput i sub.valid 0 last
    | none => pointInput i false 0 last
  | .point p =>
    let w := tabGetD r.ing.points p 0
    match r.feeds p with
    | [] => pointInput i true (BitVec.ofNat 32 w) last
    | f :: t => let v := memberValue f.2 w; pointInput i ((f :: t).any (·.1)) v v

/-- The key of the last valid value of input `i` in the node's state (mode 0 of R320). -/
def kPoint (i : Nat) : Nat := 1000 + i

/-- One channel history brought up to tick `k` (R341): flags GAP, STALE_INPUT, REFUSED, and the free values used. -/
structure HistRead where
  hist : List HistVal
  gap : Bool := false
  stale : Bool := false
  refused : Bool := false
  used : Nat := 0
  deriving DecidableEq, Repr

/-- One tick of a channel enters the history. -/
def Run.readTick (r : Run) (i : Input) (slot k t : Nat) (h : HistRead) : HistRead :=
  let push (v : HistVal) (h : HistRead) : HistRead := { h with hist := (v :: h.hist).take 160 }
  if t + 8 < k then
    push { tick := t, value := Config.freeValue 32 (r.free + h.used), quality := 1 } { h with gap := true, used := h.used + 1 }
  else match r.cfl.pOut slot t with
    | some o =>
      let (refused, q) := accept i o.quality
      push { tick := t, value := o.value, quality := q } { h with refused := h.refused || refused }
    | none =>
      push { tick := t, value := Config.freeValue 32 (r.free + h.used), quality := 1 } { h with stale := true, used := h.used + 1 }

/-- The ticks a job of tick `k` reads (R341): after the last one read, or `k` alone at the first job. -/
def ticksToRead (last : Option Nat) (k : Nat) : List Nat :=
  match last with
  | none => [k]
  | some l => (List.range (min (k - l) 200)).map fun i => k + 1 - min (k - l) 200 + i

/-- The context of a job, its inputs read, and the run with the free values used. -/
def Run.jobContext (r : Run) (f : Flight) (g : GNode) (m : OpMem) : Run × OpCtx :=
  let n := f.inst
  let chans := (List.range g.inputs.length).filterMap fun i =>
    match (g.inputs[i]?).join with
    | some x => match x.src with | .chan s => some (x, s) | _ => none
    | none => none
  let reads := (List.range chans.length).foldl (fun (acc : Run × List HistRead) c =>
    match chans[c]? with
    | some (x, s) =>
      let h := (ticksToRead m.kLast f.tick).foldl (fun h t => acc.1.readTick x s f.tick t h) { hist := m.chan c }
      ({ acc.1 with free := acc.1.free + h.used }, acc.2 ++ [h])
    | none => acc) (r, [])
  let r := reads.1
  let hs := reads.2
  let ins : List (Option InVal) := (List.range g.inputs.length).map fun i =>
    (g.inputs[i]?).join.map fun x =>
      match x.src with
      | .chan s =>
        match chans.findIdx? (fun e => e.2 == s) with
        | some c => match (hs[c]?).bind (fun h => h.hist.head?) with
          | some v => { value := v.value, re := v.value, q := v.quality }
          | none => { q := 1 }
        | none => { q := 1 }
      | _ => r.readInput n x (tabGetD m.words (kPoint i) 0)
  let words := (List.range ins.length).foldl (fun (w : Tab Word) i =>
    match (ins[i]?).join, (g.inputs[i]?).join with
    | some v, some x => (match x.src with | .member _ _ => if v.subst then w else tabSet w (kPoint i) v.value | _ => w)
    | _, _ => w) m.words
  let first := match m.kLast with | some _ => m.kFirst | none => f.tick
  let mem := { m with hist := if chans.isEmpty then m.hist else hs.map (·.hist), kFirst := first, words := words }
  let delays := chans.map fun (_, s) =>
    match r.cfl.pOut s f.tick with
    | some o => o.delay
    | none => match tabGet r.cfl.chans s with | some c => r.cfl.chanDelay c | none => 0
  let gsel := (g.p (gselIndex g.op) 0).floor.toNat
  let lockout := (g.p 7 0).floor.toNat
  ({ r with free := r.free + 64 },
   { k := f.tick, ins := ins, params := g.params, group := f.groups.getD gsel 0, mem := mem, free := r.free,
     tq := r.tsu.tqAt (pInstant f.tick).floor.toNat, gap := hs.any (·.gap), stale := hs.any (·.stale),
     refused := hs.any (·.refused), delays := delays,
     latched := g.op == 0x020C && lockout != 0xFF && (let z := r.trip.latches.getD lockout {}; z.set && z.followed) })

/-! ### Lockout latches (R503) -/

/-- An input of a TRC of latch `l` counts as 1 now (R406). -/
def Run.trcHolds (r : Run) (l : Nat) : Bool :=
  r.slc.insts.any fun e =>
    match e.2.graph with
    | none => false
    | some g => (List.range g.nodes.length).any fun i =>
      match g.nodes[i]? with
      | none => false
      | some x =>
        let p (k : Nat) : Rat :=
          let v := x.params.getD k []
          if v.length = 1 then v.getD 0 0
          else v.getD ((e.2.sels[((x.params.getD 0 []).getD 0 0).floor.toNat]?).getD {}).active 0
        x.op == 0x020C && (p 7).floor.toNat == l && (List.range (p 1).floor.toNat).any fun k =>
          match (x.inputs[k]?).join with
          | none => false
          | some y =>
            let last : Word := match e.2.nodes[i]? with | some m => tabGetD m.mem.words (kPoint k) 0 | none => 0
            let v := r.readInput e.1 y last
            if v.invalid then (p 4).floor.toNat.testBit k else v.isOne

/-! ### Dispatch (R315 step 5) -/

/-- A flight may run now: a unit of its class, or the one it names, is in service and free.
DEDUCED, assumption 88: unsafe. -/
def Sluice.freeUnit (x : Sluice) (f : Flight) : Option Nat :=
  let busy (u : Nat) : Bool := x.flights.any fun g => g.phase == .executing && g.cls == f.cls && g.unit == u
  ((x.inService f.cls).filter fun u => !busy u && (f.unit == 0x1F || f.unit == u)).head?

/-- The order of R315: level, enqueue cycle, instance, relative node number. -/
def olderFlight (a b : Flight) : Bool :=
  decide (a.prio < b.prio) || (a.prio == b.prio && (decide (a.enq < b.enq) || (a.enq == b.enq &&
    (decide (a.inst < b.inst) || (a.inst == b.inst && decide (a.node < b.node))))))

/-- The first of some flights in that order. -/
def firstFlight (l : List Flight) : Option Flight :=
  l.foldl (fun (best : Option Flight) f => match best with | none => some f | some b => if olderFlight f b then some f else some b) none

/-- The pick of a cycle, and whether it was deferred past the quota rule. -/
def Run.pick (r : Run) : Option (Flight × Nat × Bool) :=
  let cand := r.slc.flights.filter fun f => f.phase == .queued && (r.slc.freeUnit f).isSome
  let under := cand.filter fun f => decide ((r.inst f.inst).dispatches < (r.inst f.inst).dispatchQuota)
  match firstFlight under with
  | some f => (r.slc.freeUnit f).map fun u => (f, u, false)
  | none => (firstFlight cand).bind fun f => (r.slc.freeUnit f).map fun u => (f, u, true)

/-- A flight is dispatched to a unit; a protection core or lane reads the node's inputs now (R318, R341). -/
def Run.dispatch (r : Run) (f : Flight) (u : Nat) (deferred : Bool) : Run :=
  let r := r.modInst f.inst fun i => { i with
    dispatches := i.dispatches + 1, deferred := if deferred then (i.deferred + 1) % 2 ^ 64 else i.deferred }
  let r := r.modSluice fun x => { x with dispatchNow := x.dispatchNow + 1 }
  let r := r.modNode f.inst f.node fun s => { s with phase := .executing }
  let x := r.slcOf f.inst
  let start := r.ticks
  match x.g.nodes[f.node]?, x.nodes[f.node]? with
  | some g, some s =>
    if f.cls ≤ 1 then
      let (r, ctx) := r.jobContext f g s.mem
      let res := evalOp g.op ctx
      r.modFlight f fun f => { f with phase := .executing, unit := u, start := start, result := some res }
    else r.modFlight f fun f => { f with phase := .executing, unit := u, start := start }
  | _, _ => r.modFlight f fun f => { f with phase := .executing, unit := u, start := start }

/-! ### Ends of a job (R318, Table 9.8) -/

/-- How a job ends. -/
inductive JobEnd where
  | completed (cancelOut : Bool)
  | aborted
  | dropped
  deriving DecidableEq, Repr

/-- The source of an instance's Sluice events (R335): 449 + 4n and on. -/
def slcSource (n k : Nat) : Nat := 448 + 4 * n + k

/-- EV_SLC_OVERRUN at most once per node in 100 ms (R319). -/
def Run.overrunEvent (r : Run) (f : Flight) (budget : Nat) : Run :=
  match (r.slcOf f.inst).nodes[f.node]? with
  | none => r
  | some s =>
    let n := s.overSince + 1
    let quiet := match s.overAt with | some t => decide (r.now < t + 100000000) | none => false
    if quiet then r.modNode f.inst f.node fun s => { s with overSince := n }
    else
      let at' := r.now
      (r.modNode f.inst f.node fun s => { s with overSince := 0, overAt := some at' }).raise
        { ev := .slcOverrun, source := slcSource f.inst 1, owner := some f.inst, data := [f.node, f.cls, f.unit, budget, n % 65536] }

/-- Chains that end at a node are measured at the completion of its job (R322), from each source flag behind it: the largest interval in
ns, and the chains whose deadline is exceeded.
DEDUCED, assumption 88: unsafe. -/
def Run.measureChains (r : Run) (f : Flight) : Run × List (Nat × Nat × Nat) :=
  let n := f.inst
  let g := (r.slcOf n).g
  f.origins.foldl (fun (acc : Run × List (Nat × Nat × Nat)) (o : Nat × Nat) =>
    match g.chains[o.1]? with
    | some x =>
      if x.last = f.node then
        let ns := (r.ticks - o.2) * 4
        let run := acc.1.modSlc n fun y => { y with chains := modAt y.chains o.1 fun z => z.answered ns }
        if x.deadline < ns then
          (run.raise { ev := .slcChain, source := slcSource n 3, owner := some n, data := [x.ident, ns, x.deadline] },
           acc.2 ++ [(x.ident, ns, x.deadline)])
        else (run, acc.2)
      else acc
    | none => acc) (r, [])

/-- What follows the end of a job outside Sluice: what its operator does, and the chain excesses to report as faults. -/
structure JobAfter where
  acts : List Act := []
  late : List (Nat × Nat × Nat) := []
  deriving DecidableEq, Repr

/-- The job of a flight ends (Table 9.8). A result whose GEN differs from its instance's is dropped (R101); one that a destroyed
instance left (GEN 256) holds no place of the instance that has its index now. -/
def Run.endJob (r : Run) (f : Flight) (e : JobEnd) : Run × JobAfter :=
  let n := f.inst
  let i := f.node
  if f.gen ≠ (r.inst n).gen then
    let r := r.dropFlight f
    let r := if f.gen = 256 then r else r.flightDown n
    let r := if (r.slc.flightIn n i .executing).isSome then r
      else r.modNode n i fun s => if s.phase = .executing then { s with phase := .idle } else s
    ((r.slcCount 6 n none).admitPending 65536, {})
  else
    let r := (r.dropFlight f).flightDown n
    let x := r.slcOf n
    let edges := match x.g.nodes[i]? with | some g => edgesOf x.g g.edges | none => []
    let budget := match x.g.nodes[i]? with | some g => g.budget | none => 0
    match e with
    | .completed cancelOut =>
      let r := r.modNode n i fun s =>
        let s := { s with phase := .idle, held := false, nOverrun := false, incomplete := false, cancelled := false,
                          jobs := (s.jobs + 1) % 2 ^ 64, tick := f.tick, inputSubst := false, prevTick := s.tick, prevOut := s.out }
        match f.result with
        | some res => { s with out := if f.cls ≤ 1 then res.out else s.out, opst := res.opst, mem := res.mem, inputSubst := res.subst }
        | none => s
      let r := r.slcCount 0 n (some 3)
      let (r, late) := r.measureChains f
      let (sets, cancels) := edgeActs n edges cancelOut f.origins
      (r.sluiceCycle sets cancels, { acts := (f.result.map (·.acts)).getD [], late := late })
    | .aborted =>
      let r := r.modNode n i fun s => { s with
        phase := .idle, held := true, overrun := true, nOverrun := true, incomplete := false, cancelled := false, overruns := (s.overruns + 1) % 2 ^ 64 }
      let r := (r.slcCount 1 n (some 4)).overrunEvent f budget
      (r.sluiceCycle (edgeActs n edges false f.origins).1 [], {})
    | .dropped =>
      let r := r.modNode n i fun s => { s with
        phase := .idle, held := true, nOverrun := false, incomplete := true, cancelled := false }
      let k := f.tick
      let dropped := tabGetD x.incomplete k 0 + 1
      let r := r.slcCount 5 n none
      let r := r.modSlc n fun y => { y with
        incomplete := tabSet y.incomplete k dropped, stat := if dropped = 1 then tabInc y.stat 8 else y.stat }
      let r := r.raise { ev := .slcIncomplete, source := slcSource n 2, owner := some n, data := [k / 4800 % 8, k % 4800, dropped % 65536] }
      (r.sluiceCycle (edgeActs n edges false f.origins).1 [], {})

/-- The last instant, in ticks of local time, at which the completion of a flight can arrive within its budget (R317). -/
def Run.budgetEnd (r : Run) (f : Flight) (reported : Bool) : Nat :=
  let budget := match (r.slcOf f.inst).g.nodes[f.node]? with | some g => g.budget | none => 0
  let ps := clsDispatch f.cls + budget * clsPeriod f.cls + if reported then clsComplete f.cls + 3999 else 0
  f.start + ps / 4000

/-! ### Groups (R410) -/

/-- EV_GRP_CHANGE (R419). -/
def Run.groupEvent (r : Run) (n s old new cause : Nat) : Run :=
  r.raise { ev := .grpChange, source := slcSource n 0, owner := some n, data := [s, old, new, cause] }

/-- A selector takes a group. -/
def Selector.take (z : Selector) (g : Nat) (t : Instant) : Selector :=
  { z with active := g, changedAt := some t, changes := (z.changes + 1) % 2 ^ 64, released := false }

/-- A selector takes a request of ADP; a new one does not stem from a GRP_RELEASE.
DESIGN CHOICE, assumption 67: unsafe. -/
def Selector.asks (z : Selector) (g : Nat) : Selector := { z with request := some g, released := z.released && z.request == some g }

/-- GRP_RELEASE of a selector: a request that waits and differs from the active group is let through by it (R410, R419).
DESIGN CHOICE, assumption 67: unsafe. -/
def Selector.letGo (z : Selector) : Selector :=
  { z with forced := none, released := z.forced.isSome && z.request.isSome && z.request != some z.active }

/-- At a P-tick flag every selector of the instance fixes its active group (R410); one that the twin's mirror has named follows
it (Table 14.5). -/
def Run.selectGroups (r : Run) (n : Nat) : Run :=
  (List.range 4).foldl (fun (r : Run) s =>
    let x := r.slcOf n
    match x.sels[s]? with
    | none => r
    | some z =>
      let hold := ((x.g.sels[s]?).getD {}).minHold * 10000000
      let set (g cause : Nat) : Run :=
        let t := r.now
        ((r.modSlc n fun y => { y with sels := modAt y.sels s fun z => z.take g t }).groupEvent n s z.active g cause).noteMirror (.groups n)
      match z.mirror, z.forced, z.request with
      | some g, _, _ =>
        let r := r.modSlc n fun y => { y with sels := modAt y.sels s fun z => { z with mirror := none } }
        if g = z.active ∨ !((x.g.sels[s]?).getD {}).allowed.testBit g then r
        else
          let t := r.now
          ((r.modSlc n fun y => { y with sels := modAt y.sels s fun z => z.take g t }).groupEvent n s z.active g 4).noteMirror (.groups n)
      | none, some g, _ => if g = z.active then r else set g 2
      | none, none, some g =>
        let ripe : Bool := match z.changedAt with | some t => decide (t + hold ≤ r.now) | none => true
        if g = z.active then r.modSlc n fun y => { y with sels := modAt y.sels s fun z => { z with released := false } }
        else if ripe then set g (if z.released then 3 else 1)
        else r
      | none, none, none => r) r

end Sys2Proof.Machine
end

