-- ==== Sys2Proof/Machine/GraphOps.lean ====
section
/-! DEFINITION. Graph images: the load-time checks and the start of a graph (R327 to R331, and the load rules of chapters
10 and 11). -/

namespace Sys2Proof.Machine

/-! ### Signatures of bundles (R328, R453) -/

/-- The configuration-signing keys of an instance that serve a verification by the HKP (R570, Table 17.5). -/
def Strong.signKeys (s : Strong) (n : Nat) : List Key :=
  (s.slots.map (·.2)).filter fun k =>
    k.attr.testBit 36 && isPublic k.type && attrInst k.attr == some n && s.serves k 0 5 none

/-- The configuration-signing keys of an instance that do not serve it: uses that count as denied (R570). -/
def Strong.signDenied (s : Strong) (n : Nat) : Nat :=
  ((s.slots.map (·.2)).filter fun k =>
    k.attr.testBit 36 && isPublic k.type && attrInst k.attr == some n && !s.serves k 0 5 none).length

/-- A bundle's signature verifies under the configuration-signing key of the instance.
DEDUCED, assumption 88: unsafe. -/
def Run.verifyBundle (r : Run) (n : Nat) (bytes : List Nat) (sig : Nat) : Run × Bool :=
  let ok := (r.srm.signKeys n).any fun k => Config.ecdsaVerify k.material bytes sig
  let r := r.srmCount 1 (r.srm.signDenied n)
  (if ok then r.srmCount 0 else if (r.srm.signKeys n).isEmpty then r else r.srmCount 3, ok)

/-! ### Reachability -/

end Sys2Proof.Machine

namespace Sys2Proof

/-- The nodes that a binding's edge list sets. -/
def Graph.heads (g : Graph) (b : GBind) : List Nat :=
  ((Machine.edgesOf g b.edges).filter fun e => !e.cancel).map (·.node)

/-- The SET successors of a node. -/
def Graph.succ (g : Graph) (i : Nat) : List Nat :=
  match g.nodes[i]? with
  | some n => ((Machine.edgesOf g n.edges).filter fun e => !e.cancel).map (·.node)
  | none => []

/-- The nodes reachable from a list along SET edges whose consumers satisfy `p`, the list included; `fuel` bounds the rounds. -/
def Graph.close (g : Graph) (p : Nat → Bool) : Nat → List Nat → List Nat
  | 0, l => l
  | fuel + 1, l =>
    let new := (l.flatMap fun i => (g.succ i).filter p).foldl Machine.setIns l
    if new.length = l.length then l else g.close p fuel new

/-- The nodes reachable from a list by SET edges. -/
def Graph.reach (g : Graph) (l : List Nat) : List Nat := g.close (fun _ => true) g.nodes.length (l.foldl Machine.setIns [])

/-- The nodes a binding reaches. -/
def Graph.reachBind (g : Graph) (b : GBind) : List Nat := g.reach (g.heads b)

/-- SET edges form a cycle: some node is reached again from its own successors. -/
def Graph.cyclic (g : Graph) : Bool := (List.range g.nodes.length).any fun i => (g.reach (g.succ i)).contains i

/-- The bindings from which a node is reachable. -/
def Graph.bindsTo (g : Graph) (i : Nat) : List GBind := g.binds.filter fun b => (g.reachBind b).contains i

end Sys2Proof

namespace Sys2Proof.Machine

/-! ### Load checks (R328) -/

/-- A class and unit that Table 9.6 allows, with the OP range of the classes whose OP is a number. -/
def targetOk (n : GNode) : Bool :=
  match n.cls with
  | 0 => n.unit == 0x1F
  | 1 => n.unit == 0x1F
  | 2 => n.unit == 0
  | 3 => decide (n.unit ≤ 3)
  | 4 => n.unit == 0
  | _ => false

/-- An EDGE_HEAD whose list lies within the image's edges and ends with LAST. -/
def headOk (g : Graph) (h : Nat) : Bool := h == 0xFFFF || (g.edges.drop (2 * h)).any (·.last)

/-- Step 1: structure. -/
def structureOk (g : Graph) : Bool :=
  g.magic == 0x31474C53 && g.format == 1 && g.sections &&
    decide (1 ≤ g.nodes.length) && decide (g.nodes.length ≤ 65536) && decide (g.edges.length ≤ 131072) &&
    decide (1 ≤ g.binds.length) && decide (g.binds.length ≤ 4608) && decide (g.chains.length ≤ 1024) &&
    g.nodes.all (fun n => n.mask != 0 && targetOk n && headOk g n.edges && decide (1 ≤ n.budget) && decide (n.budget < 2 ^ 24)) &&
    g.edges.all (fun e => decide (e.node < g.nodes.length)) &&
    g.binds.all (fun b => decide (1 ≤ b.kind) && decide (b.kind ≤ 5) && headOk g b.edges)

/-- Step 2: catalogue.
DEDUCED, assumption 22: safe. -/
def catalogueCheck (g : Graph) : Option Status :=
  if !Config.catalogueHas g.catalogue then some .slcCatalogue
  else g.nodes.findSome? fun n =>
    if 1 < n.cls then none
    else match opClass n.op with
      | none => some .slcCatalogue
      | some c => if c = n.cls then none else some .slcImage

/-- Step 3: graph. -/
def graphCheck (g : Graph) : Option Status :=
  if g.cyclic then some .slcCycle
  else g.chains.findSome? fun c =>
    match g.binds[c.bind]? with
    | some b => if (g.reachBind b).contains c.last then none else some .slcImage
    | none => some .slcImage

/-- Every group satisfies a relation. -/
def allGroups (p : Nat → Bool) : Bool := (List.range 8).all p

/-- The rules of an operator's own section (R338, R357, R372, R378, R379, R396, R398). -/
def operatorCheck (g : Graph) (i : Nat) (n : GNode) : Option Status :=
  if 1 < n.cls then none
  else if isDecision n.op ∧ (n.inputs.any fun x => match x with | some ⟨.chan _, _, _, _⟩ => true | _ => false) then some .slcImage
  else if !paramsOk n.op n.params then some .range
  else if !inputsOk n then some .slcImage
  else
    let binds := g.bindsTo i
    let div := match binds.find? (fun b => b.kind == 1) with | some b => b.param | none => 0
    if n.op = 0x0104 ∧ (div = 0 ∨ n.n 1 % div ≠ 0 ∨ n.n 2 % div ≠ 0) then some .range
    else if n.op = 0x0109 ∧ !(binds.all fun b => b.kind == 1 && b.param == 1) then some .range
    else if isDecision n.op ∧ !((binds.any fun b => b.kind == 1 && b.param == 1) &&
        binds.all fun b => (b.kind == 1 && b.param == 1) || (decide (3 ≤ b.kind) && decide (b.kind ≤ 5))) then some .range
    else if n.op = 0x020A ∧ !(allGroups fun k => decide (n.p 6 k < n.p 4 k) && decide (n.p 7 k < n.p 5 k)) then some .range
    else if n.op = 0x0205 ∧ !(allGroups fun k => decide (n.p 18 k ≤ n.p 20 k)) then some .range
    else none

/-- The slots an ADP targets. -/
def adpSlots (n : GNode) : List Nat :=
  ((List.range 8).map fun t => n.n (133 + 2 * t)).filter (· != 0xFFFF)

/-- The selectors and the rules that span several nodes (R409, R415). -/
def spanningCheck (g : Graph) : Option Status :=
  let adps := g.nodes.filter fun n => n.op == 0x020E && n.cls == 0
  let groupBad (n : GNode) : Bool :=
    let allowed := ((g.sels[n.n 2]?).getD {}).allowed
    let used := n.n 131 :: (List.range (n.n 1)).map fun r => n.n (101 + 4 * r)
    used.any fun x => x != 0xFF && !allowed.testBit x
  let pairs := (List.range adps.length).flatMap fun a => (List.range a).map fun b => (a, b)
  let clash := pairs.any fun (a, b) =>
    match adps[a]?, adps[b]? with
    | some x, some y => x.n 2 == y.n 2 || (adpSlots x).any (fun s => (adpSlots y).contains s)
    | _, _ => false
  if g.sels.length ≠ 4 ∨ g.sels.any (fun s => decide (8 ≤ s.init) || !s.allowed.testBit s.init || decide (256 ≤ s.allowed) ||
      decide (360000 < s.minHold)) then some .range
  else if adps.any groupBad then some .range
  else if clash then some .slcImage
  else none

/-! ### Images (R327) -/

/-- A section of an image: its offset and its length. -/
def imageSections (l : List Nat) : List (Nat × Nat) :=
  let u (off n : Nat) : Nat := leNat l off n
  [(u 20 4, 20 * u 8 4), (u 24 4, 4 * u 12 4), (u 28 4, 8 * u 8 4), (u 32 4, 8 * u 16 2), (u 36 4, 16 * u 18 2), (u 40 4, u 44 4)]

/-- The octets hold TOTAL_LEN bytes, and every section lies within them. -/
def sectionsOk (l : List Nat) : Bool :=
  let total := leNat l 48 4
  decide (64 ≤ total) && decide (total ≤ l.length) && (imageSections l).all fun s => decide (s.1 + s.2 ≤ total)

/-- The node entry at `off` (Table 9.2) with the descriptor at `desc` (Table 9.13); the data block is that of `data`. -/
def readNode (l : List Nat) (off desc : Nat) (data : GNode) : GNode :=
  let u (k n : Nat) : Nat := leNat l (off + k) n
  { data with
    prio := u 2 1, any := (u 3 1).testBit 0, flags := BitVec.ofNat 32 (u 4 4), mask := BitVec.ofNat 32 (u 8 4), budget := u 12 3,
    cls := u 15 1 / 32, unit := u 15 1 % 32, op := u 16 2, edges := u 18 2,
    dataOff := leNat l desc 4, dataLen := leNat l (desc + 4) 2, stateId := leNat l (desc + 6) 2 }

/-- The edge entry at `off` (Table 9.4). -/
def readEdge (l : List Nat) (off : Nat) : GEdge :=
  let w := leNat l off 4
  { node := w / 2 ^ 16, bit := field w 15 11, cancel := w.testBit 10, last := w.testBit 9 }

/-- The binding at `off` (Table 9.13). -/
def readBind (l : List Nat) (off : Nat) : GBind :=
  { kind := leNat l off 1, index := leNat l (off + 2) 2, edges := leNat l (off + 4) 2, param := leNat l (off + 6) 2 }

/-- The chain at `off` (Table 9.13). -/
def readChain (l : List Nat) (off : Nat) : GChain :=
  { ident := leNat l off 2, bind := leNat l (off + 2) 2, last := leNat l (off + 4) 2, deadline := leNat l (off + 8) 4 }

/-- The graph that an image's octets spell (Table 9.13). The data area has no layout in the spec: what it gives the nodes, the selectors
and the publication map is taken from `data`.
DEDUCED, assumption 88: unsafe. -/
def readImage (l : List Nat) (data : Graph) : Graph :=
  let u (off n : Nat) : Nat := leNat l off n
  let head : Graph := { magic := u 0 4, format := u 4 2, catalogue := u 6 2, sections := sectionsOk l, nodes := [], edges := [], binds := [],
                        sels := data.sels, pubs := data.pubs }
  if !sectionsOk l then head
  else
    let none' : GNode := { prio := 0, any := false, flags := 0, mask := 0, budget := 0, cls := 0, unit := 0, op := 0 }
    { head with
      nodes := (List.range (u 8 4)).map fun i => readNode l (u 20 4 + 20 * i) (u 28 4 + 8 * i) (data.nodes.getD i none'),
      edges := (List.range (u 12 4)).map fun i => readEdge l (u 24 4 + 4 * i),
      binds := (List.range (u 16 2)).map fun i => readBind l (u 32 4 + 8 * i),
      chains := (List.range (u 18 2)).map fun i => readChain l (u 36 4 + 16 * i) }

/-- The first defect of an image, in the order of R328. -/
def imageDefect (g : Graph) : Option Status :=
  if !structureOk g then some .slcImage
  else match catalogueCheck g with
    | some s => some s
    | none => match graphCheck g with
      | some s => some s
      | none =>
        match ((List.range g.nodes.length).findSome? fun i => match g.nodes[i]? with | some n => operatorCheck g i n | none => none) with
        | some s => some s
        | none => spanningCheck g

/-! ### Starting and exchanging graphs (R330, R331) -/

/-- The operator state that a node's data area gives (R330). -/
def freshMem (n : GNode) : OpMem :=
  { vals := n.initVals.foldl (fun t e => tabSet t e.1 e.2) [], wide := n.initWide.foldl (fun t e => tabSet t e.1 e.2) [],
    words := n.initWords.foldl (fun t e => tabSet t e.1 e.2) [] }

/-- The operator state of a node whose thermal state stands at THETA_INIT (R371): as its data area gives it, but for THM's θ. -/
def initialMem (n : GNode) : OpMem :=
  let m := freshMem n
  if n.op = 0x0108 then { m with vals := tabDel m.vals 0, wide := tabDel m.wide 0 } else m

/-- A node as its image has it. -/
def freshNode (n : GNode) : NodeSt := { flags := n.flags, mem := freshMem n }

/-- Selectors as an image declares them (R409, R412). -/
def freshSels (g : Graph) : List Selector := g.sels.map fun s => { active := s.init }

/-- The flights of an instance that wait or are queued are gone and their nodes IDLE; those executing stay, to be dropped by
their GEN. -/
def Run.clearQueued (r : Run) (n : Nat) : Run :=
  let gone := r.slc.flights.filter fun f => f.inst == n && f.phase != .executing
  let queued := (gone.filter fun f => f.phase == .queued).length
  let r := r.modSluice fun x => { x with flights := x.flights.filter fun f => !(f.inst == n && f.phase != .executing) }
  let r := r.modSlc n fun x => { x with
    nodes := x.nodes.map fun s => if s.phase = .executing then s else { s with phase := .idle } }
  (r.modInst n fun i => { i with inFlight := i.inFlight - queued }).admitPending 65536

/-- OVERRUN of every node of an instance that is reset is cleared (R308). -/
def Run.clearOverruns (r : Run) (n : Nat) : Run :=
  r.modSlc n fun x => { x with nodes := x.nodes.map fun s => { s with overrun := false } }

/-- Everything a graph keeps is as its image has it: thermal state at THETA_INIT and selectors at INIT_GROUP in AUTO (R120, R371,
R412). -/
def SlcInst.initialised (x : SlcInst) : SlcInst :=
  let g := x.g
  { x with
    nodes := (List.range x.nodes.length).filterMap fun i =>
      (x.nodes[i]?).map fun s => { s with mem := match g.nodes[i]? with | some gn => initialMem gn | none => {} },
    sels := freshSels g }

/-- The graph of an instance starts (R331): flags at their image values, status 0, and the operators' state as a start
leaves it; selectors and thermal state stand as the last reset left them (R371, R412). -/
def Run.startGraph (r : Run) (n : Nat) : Run :=
  r.modSlc n fun x =>
    let g := x.g
    let node (i : Nat) (gn : GNode) : NodeSt :=
      match x.nodes[i]? with
      | some s => if gn.op = 0x0108 ∧ gn.cls = 0 then { freshNode gn with mem := s.mem, jobs := s.jobs, overruns := s.overruns }
          else { freshNode gn with jobs := s.jobs, overruns := s.overruns }
      | none => freshNode gn
    { x with
      nodes := (List.range g.nodes.length).filterMap fun i => (g.nodes[i]?).map (node i),
      triggers := [] }

/-- A graph takes the place of an instance's (R330): a node takes over the state of the old node with its STATE_ID and OP
where R339 and R386 allow, and selectors keep their groups while these stay allowed. -/
def Run.putGraph (r : Run) (n : Nat) (new : Option Graph) : Run :=
  r.modSlc n fun x =>
    let old := x.g
    let g := new.getD { nodes := [], edges := [], binds := [] }
    let before (gn : GNode) : Option (GNode × NodeSt) :=
      ((List.range old.nodes.length).filterMap fun i =>
        match old.nodes[i]?, x.nodes[i]? with | some a, some s => some (a, s) | _, _ => none).find? fun e =>
          e.1.stateId == gn.stateId && e.1.op == gn.op && e.1.cls == gn.cls
    let node (gn : GNode) : NodeSt :=
      match before gn with
      | some (a, s) => if sameStructure a gn then { freshNode gn with mem := s.mem, out := s.out, tick := s.tick, opst := s.opst } else freshNode gn
      | none => freshNode gn
    let sel (i : Nat) (z : Selector) : Selector :=
      let d := (g.sels[i]?).getD {}
      if x.graph.isSome && d.allowed.testBit z.active then z else { active := d.init, changes := z.changes }
    { x with
      graph := new, nodes := g.nodes.map node, chains := g.chains.map fun _ => {},
      sels := (List.range 4).map fun i => sel i ((x.sels[i]?).getD {}), triggers := [] }

/-- No old node is PENDING, QUEUED or EXECUTING (R330). -/
def Run.graphQuiet (r : Run) (n : Nat) : Bool := !r.slc.flights.any fun f => f.inst == n

end Sys2Proof.Machine
end

