-- ==== Sys2Proof/Machine/Ber.lean ====
section
/-! DEFINITION. The octets of SV and GOOSE frames (Table 7.4 step 1, R240, R243): header, BER elements, APDU, extension. -/

namespace Sys2Proof.Machine

/-- A number of octets, most significant first. -/
def beNat (l : List Nat) : Nat := l.foldl (fun a o => a * 256 + o % 256) 0

/-! ### BER elements -/

/-- The first element of some octets: tag, content, and what follows it; none where its length is not of the definite form with at most 3
length octets, or it runs past the octets (R240). -/
def berElem : List Nat → Option (BerElem × List Nat)
  | tag :: len :: rest =>
    let size : Option (Nat × List Nat) :=
      if len < 128 then some (len, rest)
      else if len = 129 ∧ 1 ≤ rest.length then some (beNat (rest.take 1), rest.drop 1)
      else if len = 130 ∧ 2 ≤ rest.length then some (beNat (rest.take 2), rest.drop 2)
      else none
    match size with
    | some (n, body) => if n ≤ body.length then some ({ tag := tag, octets := body.take n }, body.drop n) else none
    | none => none
  | _ => none

/-- The elements that some octets hold; none where they do not hold whole elements. `fuel` bounds their number. -/
def berList : Nat → List Nat → Option (List BerElem)
  | _, [] => some []
  | 0, _ => none
  | fuel + 1, l =>
    match berElem l with
    | some (e, rest) => (berList fuel rest).map (e :: ·)
    | none => none

/-- The elements of some octets. -/
def elements (l : List Nat) : Option (List BerElem) := berList l.length l

/-- Every element in some octets, at any depth, has a definite length and stays within its parent; bit 5 of a tag marks an element that
holds others. -/
def berSound : Nat → List Nat → Bool
  | 0, l => l.isEmpty
  | fuel + 1, l =>
    match elements l with
    | some es => es.all fun e => !(e.tag.testBit 5) || berSound fuel e.octets
    | none => false

/-- A mandatory element: the next one has the tag. -/
def need (tag : Nat) : List BerElem → Option (List Nat × List BerElem)
  | e :: t => if e.tag = tag then some (e.octets, t) else none
  | [] => none

/-- An optional element. -/
def opt (tag : Nat) : List BerElem → Option (List Nat) × List BerElem
  | e :: t => if e.tag = tag then (some e.octets, t) else (none, e :: t)
  | [] => (none, [])

/-! ### savPDU and goosePdu

The tags of the elements are those of IEC 61850-9-2 and IEC 61850-8-1 (PRESUMED, assumption 97). -/

/-- The pairs of an INT32 value and a quality that seqData holds; none where it holds no whole number of pairs. -/
def seqPairs (l : List Nat) : Option (List (Int × Nat)) :=
  if l.length % 8 ≠ 0 then none
  else some ((List.range (l.length / 8)).map fun i =>
    let v := beNat ((l.drop (8 * i)).take 4)
    (if v < 2 ^ 31 then (v : Int) else (v : Int) - 2 ^ 32, beNat ((l.drop (8 * i + 4)).take 4)))

/-- An ASDU (tag 0x30); datSet and refrTm are skipped.
PRESUMED, assumption 97: unsafe. -/
def readAsdu (e : BerElem) : Option SvAsdu :=
  if e.tag ≠ 0x30 then none
  else do
    let l ← elements e.octets
    let (svId, l) ← need 0x80 l
    let (_, l) := opt 0x81 l
    let (cnt, l) ← need 0x82 l
    let (conf, l) ← need 0x83 l
    let (_, l) := opt 0x84 l
    let (synch, l) ← need 0x85 l
    let (rate, l) := opt 0x86 l
    let (data, l) ← need 0x87 l
    let (mod, l) := opt 0x88 l
    let (gm, _) := opt 0x89 l
    some { svId := svId, smpCnt := beNat cnt, confRev := beNat conf, smpSynch := beNat synch, smpRate := rate.map beNat,
           smpMod := mod.map beNat, gmIdentity := gm.map beNat, pairs := seqPairs data }

/-- The content of a savPDU; its security element is skipped.
PRESUMED, assumption 97: unsafe. -/
def readSav (l : List BerElem) : Option Apdu := do
  let (n, l) ← need 0x80 l
  let (_, l) := opt 0x81 l
  let (seq, _) ← need 0xA2 l
  let asdus ← (← elements seq).mapM readAsdu
  some (.sv (beNat n) asdus)

/-- A BOOLEAN that may be absent, which means FALSE. -/
def flag (l : Option (List Nat)) : Bool := match l with | some o => beNat o != 0 | none => false

/-- The content of a goosePdu; datSet is skipped.
PRESUMED, assumption 97: unsafe. -/
def readGoose (l : List BerElem) : Option Apdu := do
  let (ref, l) ← need 0x80 l
  let (live, l) ← need 0x81 l
  let (_, l) ← need 0x82 l
  let (goId, l) := opt 0x83 l
  let (_, l) ← need 0x84 l
  let (st, l) ← need 0x85 l
  let (sq, l) ← need 0x86 l
  let (sim, l) := opt 0x87 l
  let (conf, l) ← need 0x88 l
  let (nds, l) := opt 0x89 l
  let (n, l) ← need 0x8A l
  let (data, _) ← need 0xAB l
  let all ← elements data
  some (.goose { goId := goId, gocbRef := ref, stNum := beNat st, sqNum := beNat sq, confRev := beNat conf, ndsCom := flag nds,
                 simulation := flag sim, live := beNat live, numEntries := beNat n, allData := all })

end Sys2Proof.Machine

namespace Sys2Proof

open Machine (beNat berElem berSound elements readSav readGoose)

/-- APPID, Length, Reserved 1 and Reserved 2 are present. -/
def IngestPdu.headerPresent (p : IngestPdu) : Bool := decide (8 ≤ p.octets.length)

/-- APPID. -/
def IngestPdu.appid (p : IngestPdu) : Nat := beNat (p.octets.take 2)

/-- Length. -/
def IngestPdu.length (p : IngestPdu) : Nat := beNat ((p.octets.drop 2).take 2)

/-- Bit 15 of Reserved 1 (R241). -/
def IngestPdu.simBit (p : IngestPdu) : Bool := (beNat ((p.octets.drop 4).take 2)).testBit 15

/-- The octets behind the header inside the Length span. -/
def IngestPdu.body (p : IngestPdu) : List Nat := (p.octets.take p.length).drop 8

/-- The outer element, and the octets behind it, which form the authentication extension. -/
def IngestPdu.outer (p : IngestPdu) : Option (BerElem × List Nat) := berElem p.body

/-- The APDU (R240): sound lengths at every depth, and the mandatory elements in their order; none where it is not well formed. -/
def IngestPdu.apdu (p : IngestPdu) : Option Apdu := do
  let (e, _) ← p.outer
  let l ← elements e.octets
  if !berSound e.octets.length e.octets then none
  else if e.tag = 0x60 then readSav l
  else if e.tag = 0x61 then readGoose l
  else none

/-- The authentication extension (R243): present where octets stand behind the APDU. The MAC covers the octets from APPID up to the MAC
value; the initialisation vector is what IEC 62351-6 prescribes (assumption 97, DESIGN CHOICE). -/
def IngestPdu.auth (p : IngestPdu) : Option AuthExt :=
  match p.outer with
  | some (_, x :: l) =>
    let f := p.ext.getD { keyId := 0, gmac := false, macAt := p.length - 16 }
    some { keyId := f.keyId % 2 ^ 32, gmac := f.gmac, mac := beNat ((p.octets.drop f.macAt).take 16), covered := p.octets.take f.macAt,
           iv := Config.authIv (x :: l) }
  | _ => none

end Sys2Proof
end

