-- ==== Sys2Proof/Machine/SwitchOps.lean ====
section
/-! DEFINITION. Chapter 5: classification, forwarding, admission, the tables and redundancy. -/

namespace Sys2Proof.Machine

/-! ### Counters and registers -/

/-- The switch changed by `f`. -/
def Run.modSw (r : Run) (f : Switch → Switch) : Run := { r with sw := f r.sw }

/-- Counter `k` of Table 5.3 of switch port `p` plus `n` (R193). -/
def Run.swCount (r : Run) (p k : Nat) (n : Nat := 1) : Run :=
  r.modSw fun w => { w with stat := tabAdd w.stat (16 * p + k) n }

/-- SWC_PORT_CFG of an external port. -/
def Switch.port (w : Switch) (p : Nat) : SwPort := tabGetD w.ports p {}

/-- The traffic class of a PCP on a port (SWC_PCP_MAP; reset: the identity). -/
def Switch.tcOf (w : Switch) (p pcp : Nat) : Nat := (tabGetD w.pcpMap p 0xFAC688 >>> (3 * pcp)) % 8

/-- The member ports of a VID (R163). -/
def Switch.members (w : Switch) (vid : Nat) : List Nat := ((tabGet w.vlans vid).map Vlan.members).getD []

/-- The untagged ports of a VID. -/
def Switch.untagged (w : Switch) (vid : Nat) : List Nat := ((tabGet w.vlans vid).map Vlan.untagged).getD []

/-- What SW_HOST_VLAN gave a function; before any, no VID is permitted (assumption 9, DESIGN CHOICE). -/
def Switch.hostVlan (w : Switch) (m : Nat) : HostVlan := (tabGet w.hostVlans m).getD { maxPcp := 7, defVid := 1, vids := [] }

/-- The redundancy mode of a pair. -/
def Switch.mode (w : Switch) (j : Nat) : Nat := tabGetD w.redMode j 0

/-- The pair of a port and its mode, when the mode is not 0. -/
def Switch.pairOf (w : Switch) (p : Nat) : Option (Nat × Nat) :=
  if p < 64 ∧ w.mode (p / 2) ≠ 0 then some (p / 2, w.mode (p / 2)) else none

/-- Cells on the free list less those reserved by frames still arriving: F (Cistern admission). -/
def Switch.f (w : Switch) : Nat := w.free - (w.frames.map (fun e => e.2.reserved)).sum

/-! ### Classification (R165 to R168) -/

/-- VID, PCP and traffic class of a frame, or the counter of the input port in which it is dropped. -/
inductive Classified where
  | drop (counter : Nat)
  | ok (vid pcp tc : Nat) (clamped : Bool)
  deriving DecidableEq, Repr

/-- R165: a frame from an external port. -/
def classifyExternal (w : Switch) (p : Nat) (f : Frame) : Classified :=
  let cfg := w.port p
  let (vid, pcp) : Nat × Nat := match f.vid with
    | none => (cfg.pvid, cfg.defPcp)
    | some v => if v = 0 then (cfg.pvid, f.pcp) else (v, f.pcp)
  let vlanTagged := f.vid.isSome && f.vid != some 0
  if f.vid = some 4095 then .drop 2
  else if cfg.accept = 1 ∧ !vlanTagged then .drop 2
  else if cfg.accept = 2 ∧ vlanTagged then .drop 2
  else if cfg.ingressFilter ∧ p ∉ w.members vid then .drop 2
  else .ok vid pcp (w.tcOf p pcp) false

/-- R168: a frame a function transmits.
DEDUCED, assumption 82: unsafe. -/
def classifyHost (w : Switch) (m : Nat) (f : Frame) : Classified :=
  let h := w.hostVlan m
  let vid := f.vid.getD h.defVid
  let pcp := if f.vid.isSome then f.pcp else 0
  if vid ∉ h.vids then .drop 2
  else .ok vid (min pcp h.maxPcp) (w.tcOf 66 (min pcp h.maxPcp)) (decide (h.maxPcp < pcp))

/-! ### The forwarding database (R163, R164) -/

/-- A static entry, or a learned one refreshed within FDB_AGE. -/
def Switch.live (w : Switch) (now : Instant) (e : FdbEntry) : Bool :=
  e.static || decide (now - e.refreshed ≤ w.fdbAge * 1000000000)

/-- The live entry of an address and a VID. -/
def Switch.fdbGet (w : Switch) (now : Instant) (mac vid : Nat) : Option FdbEntry :=
  w.fdb.find? fun e => e.mac == mac && e.vid == vid && w.live now e

/-- The entries of the bucket of an address and a VID. -/
def Switch.bucket (w : Switch) (mac vid : Nat) : List FdbEntry :=
  w.fdb.filter fun e => fdbBucket e.mac e.vid == fdbBucket mac vid

/-- The database without the entry of an address and a VID. -/
def Switch.fdbDrop (w : Switch) (mac vid : Nat) : List FdbEntry := w.fdb.filter fun e => !(e.mac == mac && e.vid == vid)

/-- Learning of a source address (R164): none for group addresses; a full bucket counts FDB_FULL and raises
EV_FDB_FULL at most once per second. -/
def Run.learn (r : Run) (sa vid p : Nat) : Run :=
  let w := r.sw
  if isGroup sa then r
  else
    let e : FdbEntry := { mac := sa, vid := vid, static := false, ports := [p], refreshed := r.now }
    match w.fdb.find? (fun e => e.mac == sa && e.vid == vid) with
    | some old => if old.static then r else r.modSw fun w => { w with fdb := w.fdbDrop sa vid ++ [e] }
    | none =>
      let b := w.bucket sa vid
      if b.length < 8 then r.modSw fun w => { w with fdb := w.fdb ++ [e] }
      else match b.find? (fun x => !w.live r.now x) with
        | some stale => r.modSw fun w => { w with fdb := w.fdbDrop stale.mac stale.vid ++ [e] }
        | none =>
          let r := r.swCount p 11
          let due := match w.fdbFullAt with | none => true | some t => decide (t + 1000000000 ≤ r.now)
          if due then
            (r.modSw fun w => { w with fdbFullAt := some r.now }).raise
              { ev := .fdbFull, source := 131, data := [vid, fdbBucket sa vid] }
          else r

/-! ### Redundancy (R183 to R191) -/

/-- after(s, r) (R186). -/
def seqAfter (s r : Nat) : Bool := let d := (s + 65536 - r % 65536) % 65536; decide (1 ≤ d) && decide (d ≤ 32767)

/-- s lies in a range of sequence numbers. -/
def inRange (s : Nat) (g : Nat × Nat) : Bool :=
  decide ((s + 65536 - g.1) % 65536 ≤ (g.2 + 65536 - g.1) % 65536)

/-- received(s, z) (R186). -/
def Side.received (z : Side) (s : Nat) : Bool :=
  z.seen && !seqAfter s z.last && !z.gaps.any (inRange s) &&
    (match z.floor with | none => true | some f => seqAfter s f)

/-- A range of skipped numbers joins the GAPs of a side; the oldest of four is evicted and sets FLOOR. -/
def Side.addGap (z : Side) (g : Nat × Nat) : Side :=
  match z.gaps with
  | old :: rest =>
    if 4 ≤ z.gaps.length then { z with gaps := rest ++ [g], floor := some old.2 } else { z with gaps := z.gaps ++ [g] }
  | [] => { z with gaps := [g] }

/-- GAP ranges wholly outside the window of 4,096 behind NEWEST are freed. -/
def Side.prune (z : Side) (newest : Nat) : Side :=
  { z with gaps := z.gaps.filter fun g => decide ((newest + 65536 - g.2) % 65536 < 4096) }

/-- SEEN and LAST of the side a frame arrives on. -/
def Side.arrive (z : Side) (s : Nat) : Side :=
  if z.seen && seqAfter s z.last then
    let lo := (z.last + 1) % 65536
    let z := if lo = s then z else z.addGap (lo, (s + 65535) % 65536)
    { z with last := s }
  else if z.seen then z
  else { z with seen := true, last := s }

/-- Side A (false) or B (true) of a node. -/
def Node.side (n : Node) (b : Bool) : Side := if b then n.b else n.a

/-- Side A or B of a node changed. -/
def Node.setSide (n : Node) (b : Bool) (z : Side) : Node := if b then { n with b := z } else { n with a := z }

/-- A node entry as created from a frame (R186). -/
def Node.fresh (pair mac s : Nat) (x : Bool) (now : Instant) : Node :=
  Node.setSide { pair := pair, mac := mac, newest := s, a := {}, b := {}, refreshed := now, since := now } x { seen := true, last := s }

/-- The node-table entry of a source on a pair. -/
def Switch.node (w : Switch) (pair mac : Nat) : Option Node := w.nodes.find? fun n => n.pair == pair && n.mac == mac

/-- The node table with an entry replaced. -/
def Switch.setNode (w : Switch) (n : Node) : Switch :=
  { w with nodes := w.nodes.filter (fun m => !(m.pair == n.pair && m.mac == n.mac)) ++ [n] }

/-- redundancy_receive (R186): true for DISCARD_LOCAL. EV_NODE_TABLE_FULL is raised with every count of R186.
DESIGN CHOICE, assumption 95: unsafe. -/
def Run.redundancyReceive (r : Run) (pair mac s : Nat) (x : Bool) (p : Nat) : Run × Bool :=
  match r.sw.node pair mac with
  | none =>
    if 8192 ≤ r.sw.nodes.length then
      ((r.swCount p 9).raise { ev := .nodeTableFull, source := 132, data := [pair] }, false)
    else (r.modSw (·.setNode (Node.fresh pair mac s x r.now)), false)
  | some e =>
    if !seqAfter s e.newest && decide (4096 ≤ (e.newest + 65536 - s % 65536) % 65536) then
      ((r.modSw (·.setNode (Node.fresh pair mac s x r.now))).swCount p 8, false)
    else
      let dup := e.a.received s || e.b.received s
      let e := e.setSide x ((e.side x).arrive s)
      let e := if seqAfter s e.newest then { e with newest := s } else e
      let e := { e with a := e.a.prune e.newest, b := e.b.prune e.newest, refreshed := r.now }
      let r := r.modSw (·.setNode e)
      if dup then (r.swCount p 4, true) else (r, false)

/-- WRONG_LAN is counted; the first after a second without one raises EV_RED_PAIR with cause 3 (R184, R192). -/
def Run.wrongLan (r : Run) (p : Nat) : Run :=
  let r := r.swCount p 5
  let j := p / 2
  let quiet := match tabGet r.sw.wrongLanAt j with | none => true | some t => decide (t + 1000000000 ≤ r.now)
  let r := r.modSw fun w => { w with wrongLanAt := tabSet w.wrongLanAt j r.now }
  if quiet then r.raisePair j 3 else r

/-- What redundancy makes of a received frame before forwarding. -/
inductive RedVerdict where
  /-- Dropped: counted in this counter of the input port; none for a duplicate on a PRP pair, which R186 has counted. -/
  | drop (counter : Option Nat)
  /-- Accepted, or DISCARD_LOCAL; and whether received(s, x) held before. -/
  | go (discard : Bool) (before : Bool)
  deriving DecidableEq, Repr

/-- Whether a source is one this pair proxies (R190), or the device's own. -/
def Switch.ownSource (w : Switch) (pair mac : Nat) : Bool :=
  mac == Config.deviceMac || w.proxies.any (fun x => x.pair == pair && x.mac == mac)

/-- R184 to R187 for a frame on a pair port. -/
def Run.judgeRed (r : Run) (p mode : Nat) (f : Frame) : Run × RedVerdict :=
  let pair := p / 2
  let x := p % 2 == 1
  let before (s : Nat) : Bool := match r.sw.node pair f.sa with | some e => (e.side x).received s | none => false
  if mode = 1 ∨ mode = 2 then
    match f.red with
    | some t =>
      if t.hsr || !t.sizeOk then (r, .go false false)
      else
        let r := if t.path = (if x then 0xB else 0xA) then r else r.wrongLan p
        let b := before t.seq
        let (r, d) := r.redundancyReceive pair f.sa t.seq x p
        if d then (r, .drop none) else (r, .go false b)
    | none => (r, .go false false)
  else
    match f.red with
    | some t =>
      if !t.hsr || !t.sizeOk then (r.swCount p 6, .drop (some 6))
      else if r.sw.ownSource pair f.sa then (r.swCount p 7, .drop (some 7))
      else
        let b := before t.seq
        let (r, d) := r.redundancyReceive pair f.sa t.seq x p
        (r, .go d b)
    | none => (r.swCount p 6, .drop (some 6))

/-- redundancy_allowed(in) (R188): whether an output passes both restrictions. -/
def Switch.allowed (w : Switch) (inp out : Nat) : Bool :=
  let internal := decide (64 ≤ out)
  let inputOk := match w.pairOf inp with
    | none => true
    | some (j, m) =>
      let partner := out < 64 && out / 2 == j && out != inp
      let outside := !(decide (out < 64) && out / 2 == j)
      match m with
      | 1 => internal
      | 2 => outside
      | 3 => internal || partner
      | 4 => outside || partner
      | _ => internal || partner || (decide (out < 64) && out / 2 == (j ^^^ 1))
  let outputOk := match w.pairOf out with
    | none => true
    | some (j, m) =>
      let fromInternal := decide (64 ≤ inp)
      let partner := inp < 64 && inp / 2 == j && out != inp
      match m with
      | 1 => fromInternal
      | 3 => fromInternal || partner
      | 5 => fromInternal || partner || (decide (inp < 64) && inp / 2 == (j ^^^ 1))
      | _ => true
  inputOk && outputOk

/-- The redundancy tag a frame gets when it enters a pair from outside (Table 5.2, R183): for each pair that tags it,
the sequence number. A 513th proxied source is forwarded without one (R190). Frames of ports 64 to 67 take the pair's counter,
are no proxied sources, and get no tag on a pair in mode 5.
DESIGN CHOICE, assumption 95: unsafe. -/
def Run.tagFor (r : Run) (inp sa pair : Nat) : Run × Option Nat :=
  let m := r.sw.mode pair
  let fromDevice := decide (64 ≤ inp)
  let outside := !(decide (inp < 64) && inp / 2 == pair)
  let wants := match m with
    | 1 | 3 => fromDevice
    | 2 | 4 => outside
    | 5 => decide (inp < 64) && inp / 2 == (pair ^^^ 1)
    | _ => false
  if !wants then (r, none)
  else if fromDevice then
    let s := tabGetD r.sw.redSeq pair 0
    (r.modSw fun w => { w with redSeq := tabSet w.redSeq pair ((s + 1) % 65536) }, some s)
  else match r.sw.proxies.find? (fun x => x.pair == pair && x.mac == sa) with
    | some x =>
      (r.modSw fun w => { w with proxies := w.proxies.map fun y => if y = x then { y with seq := (y.seq + 1) % 65536 } else y },
       some x.seq)
    | none =>
      if 512 ≤ r.sw.proxies.length then (r.swCount inp 9, none)
      else (r.modSw fun w => { w with proxies := w.proxies ++ [{ pair := pair, mac := sa, seq := 1 }] }, some 0)

/-! ### Admission (R175 to R177) -/

/-- The length of a queue in cells. -/
def Run.queueCells (r : Run) (l : List Queued) : Nat :=
  (l.map fun x => match r.held x.fid with | some h => h.cells | none => 0).sum

/-- Whether a queue of `q` cells admits a frame of `c` cells and class `tc` when F is `f`: none, or the counter of the
refusal (R175, R176; Table 5.3). -/
def Switch.refuses (w : Switch) (f c tc q : Nat) : Option Nat :=
  let k := w.alpha.getD tc 0
  if f < c ∨ (tc ≤ 5 ∧ f < c + w.headroom) then some 1
  else if q * 16 < f * 2 ^ (k + 4).toNat then none
  else some 0

/-- Where a frame may go: an external port, IPORT_INGEST, IPORT_MIRROR, or IPORT_HOST for one function. -/
inductive Dest where
  | port (p : Nat)
  | ingest
  | mirror
  | host (m : Nat)
  deriving DecidableEq, Repr

/-- The queue of a destination for a traffic class. -/
def Run.destQueue (r : Run) (tc : Nat) : Dest → List Queued
  | .port p => (r.port p).queue tc
  | .ingest => tabGetD r.sw.ingestQ tc []
  | .mirror => tabGetD r.sw.mirrorQ tc []
  | .host m => tabGetD r.sw.hostQ m []

/-- The switch port number of a destination (R162). -/
def Dest.number : Dest → Nat
  | .port p => p | .ingest => 64 | .host _ => 66 | .mirror => 67

/-- The Cistern quota of an instance in cells (Table 3.3). -/
def InstState.cellQuota (i : InstState) : Nat := i.inEffect.cistern * 65536 / 1024

/-- A frame joins the queue of IPORT_INGEST: behind those that were there, but before those of the same tick that entered at a
higher port, which stand for those of the same switch cycle (R239).
DEDUCED, assumption 81: unsafe. -/
def Run.joinIngest (r : Run) (l : List Queued) (x : Queued) : List Queued :=
  let later := (l.reverse.takeWhile fun y =>
    match tabGet r.sw.frames y.fid with
    | some h => h.since == r.ticks && decide (x.inPort < y.inPort)
    | none => false).length
  l.take (l.length - later) ++ [x] ++ l.drop (l.length - later)

/-- A frame joins the queue of a destination. -/
def Run.enqueue (r : Run) (tc : Nat) (d : Dest) (x : Queued) : Run :=
  match d with
  | .port p => (r.settlePort p).modPort p fun q => q.setQueue tc (q.queue tc ++ [x])
  | .ingest => r.modSw fun w => { w with ingestQ := tabSet w.ingestQ tc (r.joinIngest (tabGetD w.ingestQ tc []) x) }
  | .mirror => r.modSw fun w => { w with mirrorQ := tabSet w.mirrorQ tc (tabGetD w.mirrorQ tc [] ++ [x]) }
  | .host m => r.modSw fun w => { w with hostQ := tabSet w.hostQ m (tabGetD w.hostQ m [] ++ [x]) }

/-- What one output does with a frame (R171, R174, R92, R150): the run after it, and whether it holds a copy. `f` is F of
the decision and `c` the frame's cells (R177). -/
def Run.offer (r : Run) (f c tc : Nat) (d : Dest) (x : Queued) : Run × Bool :=
  match d with
  | .port p =>
    if !(r.port p).link then (r.modPort p (·.count 21 1), false)
    else match r.sw.refuses f c tc (r.queueCells (r.destQueue tc d)) with
      | some k => (r.swCount p k, false)
      | none => (r.enqueue tc d x, true)
  | .host m =>
    let fs := r.fn m
    if !fs.vnicEn || fs.frozen then (r.modFn m (fun f => { f with vnicRxOff := (f.vnicRxOff + 1) % 2 ^ 64 }), false)
    else if m ≠ 0 ∧ (r.inst (m - 1)).cellQuota < (r.inst (m - 1)).cells + c then
      ((r.swCount 66 3).modInst (m - 1) (fun i => { i with refusedCells := (i.refusedCells + 1) % 2 ^ 64 }), false)
    else match r.sw.refuses f c tc (r.queueCells (r.destQueue tc d)) with
      | some k => (r.swCount 66 k, false)
      | none =>
        let r := if m = 0 then r else r.modInst (m - 1) (fun i => { i with cells := i.cells + c })
        (r.enqueue tc d x, true)
  | _ =>
    match r.sw.refuses f c tc (r.queueCells (r.destQueue tc d)) with
    | some k => (r.swCount d.number k, false)
    | none => (r.enqueue tc d x, true)

/-! ### Forwarding (R169 to R174) -/

/-- The external ports of the forwarding procedure. -/
def externalPorts : List Nat := List.range 64

/-- The switch ports a frame is for before VLAN and redundancy (R169, R173). IPORT_INGEST, IPORT_PUBLISH and IPORT_MIRROR are
reached by no entry of the database. -/
def Switch.maskOf (w : Switch) (now : Instant) (inp vid : Nat) (f : Frame) (pubPorts : List Nat) : List Nat :=
  if inp = 65 then pubPorts
  else if inp < 64 ∧ f.etype = 0x88B5 ∧ (w.port inp).trib then [67]
  else if inp = 67 then externalPorts.filter (fun p => (w.port p).trib)
  else match w.fdbGet now f.da vid with
    | some e => e.ports.filter fun p => decide (p < 64) || p == 66
    | none => if isGroup f.da then externalPorts.filter (fun p => !(w.port p).unkMcBlock) ++ [66] else externalPorts ++ [66]

/-- The functions a frame for IPORT_HOST reaches (R168, R174): those the static entry names, or all, whose VLAN set
holds the VID. -/
def Switch.functionsOf (w : Switch) (now : Instant) (vid : Nat) (f : Frame) : List Nat :=
  let named := match w.fdbGet now f.da vid with
    | some e => if e.static then e.fns else List.range 33
    | none => List.range 33
  named.filter fun m => (w.hostVlan m).vids.contains vid

/-- A copy for the ingest engine is made (R172). -/
def Switch.ingestCopy (w : Switch) (inp : Nat) (f : Frame) : Bool :=
  decide (inp < 64) && (w.port inp).ingestEn && (f.etype == 0x88BA || f.etype == 0x88B8)

/-- A frame goes cut-through to an external port (R170). -/
def Run.cutThrough (r : Run) (inp out : Nat) (taggedHsr : Bool) : Bool :=
  let o := r.port out
  o.sending.isNone && o.queues == [] && !taggedHsr &&
    (decide (64 ≤ inp) || (decide (o.speed ≤ (r.port inp).speed) && decide ((r.port inp).maxFrame ≤ o.maxFrame)))

/-- A PTP peer-delay message, which ends at each link (R217). -/
def isPdelay (f : Frame) : Bool :=
  match f.payload with
  | .ptp msg _ _ _ => f.etype == 0x88F7 && (msg == 2 || msg == 3 || msg == 10)
  | _ => false

/-- A Sync the transparent clock corrects (R217): with ROLE = 2 any domain, otherwise any but its own.
DEDUCED, assumption 78: unsafe. -/
def Tsu.correctsSync (t : Tsu) (f : Frame) : Bool :=
  match f.payload with
  | .ptp msg dom _ _ =>
    let own := t.regs.domain.getD (if t.regs.profile = 1 then 254 else 0)
    f.etype == 0x88F7 && msg == 0 && t.regs.tcEn && (t.regs.role == 2 || dom != own)
  | _ => false

/-- A redundancy supervision frame (R190, R191). -/
def supervisionOf (f : Frame) : Option Nat :=
  match f.payload with
  | .supervision node _ => if f.etype = 0x88FB then some node else none
  | _ => none

/-- What the switch decided of a frame: its classification and destinations, or nothing. -/
structure Decision where
  vid : Nat
  pcp : Nat
  tc : Nat
  dests : List Dest
  deriving DecidableEq, Repr

/-- The supervision frame of a node is noted on the side it arrived on (R191, R192). -/
def Run.noteSupervision (r : Run) (p node : Nat) : Run :=
  let r := r.swCount p 13
  match r.sw.node (p / 2) node with
  | none => r
  | some n =>
    let n := { n with refreshed := r.now }
    let n := if p % 2 = 1 then { n with supB := some r.now } else { n with supA := some r.now }
    r.modSw (·.setNode n)

/-- The destinations of a mask for a frame (R169): the ports of the mask, the functions of IPORT_HOST. -/
def Run.destsOf (r : Run) (vid : Nat) (f : Frame) (mask : List Nat) : List Dest :=
  mask.flatMap fun p =>
    if p < 64 then [Dest.port p]
    else if p = 66 then (r.sw.functionsOf r.now vid f).map Dest.host
    else if p = 67 then [Dest.mirror]
    else []

/-- A frame from outside an HSR pair that reaches it is sent on both ring ports (R188). -/
def Switch.bothRings (w : Switch) (inp : Nat) (mask : List Nat) : List Nat :=
  (mask ++ mask.filterMap fun o => match w.pairOf o with
    | some (j, m) => if 3 ≤ m ∧ inp / 2 ≠ j then some (o ^^^ 1) else none
    | none => none).eraseDups

/-- The decision for a frame of an external port (R169): none where it is dropped. A duplicate of a supervision frame is one
received all the same (R191); one that its pair removes, or that arrives on a pair of mode 0, is none (R193).
DESIGN CHOICE, assumption 95: unsafe. -/
def Run.decideExternal (r : Run) (p : Nat) (f : Frame) : Run × Option Decision :=
  match classifyExternal r.sw p f with
  | .drop k => (r.swCount p k, none)
  | .ok vid pcp tc _ =>
    let (r, verdict) := match r.sw.pairOf p with
      | some (_, m) => r.judgeRed p m f
      | none => (r, .go false false)
    match verdict with
    | .drop k => (match k, supervisionOf f with | none, some node => r.noteSupervision p node | _, _ => r, none)
    | .go discard before =>
      let r := if (r.sw.port p).learn then r.learn f.sa vid p else r
      let onward : List Nat := if before then [] else [p ^^^ 1]
      match (r.sw.pairOf p).bind (fun _ => supervisionOf f) with
      | some node =>
        let r := r.noteSupervision p node
        let ring := match r.sw.pairOf p with | some (_, m) => if m < 3 then [] else if discard then onward else [p ^^^ 1] | none => []
        let ring := ring.filter fun o => (r.sw.members vid).contains o
        let toHost := (r.sw.port p).supToHost && !discard && (r.sw.members vid).contains 66 && (r.sw.hostVlan 0).vids.contains vid
        (r, some { vid := vid, pcp := pcp, tc := tc, dests := ring.map Dest.port ++ if toHost then [Dest.host 0] else [] })
      | none =>
        let mask := if isPdelay f then [] else r.sw.maskOf r.now p vid f []
        let mask := mask.filter fun o => (r.sw.members vid).contains o && r.sw.allowed p o && o != p
        let mask := (r.sw.bothRings p mask).filter fun o => (r.sw.members vid).contains o
        let mask := if discard then mask.filter (onward.contains ·) else mask
        let hsr := match r.sw.pairOf p with | some (_, m) => decide (3 ≤ m) | none => false
        let mask := if hsr && !isGroup f.da && r.sw.ownSource (p / 2) f.da then mask.filter (fun o => o != (p ^^^ 1)) else mask
        let copy : List Dest := if r.sw.ingestCopy p f && !discard then [Dest.ingest] else []
        (r, some { vid := vid, pcp := pcp, tc := tc, dests := r.destsOf vid f mask ++ copy })

/-- The decision for a frame of an internal port (R167 to R169). An untagged frame of the publisher or of Tributary is
bound by no VLAN membership (assumption 10, DEDUCED). -/
def Run.decideInternal (r : Run) (inp : Nat) (x : InternalFrame) : Run × Option Decision :=
  let f := x.frame
  let cl : Classified := if inp = 66 then classifyHost r.sw (x.fromFn.getD 0) f else .ok (f.vid.getD 0) f.pcp x.tc false
  match cl with
  | .drop k => (r.swCount inp k, none)
  | .ok vid pcp tc clamped =>
    let r := if clamped then r.swCount 66 12 else r
    let mask := r.sw.maskOf r.now inp vid f x.ports
    let mask := mask.filter fun o =>
      (vid == 0 || (r.sw.members vid).contains o) && r.sw.allowed inp o && o != inp
    let mask := (r.sw.bothRings inp mask).filter fun o => vid == 0 || (r.sw.members vid).contains o
    (r, some { vid := vid, pcp := pcp, tc := tc, dests := r.destsOf vid f mask })

/-- The pairs among the destinations, each once. -/
def pairsOf (w : Switch) (dests : List Dest) : List Nat :=
  (dests.filterMap fun d => match d with
    | .port p => (w.pairOf p).map (·.1)
    | _ => none).eraseDups

/-- The input port read the tag or trailer of a frame: it is of the kind its pair's mode uses, and its size fits (R184). One that
it did not read stays in the frame. -/
def Switch.readsTag (w : Switch) (inp : Nat) (f : Frame) : Bool :=
  match w.pairOf inp, f.red with
  | some (_, m), some t => t.sizeOk && t.hsr == decide (3 ≤ m)
  | _, _ => false

/-- The redundancy tag a frame leaves a port with: the ring's own tag goes on unchanged; a frame that enters the pair gets
the pair's sequence number (R183). The path identifier of an HSR tag is 0xA or 0xB, as LanId.
DESIGN CHOICE, assumption 95: unsafe. -/
def Switch.outTag (w : Switch) (inp out : Nat) (f : Frame) (seqs : Tab Nat) : Option RedTag :=
  match w.pairOf out with
  | none => none
  | some (j, m) =>
    if inp < 64 ∧ inp / 2 = j then f.red
    else (tabGet seqs j).map fun s => { hsr := decide (3 ≤ m), path := if out % 2 = 1 then 0xB else 0xA, seq := s }

/-- A QuadBox enters a frame it passes into the other ring as received on both sides of that ring (R187), where the node table
has room (R163). -/
def Run.enterRings (r : Run) (sa : Nat) (seqs : Tab Nat) : Run :=
  seqs.foldl (fun (r : Run) (e : Nat × Nat) =>
    if r.sw.mode e.1 = 5 ∧ ((r.sw.node e.1 sa).isSome ∨ r.sw.nodes.length < 8192) then
      let n : Node := match r.sw.node e.1 sa with
        | some n => { n with a := n.a.arrive e.2, b := n.b.arrive e.2, newest := if seqAfter e.2 n.newest then e.2 else n.newest, refreshed := r.now }
        | none => { pair := e.1, mac := sa, newest := e.2, a := { seen := true, last := e.2 }, b := { seen := true, last := e.2 }, refreshed := r.now, since := r.now }
      r.modSw (·.setNode n)
    else r) r

/-- A decided frame is offered to each of its destinations under one F (R171, R177) and is held while any admits it.
`complete` says whether it is whole in Cistern; `c` is its cell count of R176. -/
def Run.deliver (r : Run) (fid inp : Nat) (x : InternalFrame) (complete : Bool) (c : Nat) (d : Decision) : Run :=
  let f := x.frame
  let (r, seqs) := (pairsOf r.sw d.dests).foldl (fun (acc : Run × Tab Nat) (j : Nat) =>
    let (r, t) := acc.1.tagFor inp f.sa j
    (r, match t with | some s => tabSet acc.2 j s | none => acc.2)) (r, [])
  let r := if inp < 64 then r.enterRings f.sa seqs else r
  let free := r.sw.f
  let arrival : Instant :=
    if inp < 64 ∧ (r.port inp).tsEn then r.rxStamp inp f.stamp else f.stamp
  let h : Held := { inPort := inp, frame := f, vid := d.vid, pcp := d.pcp, tc := d.tc, complete := complete,
                    taken := if complete then c else 0, reserved := 0, copies := 0, since := r.ticks,
                    arrival := arrival, stampId := x.stampId, fromFn := x.fromFn }
  let read := r.sw.readsTag inp f
  let untagged := r.sw.untagged d.vid
  let tagged (t : Dest) : Bool := d.vid != 0 && !untagged.contains t.number
  let (r, n) := d.dests.foldl (fun (acc : Run × Nat) (t : Dest) =>
    let r := acc.1
    let q : Queued := match t with
      | .port out =>
        let tag := r.sw.outTag inp out f seqs
        let newHsr := match tag with | some g => g.hsr && !(decide (inp < 64) && inp / 2 == out / 2) | none => false
        { fid := fid, red := tag, tagged := tagged t, keep := !read, inPort := inp,
          cutThrough := r.cutThrough inp out newHsr, tc := r.tsu.correctsSync f }
      | .ingest => { fid := fid, tagged := tagged t, inPort := inp }
      | _ => { fid := fid, tagged := tagged t, keep := !read, inPort := inp }
    let (r, held) := r.offer free c d.tc t q
    (r, if held then acc.2 + 1 else acc.2)) (r, 0)
  if n = 0 ∧ complete then
    match x.fromFn with | some fn => r.uncharge fn c | none => r
  else
    let h := { h with copies := n, reserved := if complete ∨ n = 0 then 0 else c }
    r.modSw fun w => { w with frames := tabSet w.frames fid h, free := if complete then w.free - c else w.free }

/-- A frame dropped before any output: an arriving one is noted so that its end finds it. -/
def Run.noteDropped (r : Run) (fid inp : Nat) (f : Frame) (complete : Bool) : Run :=
  if complete then r
  else
    let h : Held := { inPort := inp, frame := f, vid := 0, pcp := 0, tc := 0, complete := false, taken := 0, reserved := 0,
                      copies := 0, since := r.ticks, arrival := f.stamp }
    r.modSw fun w => { w with frames := tabSet w.frames fid h }

/-- FRAME_FORWARD for an external port (R169, R176, R181). The MAC consumes a MAC control frame (R133). -/
def Run.forwardExternal (r : Run) (p fid : Nat) (f : Frame) : Run :=
  let whole := (r.port p).received.find? (fun e => e.1 == fid)
  let complete := whole.isSome
  let f := match whole with | some e => e.2 | none => f
  let prp := match r.sw.pairOf p with | some (_, m) => decide (m ≤ 2) | none => false
  if !(r.port p).link || !(r.port p).enable || (r.held fid).isSome || (prp && !complete) || f.etype == 0x8808 then r
  else
    let r := r.modPort p (fun q => { q with received := q.received.filter (fun e => e.1 != fid) })
    let c := if complete then cellsOf f.len else cellsOf (r.port p).maxFrame
    match r.decideExternal p f with
    | (r, none) => r.noteDropped fid p f complete
    | (r, some d) => r.deliver fid p { frame := f } complete c d

/-- FRAME_FORWARD for an internal port: the frame complete there is looked up (R169). -/
def Run.forwardInternal (r : Run) (inp fid : Nat) : Run :=
  match tabGetD r.sw.inbox inp [] with
  | [] => r
  | x :: rest =>
    if (r.held fid).isSome then r
    else
      let r := r.modSw fun w => { w with inbox := tabPut w.inbox inp rest [] }
      let c := cellsOf x.frame.len
      match r.decideInternal inp x with
      | (r, none) => match x.fromFn with | some fn => r.uncharge fn c | none => r
      | (r, some d) => r.deliver fid inp x true c d

/-- An internal port hands a complete frame to the switch. -/
def Run.handIn (r : Run) (inp : Nat) (x : InternalFrame) : Run :=
  r.modSw fun w => { w with inbox := tabSet w.inbox inp (tabGetD w.inbox inp [] ++ [x]) }

end Sys2Proof.Machine
end

