-- ==== Sys2Proof/Machine/IngestOps.lean ====
section
/-! DEFINITION. The ingest engine: matching, the check sequence, supervision, and the tables of subscriptions (R231 to R262). -/

namespace Sys2Proof.Machine

/-- The ingest engine changed by `f`. -/
def Run.modIng (r : Run) (f : Ingest → Ingest) : Run := { r with ing := f r.ing }

/-- The subscriptions of a kind: GOOSE for `true`. -/
def Ingest.table (x : Ingest) (goose : Bool) : Tab Sub := if goose then x.goose else x.sv

/-- The staged changes of a kind. -/
def Ingest.staged (x : Ingest) (goose : Bool) : Tab (Nat × Option SubRec) := if goose then x.gooseStaged else x.svStaged

/-- The engine with another table of a kind. -/
def Ingest.setTable (x : Ingest) (goose : Bool) (t : Tab Sub) : Ingest := if goose then { x with goose := t } else { x with sv := t }

/-- The engine with other staged changes of a kind. -/
def Ingest.setStaged (x : Ingest) (goose : Bool) (t : Tab (Nat × Option SubRec)) : Ingest :=
  if goose then { x with gooseStaged := t } else { x with svStaged := t }

/-- Subscription `i` of a kind. -/
def Run.sub (r : Run) (goose : Bool) (i : Nat) : Option Sub := tabGet (r.ing.table goose) i

/-- Subscription `i` changed by `f`. -/
def Run.modSub (r : Run) (goose : Bool) (i : Nat) (f : Sub → Sub) : Run :=
  match r.sub goose i with
  | some s => r.modIng fun x => x.setTable goose (tabSet (x.table goose) i (f s))
  | none => r

/-- A counter of an entry by its code of R261. -/
def Run.subCount (r : Run) (goose : Bool) (i code : Nat) (n : Nat := 1) : Run :=
  if n = 0 then r else r.modSub goose i fun s => { s with stat := tabAdd s.stat code n }

/-- The event source of a subscription (R262), and KIND. -/
def subSource (goose : Bool) (i : Nat) : Nat := if goose then 320 + i / 64 else 256 + i / 16

/-- KIND of a subscription. -/
def kindOf (goose : Bool) : Int := if goose then 1 else 0

/-- An event of a subscription. -/
def Run.subEvent (r : Run) (goose : Bool) (i : Nat) (ev : Ev) (data : List Int) : Run :=
  match r.sub goose i with
  | some s => r.raise { ev := ev, source := subSource goose i, owner := some s.inst, data := kindOf goose :: (i : Int) :: data }
  | none => r

/-! ### Fields of the records -/

end Sys2Proof.Machine

namespace Sys2Proof

/-- AUTH. -/
def SubRec.auth : SubRec → Nat | .sv x => x.auth | .goose x => x.auth

/-- SIM. -/
def SubRec.sim : SubRec → Bool | .sv x => x.sim | .goose x => x.sim

/-- DA. -/
def SubRec.da : SubRec → Nat | .sv x => x.da | .goose x => x.da

/-- APPID. -/
def SubRec.appid : SubRec → Nat | .sv x => x.appid | .goose x => x.appid

/-- The octets of ID. -/
def SubRec.id : SubRec → List Nat | .sv x => x.id | .goose x => x.id

/-- CONF_REV. -/
def SubRec.confRev : SubRec → Nat | .sv x => x.confRev | .goose x => x.confRev

/-- KEY_A and KEY_B. -/
def SubRec.keys : SubRec → Nat × Nat | .sv x => (x.keyA, x.keyB) | .goose x => (x.keyA, x.keyB)

/-- The record with other key slots. -/
def SubRec.withKeys (r : SubRec) (a b : Nat) : SubRec :=
  match r with
  | .sv x => .sv { x with keyA := a, keyB := b }
  | .goose x => .goose { x with keyA := a, keyB := b }

/-- The declared frame rate of R112, in frames per second. -/
def SubRec.frameRate : SubRec → Rat | .sv x => (x.rate : Rat) / x.noAsdu | .goose x => (x.maxRate : Rat)

end Sys2Proof

namespace Sys2Proof.Machine

/-- The key of R237 with the CRC-32 of an ID. -/
def subKey (da appid : Nat) (id : List Nat) : Nat × Nat × Nat := (da, appid, crc32 id)

/-! ### States (R254 to R256) -/

/-- VALID of a GOOSE entry changes, and its bindings fire (R256, Table 9.5 kind 0x03). -/
def Run.setValid (r : Run) (i : Nat) (v : Bool) : Run :=
  match r.sub true i with
  | none => r
  | some s =>
    if s.valid = v then r
    else (r.modSub true i fun s => { s with valid := v }).fire s.inst fun _ b => b.kind == 3 && b.index == i

/-- An entry changes state: EV_SUB_STATE, LOSSES, and VALID on leaving ACTIVE (R255, R256). -/
def Run.subTo (r : Run) (goose : Bool) (i : Nat) (p : SubPhase) : Run :=
  match r.sub goose i with
  | none => r
  | some s =>
    if s.phase = p then r
    else
      let r := (r.modSub goose i fun s => { s with phase := p }).subEvent goose i .subState [s.phase.code, p.code]
      let lost := s.phase == .active && (p == .lost || p == .authErr)
      let r := if lost then (r.subCount goose i 13).count (if goose then .gooseLoss (i / 64) else .svLoss (i / 16)) else r
      if s.phase = .active ∧ goose then r.setValid i false else r

/-- The deadline of an entry that has passed takes it from ACTIVE (Table 7.8). -/
def Run.expire (r : Run) (goose : Bool) (i : Nat) (at' : Instant) : Run :=
  match r.sub goose i with
  | none => r
  | some s =>
    if s.phase = .active ∧ s.deadline ≤ at' then r.subTo goose i (if s.authFailed then .authErr else .lost) else r

/-- Every entry of an instance enters WAIT when the instance enters ACTIVE, DISABLED when it leaves. -/
def Run.subsTo (r : Run) (n : Nat) (p : SubPhase) : Run :=
  [false, true].foldl (fun (r : Run) goose =>
    (r.ing.table goose).foldl (fun (r : Run) e => if e.2.inst = n then r.subTo goose e.1 p else r) r) r

/-! ### Authentication (R243 to R246) -/

/-- What verification of a frame for an entry finds. -/
inductive AuthVerdict where
  /-- Not verified: samples and members are UNAUTH. -/
  | unauth
  | verified (slot : Nat)
  /-- A failure, with its counter code of R261 and its cause in EV_SUB_AUTH. -/
  | failed (code cause : Nat)
  deriving DecidableEq, Repr

/-- A key's algorithm is the one the extension names: AES-GMAC for types 1 and 2, HMAC for type 3. -/
def algoFits (k : Key) (gmac : Bool) : Bool := if gmac then k.type == 1 || k.type == 2 else k.type == 3

/-- The MAC of an extension under a key: 16 octets. -/
def macOf (k : Key) (a : AuthExt) : Nat :=
  if a.gmac then Config.gmac k.material a.iv a.covered else Config.hmac k.material a.covered / 2 ^ 128

/-- What the engine has done for a frame so far: the charges made, each an instance and whether it was for an authenticated frame, with
their outcomes (R110, R242), and the slots under whose keys the frame has been verified (R244). -/
structure Judging where
  charged : List ((Nat × Bool) × Bool) := []
  verified : List Nat := []
  deriving DecidableEq, Repr

/-- The authentication step of an entry (R243, R244): the frame is verified once for each distinct key. -/
def Run.verify (r : Run) (j : Judging) (s : Sub) (auth : Option AuthExt) : Run × Judging × AuthVerdict :=
  match s.record.auth, auth with
  | 0, _ => (r, j, .unauth)
  | 1, none => (r, j, .failed 6 2)
  | _, none => (r, j, .unauth)
  | _, some a =>
    let (ka, kb) := s.record.keys
    let find (slot : Nat) : Option (Nat × Key) :=
      match r.srm.key slot with
      | some k => if k.keyId = a.keyId then some (slot, k) else none
      | none => none
    match (find ka).or (find kb) with
    | none => (r, j, .failed 7 3)
    | some (slot, k) =>
      if !algoFits k a.gmac then (r, j, .failed 7 3)
      else if !r.srm.serves k 2 3 (some s.inst) then (r.srmCount 1, j, .failed 7 3)
      else
        let first := !j.verified.contains slot
        let j := if first then { j with verified := slot :: j.verified } else j
        if macOf { k with material := (r.srm.context 2 slot).getD k.material } a = a.mac then (if first then r.srmCount 0 else r, j, .verified slot)
        else (r, j, .failed 5 1)

/-- A frame fails authentication for an entry (R245, Table 7.8). -/
def Run.authFail (r : Run) (goose : Bool) (i : Nat) (code cause keyId : Nat) : Run :=
  match r.sub goose i with
  | none => r
  | some s =>
    let fresh := match s.authFailAt with | some t => decide (t + 1000000000 ≤ r.now) | none => true
    let now := r.now
    let r := (r.subCount goose i code).modSub goose i fun s => { s with authFailed := true, authFailAt := some now }
    let r := if fresh then r.subEvent goose i .subAuth [cause, keyId] else r
    if s.phase = .wait ∨ s.phase = .lost then r.subTo goose i .authErr else r

/-- A frame of an entry verified under a key (R246). -/
def Run.noteKey (r : Run) (goose : Bool) (i keyId slot : Nat) : Run :=
  match r.sub goose i with
  | none => r
  | some s =>
    let changed := match s.keyId with | some k => k != keyId | none => false
    let r := r.modSub goose i fun s => { s with keyId := some keyId }
    if changed then r.subEvent goose i .subKey [keyId, slot] else r

/-! ### Sampled values (R247 to R251) -/

/-- smpRate fits RATE (R247). -/
def rateFits (x : SvRec) (a : SvAsdu) : Bool :=
  match a.smpMod.getD 0 with
  | 0 => (match a.smpRate with | some n => n * x.fnom == x.rate | none => true)
  | 1 => (match a.smpRate with | some n => n == x.rate | none => true)
  | 2 => false
  | _ => a.smpRate.isNone

/-- The configuration step of an ASDU (R247). -/
def svFits (x : SvRec) (noAsdu : Nat) (a : SvAsdu) : Bool :=
  a.confRev == x.confRev && (match a.pairs with | some l => l.length == x.nMembers | none => false) &&
    noAsdu == x.noAsdu && rateFits x a

/-- The synchronisation class (R250). -/
def syncClass (u : Tsu) (a : SvAsdu) : Nat :=
  if a.smpSynch = 1 then 1
  else if a.smpSynch = 2 ∨ (5 ≤ a.smpSynch ∧ a.smpSynch ≤ 254) then
    match a.gmIdentity with
    | some g => if u.regs.src = 1 ∧ g ≠ (match u.parent with | some p => p.ref.gm | none => 0) then 3 else 2
    | none => 2
  else 0

/-- ACCEPTED_SYNC of a class. -/
def acceptedSync (x : SvRec) (cls : Nat) : Bool := cls == 2 || (cls == 1 && x.localOk)

/-- S of an accepted ASDU (R249). -/
def secondOf (x : SvRec) (accepted : Bool) (smpCnt : Nat) (tArr : Instant) : Nat :=
  if !accepted then secOf tArr
  else ((((tArr + 1000000 : Nat) : Rat) - (smpCnt : Rat) * 1000000000 / x.rate) / 1000000000).floor.toNat

/-- What the sequence step says of an ASDU (R248). -/
inductive SvVerdict where
  | reference
  | next (gap : Nat)
  | dup
  | stale
  | restart
  | range
  deriving DecidableEq, Repr

/-- The sequence step of an ASDU (R248). -/
def svSequence (s : Sub) (rate smpCnt : Nat) : SvVerdict :=
  if rate ≤ smpCnt then .range
  else if s.phase ≠ .active then .reference
  else
    let d := (smpCnt + rate - s.count % rate) % rate
    if d = 0 then .dup
    else if d ≤ rate / 2 then .next (d - 1)
    else if s.staleRun = 3 then .restart else .stale

/-- SRCQ of a member's quality word (Table 7.5): bits [1:0] validity, then as IEC 61850-9-2 maps the quality bit string.
PRESUMED, assumption 86: unsafe. -/
def srcqOf (q : Nat) (unauth sim : Bool) : Nat :=
  let v := q % 4
  let b (x : Bool) (k : Nat) : Nat := if x then 2 ^ k else 0
  (if v = 2 then 1 else v) + b (q.testBit 11) 2 + b (q.testBit 13) 3 + b (q.testBit 10) 4 + b (q.testBit 12) 5 +
    b (decide (0 < q / 4 % 256)) 6 + b unauth 7 + b sim 8

/-- The member's value times SCALE, rounded to nearest even (R251). -/
def scaled (v : Int) (scale : Word) : Word :=
  to32 ((FVal.fin (decide (v < 0)) (v : Rat)).mul (val32 scale))

/-- An ASDU is written for an entry (R249 to R251): its state, its time base, and one entry per channel. -/
def Run.svWrite (r : Run) (i : Nat) (s : Sub) (x : SvRec) (a : SvAsdu) (tArr : Instant) (unauth sim : Bool) (verdict : SvVerdict) : Run :=
  let cls := syncClass r.tsu a
  let acc := acceptedSync x cls
  let sec := secondOf x acc a.smpCnt tArr
  let index := sec * x.rate + a.smpCnt
  let timeout := (if x.timeout = 0 then 10000 else x.timeout) * 1000
  let r := r.subCount false i 1
  let r := match verdict with
    | .next gap => r.subCount false i 11 gap
    | .restart => r.subCount false i 14
    | _ => r
  let r := if s.phase ≠ .active then r.subTo false i .active else r
  let r := r.modSub false i fun s => { s with
    count := a.smpCnt, arrived := some tArr, deadline := tArr + timeout, staleRun := 0, authFailed := false,
    sync := some acc, simSeen := s.simSeen || (x.sim && sim) }
  let r := match s.sync with
    | some old => if old = acc then r else r.subEvent false i .subSynch [if acc then 1 else 0, cls]
    | none => r
  let r := r.placeAsdu i index tArr acc
  let tq := r.tsu.tqAt tArr
  x.chans.foldl (fun (r : Run) c =>
    match (a.pairs.getD [])[c.member]? with
    | some (v, q) =>
      r.pushEntry c.slot { index := index, value := scaled v c.scale, arrived := tArr, srcq := srcqOf q unauth sim,
                           synch := cls + (if acc then 4 else 0), tq := tq }
    | none => r) r

/-- Steps 7 to 9 for one ASDU. -/
def Run.svAsdu (r : Run) (i : Nat) (noAsdu : Nat) (a : SvAsdu) (tArr : Instant) (unauth sim : Bool) : Run :=
  match r.sub false i with
  | some s =>
    match s.record with
    | .sv x =>
      if !svFits x noAsdu a then (r.subCount false i 8).subTo false i .confErr
      else
        match svSequence s x.rate a.smpCnt with
        | .range => (r.subCount false i 12).modSub false i fun s => { s with staleRun := 0 }
        | .dup => (r.subCount false i 9).modSub false i fun s => { s with staleRun := 0 }
        | .stale => (r.subCount false i 10).modSub false i fun s => { s with staleRun := s.staleRun + 1 }
        | v => r.svWrite i s x a tArr unauth sim v
    | .goose _ => r
  | none => r

/-! ### GOOSE (R252, R253) -/

/-- The 64-bit image word of an element for a member TYPE; none where it does not fit (Table 7.3). -/
def memberWord (type : Nat) (e : BerElem) : Option Nat :=
  let n := e.octets.length
  let v := beNat e.octets
  if type = 0x00 then some 0
  else if type = 0x01 then if e.tag = 0x83 ∧ n = 1 then some (if v = 0 then 0 else 1) else none
  else if type = 0x02 then
    let bits := 8 * (n - 1) - e.octets.headD 0
    if e.tag = 0x84 ∧ 2 ≤ n ∧ e.octets.headD 0 ≤ 7 ∧ 1 ≤ bits ∧ bits ≤ 32 then
      let body := beNat (e.octets.drop 1)
      some ((List.range bits).foldl (fun m i => if body.testBit (8 * (n - 1) - 1 - i) then m + 2 ^ i else m) 0)
    else none
  else if type = 0x03 then
    if e.tag = 0x85 ∧ 1 ≤ n ∧ n ≤ 4 then some (bitsOfInt 32 (signedOf (8 * n) v)) else none
  else if type = 0x04 then if e.tag = 0x86 ∧ 1 ≤ n ∧ n ≤ 5 ∧ v < 2 ^ 32 then some v else none
  else if type = 0x05 then if e.tag = 0x87 ∧ n = 5 ∧ e.octets.headD 0 = 8 then some (v % 2 ^ 32) else none
  else if type = 0x06 then
    if e.tag = 0x91 ∧ n = 8 then some (e.octets.reverse.foldl (fun a o => a * 256 + o) 0) else none
  else none

/-- The image words of allData for a record; none where an element does not fit (R252).
DEDUCED, assumption 85: unsafe. -/
def goosewords (x : GooseRec) (l : List BerElem) : Option (List Nat) :=
  if l.length ≠ x.members.length then none
  else (x.members.zip l).mapM fun (m, e) => memberWord m.2 e

/-- The configuration step of a GOOSE frame (R252): the words to write. -/
def gooseFits (x : GooseRec) (g : GoosePdu) : Option (List Nat) :=
  if g.confRev ≠ x.confRev ∨ g.ndsCom ∨ g.numEntries ≠ x.members.length then none else goosewords x g.allData

/-- newer(a, b) (R253). -/
def newer (a b : Nat) : Bool :=
  let d := (a + 2 ^ 32 - b % 2 ^ 32) % 2 ^ 32
  decide (1 ≤ d) && decide (d < 2 ^ 31)

/-- The decisions of Table 7.6. -/
inductive GooseVerdict where
  | reference
  | newState
  | restart
  | stale
  | again
  | dup
  deriving DecidableEq, Repr

/-- The first row of Table 7.6 that applies. -/
def gooseSequence (s : Sub) (st sq : Nat) : GooseVerdict :=
  let half := (st + 2 ^ 32 - s.count % 2 ^ 32) % 2 ^ 32 == 2 ^ 31
  if s.phase ≠ .active then .reference
  else if newer st s.count && !half then .newState
  else if newer s.count st || half then (if sq = 0 then .restart else .stale)
  else if newer sq s.sq then .again
  else .dup

/-- Steps 7 to 9 for a GOOSE frame.
DEDUCED, assumption 85: unsafe. -/
def Run.gooseFrame (r : Run) (i : Nat) (g : GoosePdu) (tArr : Instant) (unauth sim : Bool) : Run :=
  match r.sub true i with
  | some s =>
    match s.record with
    | .goose x =>
      match gooseFits x g with
      | none => (r.subCount true i 8).subTo true i .confErr
      | some words =>
        let v := gooseSequence s g.stNum g.sqNum
        match v with
        | .stale => r.subCount true i 10
        | .dup => r.subCount true i 9
        | _ =>
          let r := r.subCount true i 1
          let r := if v = .newState then r.subCount true i 2 else if v = .restart then r.subCount true i 14 else r
          let r := r.modSub true i fun s => { s with
            count := g.stNum, sq := g.sqNum, arrived := some tArr, deadline := tArr + max 1 g.live * 1000000,
            authFailed := false, simSeen := s.simSeen || (x.sim && sim), words := words, unauth := unauth }
          let r := (x.members.zip words).foldl (fun (r : Run) (m : (Nat × Nat) × Nat) =>
            if m.1.2 = 0 then r else r.modIng fun e => { e with points := tabPut e.points m.1.1 m.2 0 }) r
          let r := if s.phase ≠ .active then r.subTo true i .active else r
          let was := s.valid
          let r := r.modSub true i fun s => { s with valid := true }
          if v = .newState ∨ v = .reference ∨ !was then r.fire s.inst fun _ b => b.kind == 3 && b.index == i else r
    | .sv _ => r
  | none => r

/-! ### The check sequence (R237 to R242) -/

/-- Step 1: the header (Table 7.4). -/
def lenOk (p : IngestPdu) : Bool := p.headerPresent && decide (8 ≤ p.length) && decide (p.length ≤ p.octets.length)

/-- Step 2: the APDU, where it is well formed (R240). -/
def apduOf (etype : Nat) (p : IngestPdu) : Option Apdu :=
  match p.apdu with
  | some (.sv n l) =>
    if etype == 0x88BA && l.length == n && decide (1 ≤ n) && decide (n ≤ 8) &&
        (match l with | a :: t => t.all (fun b => b.svId == a.svId) | [] => false) then some (.sv n l) else none
  | some (.goose g) => if etype == 0x88B8 then some (.goose g) else none
  | none => none

/-- The ID an APDU has for an entry (R237). -/
def frameId (x : Apdu) (rec' : SubRec) : List Nat :=
  match x, rec' with
  | .sv _ l, _ => (l.head?.map (·.svId)).getD []
  | .goose g, .goose x => if x.useGocbRef then g.gocbRef else g.goId.getD g.gocbRef
  | .goose g, _ => g.gocbRef

/-- An APDU for GOOSE entries. -/
def isGoose (x : Apdu) : Bool := match x with | .goose _ => true | .sv _ _ => false

/-- The frame is simulated (R241). -/
def simulated (p : IngestPdu) (x : Apdu) : Bool :=
  p.simBit || match x with | .goose g => g.simulation | .sv _ _ => false

/-- Step 3: the entries under the frame's key, and those of them whose ID is equal (R237). -/
def Run.matches' (r : Run) (da : Nat) (p : IngestPdu) (x : Apdu) : List Nat × List Nat :=
  let keyed := (r.ing.table (isGoose x)).filter fun e =>
    let id := frameId x e.2.record
    subKey e.2.record.da e.2.record.appid e.2.record.id == subKey da p.appid id
  (keyed.map (·.1), (keyed.filter fun e => frameId x e.2.record == e.2.record.id).map (·.1))

/-- The simulation rule of step 4 (R241). -/
def simPasses (s : Sub) (sim : Bool) : Bool :=
  if s.record.sim then (if s.simSeen then sim else true) else !sim

/-- The ingest quotas of an instance (Table 3.3): authenticated and parsed frames per period. -/
def InstState.authQuota (i : InstState) : Nat := i.inEffect.ingest * 4900 / 1024

/-- See `InstState.authQuota`. -/
def InstState.parseQuota (i : InstState) : Nat := i.inEffect.ingest * 25000 / 1024

/-- Step 5: the charge of a frame to an instance, once whatever number of its entries it matches (Table 3.3); false where it is refused
(R242, R108). -/
def Run.charge (r : Run) (n : Nat) (authenticated : Bool) : Run × Bool :=
  let i := r.inst n
  if authenticated then
    if i.authQuota ≤ i.authFrames then (r.modInst n fun i => { i with refusedIngest := (i.refusedIngest + 1) % 2 ^ 64 }, false)
    else (r.modInst n fun i => { i with authFrames := i.authFrames + 1 }, true)
  else if i.parseQuota ≤ i.parsedFrames then
    (r.modInst n fun i => { i with refusedIngest := (i.refusedIngest + 1) % 2 ^ 64 }, false)
  else (r.modInst n fun i => { i with parsedFrames := i.parsedFrames + 1 }, true)

/-- A charge made once for a frame: a later entry of the instance with the same kind of charge meets the first one's outcome (Table 3.3). -/
def Run.chargeOnce (r : Run) (j : Judging) (n : Nat) (authenticated : Bool) : Run × Judging × Bool :=
  match j.charged.find? fun e => e.1 == (n, authenticated) with
  | some e => (r, j, e.2)
  | none =>
    let (r, ok) := r.charge n authenticated
    (r, { j with charged := ((n, authenticated), ok) :: j.charged }, ok)

/-- Steps 4 to 9 for one entry. -/
def Run.judgeEntry (r : Run) (j : Judging) (x : Apdu) (i : Nat) (p : IngestPdu) (tArr : Instant) : Run × Judging :=
  let goose := isGoose x
  let r := r.expire goose i tArr
  match r.sub goose i with
  | none => (r, j)
  | some s =>
    if (r.inst s.inst).phase ≠ .active then (r, j)
    else
      let sim := simulated p x
      if !simPasses s sim then (r.subCount goose i 3, j)
      else
        match r.chargeOnce j s.inst (p.auth.isSome && s.record.auth != 0) with
        | (r, j, false) => (r.subCount goose i 4, j)
        | (r, j, true) =>
          match r.verify j s p.auth with
          | (r, j, .failed code cause) => (r.authFail goose i code cause (match p.auth with | some a => a.keyId | none => 0), j)
          | (r, j, verdict) =>
            let r := match verdict, p.auth with
              | .verified slot, some a => r.noteKey goose i a.keyId slot
              | _, _ => r
            let unauth := match verdict with | .unauth => true | _ => false
            match x with
            | .sv n l => (l.foldl (fun (r : Run) a => r.svAsdu i n a tArr unauth sim) r, j)
            | .goose g => (r.gooseFrame i g tArr unauth sim, j)

/-- A frame that matches an entry whose AUTH is not 0, and carries an extension, is one the engine verifies (R258). -/
def Run.verifies (r : Run) (etype da : Nat) (p : IngestPdu) : Bool :=
  lenOk p && p.auth.isSome &&
    match apduOf etype p with
    | some x => (r.matches' da p x).2.any fun i => match r.sub (isGoose x) i with | some s => s.record.auth != 0 | none => false
    | none => false

/-- The engine has room for the frame in this accounting period (R258): 4,900 verified and 25,000 parsed frames. -/
def Run.ingestRoom (r : Run) (etype da : Nat) (p : IngestPdu) : Bool :=
  if r.verifies etype da p then decide (r.ing.verified < 4900) else decide (r.ing.parsed < 25000)

/-- A frame is judged by Table 7.4. -/
def Run.ingest (r : Run) (etype da : Nat) (p : IngestPdu) (tArr : Instant) : Run :=
  let stat (r : Run) (k : Nat) : Run := r.modIng fun x => { x with stat := tabInc x.stat k }
  let r := stat r 0
  let r := r.modIng fun x =>
    if r.verifies etype da p then { x with verified := x.verified + 1 } else { x with parsed := x.parsed + 1 }
  if !lenOk p then stat r 1
  else match apduOf etype p with
    | none => stat r 2
    | some x =>
      let (keyed, hits) := r.matches' da p x
      if hits.isEmpty then stat r (if keyed.isEmpty then 3 else 4)
      else (hits.foldl (fun (acc : Run × Judging) i => acc.1.judgeEntry acc.2 x i p tArr) (r, {})).1

/-- The head frame of IPORT_INGEST: of the highest traffic class that has one (R239).
DEDUCED, assumption 81: unsafe. -/
def Switch.ingestHead (w : Switch) : Option (Nat × Queued) :=
  ((w.ingestQ.filter fun e => e.2 != []).getLast?).bind fun e => (e.2.head?).map fun x => (e.1, x)

/-! ### Tables (R233 to R236, R257) -/

/-- The subscriptions of a kind as the staged changes would leave them: index, instance, record. -/
def Ingest.view (x : Ingest) (goose : Bool) : List (Nat × Nat × SubRec) :=
  let kept := ((x.table goose).filter fun e => (tabGet (x.staged goose) e.1).isNone).map fun e => (e.1, e.2.inst, e.2.record)
  let new := (x.staged goose).filterMap fun e => match e.2.2 with | some r => some (e.1, e.2.1, r) | none => none
  (kept ++ new).foldl (fun (t : Tab (Nat × SubRec)) e => tabSet t e.1 e.2) []

/-- Every index taken, committed or staged, with its instance: a group belongs to the instance of any of its indices (R233).
DEDUCED, assumption 81: unsafe. -/
def Ingest.taken (x : Ingest) (goose : Bool) : List (Nat × Nat) :=
  ((x.table goose).map fun e => (e.1, e.2.inst)) ++ (x.staged goose).map fun e => (e.1, e.2.1)

/-- The size of a group. -/
def groupSize (goose : Bool) : Nat := if goose then 64 else 16

/-- The indices of a group. -/
def groupIndices (goose : Bool) (g : Nat) : List Nat := (List.range (groupSize goose)).map (groupSize goose * g + ·)

/-- The instance a group belongs to.
DEDUCED, assumption 83: unsafe. -/
def Ingest.ownerOf (x : Ingest) (goose : Bool) (g : Nat) : Option Nat :=
  ((x.taken goose).find? fun e => e.1 / groupSize goose == g).map (·.2)

/-- A free index for an instance: in a group of its own, else in a free group (R233).
DEDUCED, assumption 83: unsafe. -/
def Ingest.freeIndex (x : Ingest) (goose : Bool) (n : Nat) : Option Nat :=
  let used := (x.taken goose).map (·.1)
  let own := ((List.range 64).filter fun g => x.ownerOf goose g == some n).flatMap (groupIndices goose)
  let free := ((List.range 64).filter fun g => (x.ownerOf goose g).isNone).flatMap (groupIndices goose)
  (own ++ free).find? fun i => !used.contains i

/-- The records staged for a kind, each with its instance: those staged now, and those of the commits that wait for their exchange (R330).
DEDUCED, assumption 83: unsafe. -/
def Run.stagedRecords (r : Run) (goose : Bool) : List (Nat × SubRec) :=
  let waiting := r.slc.insts.flatMap fun e => match e.2.exchange with
    | some y => if goose then y.staged.goose else y.staged.sv
    | none => []
  (r.ing.staged goose ++ waiting).filterMap fun e => e.2.2.map fun rec' => (e.2.1, rec')

/-- The channel slots that committed and staged SV subscriptions hold. -/
def Run.slotsUsed (r : Run) : List Nat :=
  let of (x : SubRec) : List Nat := match x with | .sv v => v.chans.map (·.slot) | .goose _ => []
  (r.ing.sv.flatMap fun e => of e.2.record) ++ (r.stagedRecords false).flatMap fun e => of e.2

/-- A record with slots for its channels (R234): those of the record it replaces, in order, then the lowest free ones.
DEDUCED, assumption 83: unsafe. -/
def allocSlots (used old : List Nat) (chans : List SvChan) : Option (List SvChan) :=
  let need := chans.length - old.length
  let free := ((List.range 8192).filter fun s => !used.contains s).take need
  if free.length < need then none
  else some ((chans.zip (old ++ free)).map fun (c, s) => { c with slot := s })

/-- A key slot of a record: 0 to 255, or 0xFFFF. -/
def keySlotOk (k : Nat) : Bool := decide (k < 256) || k == 0xFFFF

/-- The fields every record has, in range. -/
def subFieldsOk (auth da appid : Nat) (id : List Nat) (keyA keyB : Nat) : Bool :=
  decide (auth ≤ 2) && decide (da < 2 ^ 48) && decide (appid < 65536) && decide (1 ≤ id.length) && decide (id.length ≤ 129) &&
    keySlotOk keyA && keySlotOk keyB

/-- The default SCALE of a member under LE (R235): 0.001 or 0.01. -/
def leScale (member : Nat) : Word := if member < 4 then rat32 (1 / 1000) else rat32 (1 / 100)

/-- An SV record in range, with the SCALEs of LE filled in (R235). -/
def svRecord (x : SvRec) : Option SvRec :=
  let chans := x.chans.map fun c => if x.le && c.scale == 0 then { c with scale := leScale c.member } else c
  if !subFieldsOk x.auth x.da x.appid x.id x.keyA x.keyB || !([4000, 4800, 12800, 14400, 15360].contains x.rate) ||
      !([50, 60].contains x.fnom) || x.noAsdu = 0 || decide (8 < x.noAsdu) || x.nMembers = 0 || decide (32 < x.nMembers) ||
      chans.isEmpty || decide (16 < chans.length) || chans.any (fun c => decide (x.nMembers ≤ c.member) || c.scale == 0) ||
      (x.timeout != 0 && (decide (x.timeout < 1000) || decide (1000000 < x.timeout))) then none
  else if x.le && (x.nMembers != 8 || x.rate == 14400) then none
  else if ((x.rate = 4000 ∨ x.rate = 4800) ∧ x.le ∧ x.noAsdu ≠ 1) ∨ ((x.rate = 12800 ∨ x.rate = 15360) ∧ x.le ∧ x.noAsdu ≠ 8) then none
  else some { x with chans := chans }

/-- A GOOSE record in range. -/
def gooseRecord (x : GooseRec) : Option GooseRec :=
  if !subFieldsOk x.auth x.da x.appid x.id x.keyA x.keyB || decide (x.maxRate = 0) || decide (10000 < x.maxRate) ||
      x.members.isEmpty || decide (64 < x.members.length) ||
      x.members.any (fun m => decide (131072 ≤ m.1) || decide (6 < m.2)) then none
  else some x

/-- A subscription command may name an index: it is the instance's own, committed or staged. -/
def Ingest.owns (x : Ingest) (goose : Bool) (n i : Nat) : Bool := (x.view goose).any fun e => e.1 == i && e.2.1 == n

/-- Two entries share (DA, APPID, ID). -/
def sameKey (a b : SubRec) : Bool := a.da == b.da && a.appid == b.appid && a.id == b.id

/-- The other instances with an entry under a record's (DA, APPID, ID), committed or staged: however their staged changes are committed,
an entry of each can stand beside it (R233).
DEDUCED, assumption 83: unsafe. -/
def Run.sharers (r : Run) (goose : Bool) (n : Nat) (rec' : SubRec) : List Nat :=
  (((r.ing.table goose).filter fun e => e.2.inst != n && sameKey e.2.record rec').map (·.2.inst) ++
    ((r.stagedRecords goose).filter fun e => e.1 != n && sameKey e.2 rec').map (·.1)).eraseDups

/-- A subscription is staged (R233, R259): the index it takes, or the status of its refusal. -/
def Run.stageSub (r : Run) (goose : Bool) (n index : Nat) (rec' : SubRec) : Except Status (Run × Nat × SubRec) :=
  let x := r.ing
  let mine := (x.view goose).filter fun e => e.1 != index && e.2.1 == n && sameKey e.2.2 rec'
  if index ≠ 0xFFFF ∧ !x.owns goose n index then .error .range
  else if !mine.isEmpty then .error .subDup
  else if 8 ≤ (r.sharers goose n rec').length then .error .subFull
  else
    match (if index = 0xFFFF then x.freeIndex goose n else some index) with
    | none => .error .subFull
    | some i =>
      match rec' with
      | .goose _ => .ok (r.modIng fun x => x.setStaged goose (tabSet (x.staged goose) i (n, some rec')), i, rec')
      | .sv v =>
        let old := match (x.view false).find? fun e => e.1 == i with
          | some (_, _, .sv o) => o.chans.map (·.slot)
          | _ => []
        match allocSlots r.slotsUsed old v.chans with
        | none => .error .subSlots
        | some cs =>
          let rec'' : SubRec := .sv { v with chans := cs }
          .ok (r.modIng fun x => x.setStaged goose (tabSet (x.staged goose) i (n, some rec'')), i, rec'')

/-- A slot that a record names permits the ingest engine for its instance (R570); an empty slot or none is no objection. -/
def Strong.ingestMayUse (s : Strong) (n slot : Nat) : Bool :=
  slot == 0xFFFF || match s.key slot with | some k => s.serves k 2 3 (some n) | none => true

/-- Two records differ only in their key slots. -/
def sameButKeys (a b : SubRec) : Bool :=
  let (ka, kb) := b.keys
  a.withKeys ka kb == b

/-- The clearing of SIM by a commit ends the choice of simulated frames (R241). -/
def Sub.simCleared (s : Sub) : Sub := if s.record.sim then s else { s with simSeen := false }

/-- The staged changes of an instance become committed (R257); `active` tells whether it is ACTIVE. -/
def Run.commitSubs (r : Run) (n : Nat) (active : Bool) : Run :=
  [false, true].foldl (fun (r : Run) goose =>
    ((r.ing.staged goose).filter fun e => e.2.1 == n).foldl (fun (r : Run) e =>
      let i := e.1
      let r := r.modIng fun x => x.setStaged goose (tabDel (x.staged goose) i)
      match e.2.2, r.sub goose i with
      | none, _ => r.modIng fun x => x.setTable goose (tabDel (x.table goose) i)
      | some rec', some old =>
        if sameButKeys old.record rec' then r.modSub goose i fun s => { s with record := rec' }.simCleared
        else
          let sub : Sub := { inst := n, record := rec', phase := if active then .wait else .disabled }
          let r := if old.valid then r.setValid i false else r
          r.modIng fun x => x.setTable goose (tabSet (x.table goose) i sub)
      | some rec', none =>
        let sub : Sub := { inst := n, record := rec', phase := if active then .wait else .disabled }
        r.modIng fun x => x.setTable goose (tabSet (x.table goose) i sub)) r) r

/-- The declared frame rates of an instance as committed with its staged changes: authenticated and parsed, per ms. -/
def Ingest.declared (x : Ingest) (n : Nat) : Rat × Rat :=
  let all := ((x.view false) ++ x.view true).filter fun e => e.2.1 == n
  let sum (l : List (Nat × Nat × SubRec)) : Rat := (l.map fun e => e.2.2.frameRate).sum / 1000
  (sum (all.filter fun e => e.2.2.auth != 0), sum (all.filter fun e => e.2.2.auth == 0))

end Sys2Proof.Machine
end

