-- ==== Sys2Proof/Machine/CanOps.lean ====
section
/-! DEFINITION. The field bus: buffers, transmission, the schedule and error states (R593 to R608). -/

namespace Sys2Proof.Machine

/-- Channel `n`. -/
def Run.can (r : Run) (n : Nat) : CanChan := r.fb.chans.getD n {}

/-- Channel `n` changed by `f`. -/
def Run.modCan (r : Run) (n : Nat) (f : CanChan → CanChan) : Run := { r with fb := { r.fb with chans := modAt r.fb.chans n f } }

/-- Buffer `b` of channel `n`. -/
def Run.canBuf (r : Run) (n b : Nat) : Option CanBuf := tabGet (r.can n).bufs b

/-- Buffer `b` of channel `n` changed by `f`. -/
def Run.modBuf (r : Run) (n b : Nat) (f : CanBuf → CanBuf) : Run :=
  match r.canBuf n b with
  | some x => r.modCan n fun c => { c with bufs := tabSet c.bufs b (f x) }
  | none => r

/-- FBC_STAT[n][k] plus 1. -/
def Run.canCount (r : Run) (n k : Nat) : Run := r.modCan n fun c => { c with stat := tabInc c.stat k }

/-- The source of a field bus event (R612). -/
def fbSource (n i : Nat) : Nat := 864 + 8 * n + i

/-- The controller takes part in bus traffic. -/
def CanChan.onBus (c : CanChan) : Bool := c.enable && !c.init && c.state != 2

/-- The length a DLC stands for (ISO 11898-1). -/
def dlcLength (fdf : Bool) (dlc : Nat) : Nat :=
  if dlc ≤ 8 then dlc else if fdf then [12, 16, 20, 24, 32, 48, 64].getD (dlc - 9) 64 else 8

/-- What arbitration compares: the base identifier, then whether it is extended, then the extension. -/
def arbKey (r : CanRec) : Nat :=
  if r.ide then r.ident / 2 ^ 18 * 2 ^ 19 + 2 ^ 18 + r.ident % 2 ^ 18 else r.ident * 2 ^ 19

/-- The buffer the controller offers (R601, R603, R606): one held through bus-off, one of a slot, else the lowest identifier. With
FD_EN 0 it offers no CAN FD frame.
DEDUCED, assumption 90: unsafe. -/
def CanChan.offer (c : CanChan) : Option Nat :=
  let pend := c.bufs.filter fun e => e.2.pending && !e.2.cancelled && (c.fdEn || !e.2.record.fdf)
  match c.first.bind fun b => pend.find? fun e => e.1 == b with
  | some e => some e.1
  | none =>
    match pend.find? fun e => e.2.record.scheduled with
    | some e => some e.1
    | none =>
      (pend.foldl (fun (best : Option (Nat × CanBuf)) e =>
        match best with
        | none => some e
        | some b => if arbKey e.2.record < arbKey b.2.record then some e else some b) none).map (·.1)

/-- The buffer offered now may come onto the wire.
DEDUCED, assumption 90: unsafe. -/
def CanChan.noteOffer (c : CanChan) : CanChan :=
  match c.offer with
  | some b => { c with offered := setIns c.offered b }
  | none => c

/-- The status of a buffer (Table 18.4): HELD_BUSOFF while it is held. -/
def CanChan.statusOf (c : CanChan) (b : Nat) (x : CanBuf) : Nat := if c.held = some b then 3 else x.status

/-- EV_FB_STATE where the state has changed (R605). -/
def Run.canStateEvent (r : Run) (n old : Nat) : Run :=
  let c := r.can n
  if c.state = old then r
  else r.raise { ev := .fbState, source := fbSource n 0, data := [n, old, c.state, c.tec, (c.held.getD 0xFF : Nat)] }

/-- The state TEC and REC stand for (R605). -/
def errState (tec rec' : Nat) : Nat := if 255 < tec then 2 else if 127 < tec ∨ 127 < rec' then 1 else 0

/-- The shadow becomes the content once no read holds the buffer (R599). -/
def CanBuf.settle (b : CanBuf) : CanBuf :=
  match b.shadow with
  | some s => { b with content := some s, shadow := none, expired := false }
  | none => b

/-- At bus-off the buffer offered is held (`last`, where its frame has just ended in the error), or else the one that would be next; an
unsupervised receive buffer is invalid until its next frame (R600, R606).
DEDUCED, assumption 90: unsafe. -/
def CanChan.enterBusOff (c : CanChan) (last : Option Nat) : CanChan :=
  let still (b : Nat) : Bool := match tabGet c.bufs b with | some x => x.pending && !x.cancelled | none => false
  let held := if last.any still then last else c.offer
  { c with held := held, first := held, recovering := c.autoRecov, recov := 0, stat := tabInc c.stat 6,
           bufs := c.bufs.map fun (e : Nat × CanBuf) =>
             if !e.2.record.tx && e.2.record.supervise == 0 then (e.1, { e.2.settle with expired := true }) else e }

/-! ### Reception -/

/-- The flags of a store, at the places of Table 18.2.
DEDUCED, assumption 90: unsafe. -/
def storeFlags (tx ide fdf brs : Bool) : Nat :=
  (if tx then 1 else 0) + (if ide then 2 else 0) + (if fdf then 4 else 0) + if brs then 8 else 0

end Sys2Proof.Machine

namespace Sys2Proof

/-- A receive buffer takes a frame (R598). -/
def CanRec.takes (x : CanRec) (f : CanFrame) : Bool :=
  !x.tx && x.ide == f.ide && x.fdf == f.fdf && (x.ident ^^^ f.ident) &&& x.mask == 0

end Sys2Proof

namespace Sys2Proof.Machine

/-- The octets of a frame: as many as its DLC stands for. -/
def frameOctets (f : CanFrame) : List Nat :=
  ((f.data.map (· % 256)) ++ List.replicate 64 0).take (dlcLength f.fdf f.dlc)

/-- A frame has been received: the lowest matching buffer stores it, or its shadow while a read holds the buffer. -/
def Run.canReceive (r : Run) (n : Nat) (f : CanFrame) (sof : Instant) (locked : Bool) : Run :=
  let r := r.canCount n 0
  if f.remote then r
  else
    match (r.can n).bufs.find? fun e => e.2.record.takes f with
    | none => r
    | some (b, x) =>
      let s : CanStore := { ident := f.ident, dlc := f.dlc, flags := storeFlags false f.ide f.fdf f.brs, time := sof,
                            data := frameOctets f }
      if locked then
        let r := if x.shadow.isSome then r.canCount n 2 else r
        r.modBuf n b fun x => { x with shadow := some s }
      else r.modBuf n b fun x => { x with content := some s, shadow := none, expired := false }

/-- Receive supervision of a buffer has run out at an instant (R600). -/
def CanBuf.lapsed (b : CanBuf) (at' : Instant) : Bool :=
  b.record.supervise != 0 && match b.content with
    | some s => decide (s.time + b.record.supervise * 1000000 ≤ at')
    | none => false

/-- The content of a receive buffer that a CLE input reads (R600, Table 12.7); none where it is invalid. -/
def Run.canInput (r : Run) (n b : Nat) : Option CanStore :=
  let c := r.can n
  match (r.canBuf n b).map CanBuf.settle with
  | some x => if x.record.tx || x.expired || x.lapsed r.now || c.init || c.state == 2 then none else x.content
  | none => none

/-- The octets of a store as one number, least significant octet first. -/
def octetsNat (l : List Nat) : Nat := l.foldr (fun b n => b + 256 * n) 0

/-- A field of some octets: `w` bits from bit `bit` of octet `byte`. -/
def canGet (data : List Nat) (byte bit w : Nat) : Nat := (octetsNat data >>> (8 * byte + bit)) % 2 ^ w

/-- The octets with a field written. -/
def canPut (data : List Nat) (byte bit w v : Nat) : List Nat :=
  let at' := 8 * byte + bit
  let n := octetsNat data
  let hole := (n >>> (at' + w)) <<< (at' + w) + n % 2 ^ at'
  let n := hole + (v % 2 ^ w) * 2 ^ at'
  (List.range data.length).map fun i => (n >>> (8 * i)) % 256

/-! ### Transmission (R601, R608) -/

/-- A write of content fails while the channel is bus-off, or while the buffer is PENDING (R601, Table 12.7). -/
def Run.canBlocked (r : Run) (n b : Nat) : Bool :=
  (r.can n).state == 2 || match r.canBuf n b with
    | some x => !x.record.tx || x.pending
    | none => true

/-- The content of a transmit buffer; one that was never written starts as zeros. -/
def CanBuf.txStore (x : CanBuf) : CanStore :=
  x.content.getD { ident := x.record.ident, dlc := x.record.dlc, time := 0,
                   flags := storeFlags true x.record.ide x.record.fdf x.record.brs,
                   data := List.replicate (dlcLength x.record.fdf x.record.dlc) 0 }

/-- A field of a transmit buffer is written. -/
def Run.canWrite (r : Run) (n b byte bit w v : Nat) : Run :=
  r.modBuf n b fun x =>
    let s := x.txStore
    { x with content := some { s with data := canPut s.data byte bit w v } }

/-- A transmission is asked for: a SCHEDULED buffer waits for its slot (R603). -/
def Run.canRequest (r : Run) (n b : Nat) (byCommand : Bool) : Run :=
  (r.modBuf n b fun x =>
    if x.record.scheduled then x
    else { x with pending := true, byCommand := byCommand, cancelled := false }).modCan n CanChan.noteOffer

/-- A frame ends with a status of Table 18.4. -/
def Run.canEnd (r : Run) (n b status : Nat) : Run :=
  match r.canBuf n b with
  | none => r
  | some x =>
    let r := r.modBuf n b fun x => { x with
      pending := false, status := status, cancelled := false, cancelWaits := [], byCommand := false }
    let r := r.modCan n fun c => CanChan.noteOffer { c with
      held := if c.held = some b then none else c.held, first := if c.first = some b then none else c.first,
      slots := c.slots.filter fun s => s.buffer != b, offered := c.offered.filter fun k => k != b }
    let r := if status = 2 then r.canCount n 5 else r
    let r := if x.byCommand then r.raise { ev := .fbTx, source := fbSource n 3, data := [n, b, status] } else r
    x.cancelWaits.foldl (fun (r : Run) w => r.finish w.1 w.2 { result := [(status : Int)] }) r

/-- The frame of a buffer as it goes onto the bus. -/
def CanBuf.frame (x : CanBuf) (brsEn : Bool) : CanFrame :=
  { ident := x.record.ident, ide := x.record.ide, fdf := x.record.fdf, brs := x.record.brs && brsEn, dlc := x.record.dlc,
    data := x.txStore.data }

/-- The frame of a buffer has been sent and acknowledged; in loopback it returns internally (Table 18.1). `sof` is its SOF. -/
def Run.canSent (r : Run) (n b : Nat) (x : CanBuf) (sof : Instant) : Run :=
  let c := r.can n
  let f := x.frame c.brsEn
  let r := r.canCount n 1
  let r := if c.loopback then r.canReceive n f sof false else r.emit (.can n f (f.fdf && c.state == 1))
  r.canEnd n b (if x.cancelled then 2 else 0)

/-- The transmitter delay that an FD frame of a buffer has measured, where it was sent with BRS and TDC_EN (R596). -/
def Run.canDelay (r : Run) (n : Nat) (x : CanBuf) (tdcv : Option Nat) : Run :=
  let c := r.can n
  match tdcv with
  | some v =>
    if !(c.tdcEn && c.brsEn && x.record.fdf && x.record.brs) then r
    else
      let r := r.modCan n fun c => { c with tdcv := v % 128 }
      if 127 < v % 128 + c.tdco then r.canCount n 7 else r
  | none => r

/-- A frame has lost arbitration or met an error: cancelled, ended as ONE_SHOT, or offered again (R601, Table 18.3). -/
def Run.canFailed (r : Run) (n b : Nat) (x : CanBuf) : Run :=
  if x.cancelled then r.canEnd n b 1 else if x.record.oneShot then r.canEnd n b 5 else r

/-- A frame that was offered has ended on the wire; what is offered now is what may come next. -/
def Run.canFrameEnd (r : Run) (n b : Nat) (e : CanEnd) (tdcv : Option Nat) : Run :=
  match r.canBuf n b with
  | none => r
  | some x =>
    (match e with
      | .acked sof => (r.canDelay n x tdcv).canSent n b x sof
      | .withdrawn => if x.cancelled then r.canEnd n b 1 else r
      | .lost => r.canFailed n b x
      | .error => (r.canDelay n x tdcv).canFailed n b x).modCan n fun c => CanChan.noteOffer { c with offered := [] }

/-- A cancellation of a PENDING buffer (Table 18.3): it waits for the frame's end when the frame is on the wire. -/
def Run.canCancel (r : Run) (n b : Nat) (onWire : Bool) (wait : Option (Nat × Word)) : Run :=
  let r := r.modBuf n b fun x => { x with cancelWaits := x.cancelWaits ++ wait.toList }
  if onWire && (r.can n).state != 2 then r.modBuf n b fun x => { x with cancelled := true } else r.canEnd n b 1

/-- The cancellation of every PENDING buffer of an instance (R608): one that has been offered may be on the wire. -/
def Run.canCancelInst (r : Run) (inst : Nat) : Run :=
  (List.range 4).foldl (fun (r : Run) n =>
    let offered := (r.can n).offered
    ((r.can n).bufs.filter fun e => e.2.pending && e.2.record.inst == inst).foldl
      (fun (r : Run) e => r.canCancel n e.1 (offered.contains e.1) none) r) r

/-- Frames that a cancellation waits for end CANCELLED where nothing more goes onto the wire (R605, R608): at bus-off, and in INIT.
DEDUCED, assumption 90: unsafe. -/
def Run.endCancelled (r : Run) (n : Nat) : Run :=
  ((r.can n).bufs.filter fun e => e.2.pending && e.2.cancelled).foldl (fun (r : Run) e => r.canEnd n e.1 1) r

/-- The error counters take new values (R605, R606), `last` being the buffer whose frame has ended.
DEDUCED, assumption 90: unsafe. -/
def Run.canErrors (r : Run) (n tec rec' : Nat) (last : Option Nat := none) : Run :=
  let old := (r.can n).state
  let r := r.modCan n fun c =>
    let c := { c with tec := tec % 512, rec' := rec' % 256, state := errState tec rec' }
    if c.state = 2 ∧ old ≠ 2 then c.enterBusOff last else c
  (if (r.can n).state = 2 then r.endCancelled n else r).canStateEvent n old

/-! ### The schedule matrix (R602 to R604) -/

/-- The counter passed, in its last tick, an instant whose offset in a period of whole nanoseconds is `x`. -/
def Run.passed (r : Run) (period x : Nat) : Bool :=
  let p := period * 2 ^ 32
  let y := r.tsu.counter % (1000000000 * 2 ^ 32) % p
  decide ((y + p - x * 2 ^ 32) % p < r.tsu.inc)

/-- EV_FB_SLOT, at most once per channel in 100 ms. -/
def Run.slotMissed (r : Run) (n cycle slot : Nat) : Run :=
  let r := r.canCount n 4
  let c := r.can n
  let at' := r.now
  let quiet := match c.missedAt with | some t => decide (at' < t + 100000000) | none => false
  if quiet then r.modCan n fun c => { c with missed := c.missed + 1 }
  else (r.modCan n fun c => { c with missed := 0, missedAt := some at' }).raise
    { ev := .fbSlot, source := fbSource n 2, data := [n, cycle, slot, (c.missed + 1) % 65536] }

/-- A slot instant. -/
def Run.canSlot (r : Run) (n cycle slot : Nat) : Run :=
  let c := r.can n
  match ((c.matrix[cycle]?).bind fun l => l[slot]?).join with
  | none => r
  | some (b, offset) =>
    if !c.schedEn || c.init || !c.enable || !r.passed (c.matrix.length * c.cycleLen) (cycle * c.cycleLen + offset * 1000) then r
    else match tabGet c.bufs b with
      | none => r
      | some x =>
        if !x.record.tx || !x.record.scheduled || x.content.isNone then r
        else if c.state = 2 then r.slotMissed n cycle slot
        else
          let till := r.now + c.window
          let w : SlotOpen := { cycle := cycle, slot := slot, buffer := b, till := till }
          (r.modBuf n b fun x => { x with pending := true, cancelled := false }).modCan n fun c => CanChan.noteOffer { c with
            slots := c.slots.filter (fun s => s.buffer != b) ++ [w] }

/-- The window of a slot has ended and its frame has not won its arbitration (R603). -/
def Run.canSlotEnd (r : Run) (n cycle slot : Nat) : Run :=
  match (r.can n).slots.find? fun s => s.cycle == cycle && s.slot == slot with
  | some w => if w.till ≤ r.now then (r.canEnd n w.buffer 4).slotMissed n cycle slot else r
  | none => r

/-- Receive supervision of a buffer expires (R600). -/
def Run.canExpire (r : Run) (n b : Nat) : Run :=
  match (r.canBuf n b).map CanBuf.settle with
  | none => r
  | some x =>
    if x.record.tx || x.expired || !x.lapsed r.now then r
    else
      let at' := r.now
      let quiet := match x.expiredAt with | some t => decide (at' < t + 100000000) | none => false
      let r := (r.modBuf n b fun y => { y.settle with
        expired := true, expiries := if quiet then x.expiries + 1 else 0,
        expiredAt := if quiet then x.expiredAt else some at' }).canCount n 3
      if quiet then r
      else
        let e : Raise := { ev := .fbSupervision, source := fbSource n 1, data := [n, b, (x.expiries + 1) % 65536] }
        if x.record.inst < 32 then r.raiseInst x.record.inst e else r.raise e

/-! ### Registers of a channel -/

/-- Values that satisfy R595. -/
def nbtOk (w : Nat) : Bool :=
  let brp := field w 31 23 + 1
  let t1 := field w 22 15 + 1
  let t2 := field w 14 8 + 1
  let sjw := field w 6 0 + 1
  decide (brp ≤ 512) && decide (2 ≤ t1) && decide (t1 ≤ 256) && decide (t2 ≤ 128) && decide (sjw ≤ t2)

/-- See `nbtOk`. -/
def dbtOk (w : Nat) : Bool :=
  let t2 := field w 21 18 + 1
  let sjw := field w 17 14 + 1
  decide (sjw ≤ t2)

/-- TDC_EN may be 1 only with DBRP 1 or 2 (R595); `dbt` is FBC_DBT. -/
def tdcOk (tdcEn : Bool) (dbt : Nat) : Bool := !tdcEn || decide (field dbt 31 27 + 1 ≤ 2)

end Sys2Proof.Machine
end

