-- ==== Sys2Proof/Machine/PubOps.lean ====
section
/-! DEFINITION. Publications: members, releases, retransmission and frames (R480 to R491, R655). -/

namespace Sys2Proof.Machine

/-- GOOSE publication of device number `d`. -/
def Run.goosePub (r : Run) (d : Nat) : Option GooseSt := tabGet r.trip.gooses d

/-- SV publication of device number `d`. -/
def Run.svPub (r : Run) (d : Nat) : Option SvSt := tabGet r.trip.svs d

/-- A GOOSE publication changed by `f`. -/
def Run.modGoose (r : Run) (d : Nat) (f : GooseSt → GooseSt) : Run :=
  match r.goosePub d with
  | some x => r.modTrip fun t => { t with gooses := tabSet t.gooses d (f x) }
  | none => r

/-- An SV publication changed by `f`. -/
def Run.modSv (r : Run) (d : Nat) (f : SvSt → SvSt) : Run :=
  match r.svPub d with
  | some x => r.modTrip fun t => { t with svs := tabSet t.svs d (f x) }
  | none => r

/-- The device number of an instance's GOOSE publication (R480). -/
def Run.gooseDev (r : Run) (n index : Nat) : Option Nat :=
  (r.trip.gooses.find? fun e => e.2.inst == n && e.2.index == index).map (·.1)

/-- The device number of an instance's SV publication. -/
def Run.svDev (r : Run) (n index : Nat) : Option Nat :=
  (r.trip.svs.find? fun e => e.2.inst == n && e.2.index == index).map (·.1)

/-- The publications of an instance are suspended (R103, R628). -/
def Run.suspended (r : Run) (n : Nat) : Bool := (r.inst n).phase != .active || r.halted

/-- Before its first join has ended, or it has been LONE for 2 s after PROTECTION rose, a twin sends no frame of a publication
with TWIN set (R655). -/
def Run.twinSilent (r : Run) : Bool :=
  let t := r.trip.trib
  t.cfg.isSome && !t.joinedOnce && !(!t.paired && decide (max t.since t.protectedAt + 2000000000 ≤ r.now))

/-! ### Members (R481, R485) -/

/-- What a member of a type holds of an element: the value, converted to the type, or VALIDITY and TEST. INTEGER and UNSIGNED
members take the nearest whole number, saturated; `free` stands where the manual states no value: a NaN, and the types that no
number spells (assumption 27, DESIGN CHOICE). -/
def memberOf (free : Nat) (type : Nat) (v : Word) (q : Nat) : Nat :=
  match type with
  | 1 => if (val32 v).eq (.fin false 0) then 0 else 1
  | 3 => if isNan32 v then free % 2 ^ 32 else bitsOfInt 32 (quantise v 0 (-(2 ^ 31)) (2 ^ 31 - 1)).1
  | 4 => if isNan32 v then free % 2 ^ 32 else (quantise v 0 0 (2 ^ 32 - 1)).1.toNat
  | 5 => v.toNat
  | 7 => q % 4 + (if q.testBit 7 then 128 else 0)
  | 6 => free % 2 ^ 64
  | _ => free % 2 ^ 32

/-- A member of a GOOSE publication is written; none while the publication is suspended (R488). -/
def Run.gooseWrite (r : Run) (d member value : Nat) : Option Run :=
  match r.goosePub d with
  | none => none
  | some x => if r.suspended x.inst then none else some (r.modGoose d fun x => { x with values := modAt x.values member fun _ => value })

/-- A member of an SV publication is written, with oldData or without it. -/
def Run.svMember (r : Run) (d member : Nat) (v : Word) (old : Bool) : Option Run :=
  match r.svPub d with
  | none => none
  | some x => if r.suspended x.inst then none else some (r.modSv d fun x => { x with values := modAt x.values member fun _ => (v, old) })

/-! ### Frames -/

/-- The key of a publication, where it needs one, as the key bus has delivered it (R584): none when the slot no longer serves the publisher (R482). -/
def Run.pubKeyOf (r : Run) (inst auth slot : Nat) : Option Nat :=
  if auth = 0 then some 0
  else match r.srm.key slot with
    | some k => if r.srm.serves k 3 2 (some inst) then r.srm.context 3 slot else none
    | none => none

/-- EV_PUB_ERROR. -/
def Run.pubError (r : Run) (d cause : Nat) : Run := r.raise { ev := .pubError, source := 704, data := [d, cause] }

/-- A frame whose key does not serve: the denied use counts where the slot holds a key (R570), and the frame is not sent. -/
def Run.pubDenied (r : Run) (d slot : Nat) : Run :=
  (if (r.srm.key slot).isSome then r.srmCount 1 else r).pubError d 1

/-- The twin trailer (Table 14.3): MARK 0x7A1C, VER_TWIN with version 1 and TWIN_ID, a zero octet, and TWIN_SEQ (R489). -/
def twinTrailer (twinId seq : Nat) : List Nat := octetsOf 2 0x7A1C ++ [16 + twinId % 4, 0] ++ octetsOf 4 seq

/-- TWIN_ID of the device; 0 while it is unconfigured. -/
def Trib.twinId (t : Trib) : Nat := match t.cfg with | some c => c.twinId | none => 0

/-- A frame goes to the switch through IPORT_PUBLISH; `octets` is what follows its Ethertype, with TWIN the trailer of Table 14.3
behind it (R489). -/
def Run.pubSend (r : Run) (d : Nat) (goose : Bool) (da vid pcp tag tc : Nat) (ports : List Nat) (octets : Nat)
    (payload : Payload) : Run :=
  let len := 14 + 4 + octets + 4
  let f : Frame := { da := da, sa := Config.deviceMac, vid := some vid, pcp := pcp, etype := if goose then 0x88B8 else 0x88BA,
                     len := len, payload := payload }
  let r := if ports.any fun p => decide ((r.port p).maxFrame < len) then r.pubError d 2 else r
  r.handIn 65 { frame := f, ports := ports, tc := tc, stampId := if tag = 0 then none else some (1, tag) }

end Sys2Proof.Machine

namespace Sys2Proof

/-- The interval in ms to the transmission after the `j`-th retransmission (R484). -/
def GoosePub.interval (x : GoosePub) (j : Nat) : Nat := min (2 ^ j * x.minT) x.maxT

end Sys2Proof

namespace Sys2Proof.Machine

/-- The members of a snapshot with their types. -/
def GooseSt.typed (x : GooseSt) (values : List Nat) : List (Nat × Nat) := x.record.members.zip values

/-- The dataset CRC of a snapshot (R490). -/
def GooseSt.crcOf (x : GooseSt) (values : List Nat) : Nat := crc32 (Config.allData (x.typed values))

/-- A frame of a GOOSE publication with its present numbers and snapshot: nothing while its twin copy is suspended, or before
a twin may speak. -/
def Run.gooseFrameOut (r : Run) (d : Nat) : Run :=
  match r.goosePub d with
  | none => r
  | some x =>
    let p := x.record
    if p.twin && (x.twinOff || r.twinSilent) then r
    else match r.pubKeyOf x.inst p.auth p.key with
      | none => r.pubDenied d p.key
      | some key =>
        let tal := p.talFactor * p.interval x.sends
        let fields : List Int := [(tal : Int), x.ts / 4800, x.ts % 4800, x.stNum, x.sqNum, if p.sim then 1 else 0, p.confRev, p.appid] ++
          (x.sent.getD []).map Int.ofNat
        let octets := Config.pubOctets true (fields ++ (p.goId ++ p.gocbRef ++ p.datSet).map Int.ofNat) p.auth key
        let octets := octets ++ if p.twin then twinTrailer r.trip.trib.twinId x.twinSeq else []
        let r := r.modGoose d fun x => { x with
          stat := tabInc x.stat 1, twinSeq := if p.twin then (x.twinSeq + 1) % 2 ^ 32 else x.twinSeq }
        r.pubSend d true p.da p.vid p.pcp p.tag (if p.trip then 7 else p.pcp) p.ports octets.length
          (.published true d x.stNum x.sqNum fields octets)

/-! ### GOOSE releases (R483, R484) -/

/-- A number modulo 2³² that skips 0 after its first wrap, plus 1. -/
def bumpNum (n : Nat) (wrapped : Bool) : Nat × Bool :=
  if n + 1 < 2 ^ 32 then (n + 1, wrapped) else (1, true)

end Sys2Proof.Machine

namespace Sys2Proof

/-- The instant of retransmission `j`, from 1 on, after a new state at P tick `ts`, in ns (R484). -/
def GoosePub.retryAt (x : GoosePub) (ts j : Nat) : Rat :=
  Machine.pInstant ts + (((List.range j).map fun i => x.interval i).sum : Nat) * 1000000

end Sys2Proof

namespace Sys2Proof.Machine

/-- A new state of a block at P tick `ts` with a snapshot: stNum advances, sqNum is 0, the schedule restarts. -/
def GooseSt.newState (x : GooseSt) (ts : Nat) (values : List Nat) : GooseSt :=
  let (st, w) := bumpNum x.stNum x.stWrapped
  { x with stNum := st, stWrapped := w, sqNum := 0, sqWrapped := false, ts := ts, sends := 0, sent := some values, adopted := none,
           nextAt := some (x.record.retryAt ts 1) }

/-! ### Twins (R490, R491, R656) -/

/-- The block agrees with what twin 1 mirrored. -/
def GooseSt.agrees (x : GooseSt) : Bool :=
  match x.mirrored with
  | none => true
  | some (st, crc) =>
    let own := match x.adopted with | some c => c | none => x.crcOf (x.sent.getD x.values)
    (x.stNum == st && own == crc) || x.stNum == st + 1 || x.stNum + 1 == st

/-- A join is in progress (R654).
DEDUCED, assumption 69: unsafe. -/
def Trib.joining (t : Trib) : Bool := t.join.isSome

/-- Twin 2 compares a block and suspends its copy, or lets it resume (R490). -/
def Run.twinCompare (r : Run) (d : Nat) : Run :=
  match r.goosePub d, r.trip.trib.cfg with
  | some x, some c =>
    if !x.record.twin ∨ c.twinId ≠ 2 ∨ !r.trip.trib.paired ∨ r.trip.trib.joining then r
    else if x.agrees then (if x.twinOff then r.modGoose d fun x => { x with twinOff := false } else r)
    else if x.twinOff then r
    else
      let st := match x.mirrored with | some (s, _) => s | none => 0
      (r.modGoose d fun x => { x with twinOff := true, stat := tabInc x.stat 3 }).raise
        { ev := .twinDiverge, source := 705, data := [d, x.stNum, st] }
  | _, _ => r

/-- A block takes a new state and sends it. -/
def Run.gooseNew (r : Run) (d ts : Nat) (values : List Nat) : Run :=
  let r := r.modGoose d fun x => { (x.newState ts values) with stat := tabInc x.stat 2 }
  let r := match r.goosePub d with | some x => if x.record.twin then r.noteMirror (.block d) else r | none => r
  (r.twinCompare d).gooseFrameOut d

/-- A release of a GOOSE publication by a job of P tick `ts` (R483). -/
def Run.gooseRelease (r : Run) (d ts : Nat) : Run :=
  match r.goosePub d with
  | none => r
  | some x =>
    if r.suspended x.inst then r
    else
      let same := match x.adopted with
        | some c => x.crcOf x.values == c
        | none => x.sent == some x.values
      if same then (if x.adopted.isSome then r.modGoose d fun x => { x with sent := some x.values, adopted := none } else r)
      else r.gooseNew d ts x.values

/-- A retransmission falls due (R484); a suspended twin copy keeps its place in the schedule and sends nothing (R490). -/
def Run.gooseRetry (r : Run) (d : Nat) : Run :=
  match r.goosePub d with
  | none => r
  | some x =>
    match x.nextAt with
    | none => r
    | some t =>
      if r.nowExact < t ∨ r.suspended x.inst then r
      else
        let (sq, w) := bumpNum x.sqNum x.sqWrapped
        let r := r.modGoose d fun x => { x with
          sqNum := sq, sqWrapped := w, sends := x.sends + 1,
          nextAt := some (t + (x.record.interval (x.sends + 1) : Nat) * 1000000) }
        let r := if x.record.twin then r.noteMirror (.block d) else r
        r.gooseFrameOut d

/-- The publications of an instance that leaves ACTIVE are suspended (R103).
DESIGN CHOICE, assumption 71: unsafe. -/
def Run.pubsPause (r : Run) (n : Nat) : Run :=
  r.modTrip fun t => { t with gooses := t.gooses.map fun e => (e.1, if e.2.inst = n then { e.2 with paused := true } else e.2) }

/-- An instance returns to ACTIVE: each publication that it suspended resumes with stNum incremented by 1 and sqNum 0 (R103). One that holds
no dataset, its own or adopted, has nothing to send before its first release.
DESIGN CHOICE, assumption 71: unsafe. -/
def Run.pubsResume (r : Run) (n : Nat) : Run :=
  let tick := r.now * 3 / 625000
  r.trip.gooses.foldl (fun (r : Run) e =>
    if e.2.inst = n ∧ e.2.paused then
      let r := r.modGoose e.1 fun x => { x with paused := false }
      if e.2.sent.isSome ∨ e.2.adopted.isSome then r.gooseNew e.1 tick e.2.values
      else r.modGoose e.1 fun x =>
        let (st, w) := bumpNum x.stNum x.stWrapped
        { x with stNum := st, stWrapped := w, sqNum := 0, sqWrapped := false }
    else r) r

/-! ### SV (R486, R487) -/

/-- A member as sent: round(value / SCALE) saturated to INT32, and its quality word in the order of IEC 61850-8-1's quality, bit 0
first: outOfRange in bit 3, questionable as validity 3 and oldData in bit 7. The manual states no number for a NaN: `free` stands there.
PRESUMED, assumption 86: unsafe. -/
def svValue (free : Int) (scale v : Word) (old : Bool) : Int × Nat :=
  let (z, sat) : Int × Bool := match (val32 v).div (val32 scale) with
    | .fin _ q =>
      let z := nearestEvenInt q
      if z < -(2 ^ 31) then (-(2 ^ 31), true) else if 2 ^ 31 - 1 < z then (2 ^ 31 - 1, true) else (z, false)
    | .inf neg => (if neg then -(2 ^ 31) else 2 ^ 31 - 1, true)
    | .nan => (free, false)
  (z, (if sat then 8 else 0) + if old then 3 + 128 else 0)

/-- A frame of an SV stream for a tick of its grid, counted from the TAI epoch. -/
def Run.svRelease (r : Run) (d tick : Nat) : Run :=
  match r.svPub d with
  | none => r
  | some x =>
    let p := x.record
    if r.suspended x.inst then r
    else
      let cnt := if p.gridQ then tick % 14400 else tick % 4800
      let r := r.modSv d fun x => { x with smpCnt := cnt, tick := tick, ended := [] }
      if p.twin && r.twinSilent then r
      else match r.pubKeyOf x.inst p.auth p.key with
        | none => r.pubDenied d p.key
        | some key =>
          let synch : Nat := if r.tsu.tq % 4 = 0 then 2 else 0
          let gm : List Int := if r.tsu.regs.src = 1 then [(r.tsu.ref.gm : Int)] else []
          let base := r.free
          let r := { r with free := r.free + 16 }
          let members := (List.range p.scales.length).flatMap fun i =>
            let (v, old) := x.values.getD i (0, false)
            let (z, q) := svValue (Config.freeValue 32 (base + i)).toInt (p.scales.getD i 0) v old
            [z, (q : Int)]
          let fields : List Int := [(cnt : Int), synch, if p.sim then 1 else 0, p.confRev, p.appid] ++ members ++ gm
          let octets := Config.pubOctets false (fields ++ p.svId.map Int.ofNat) p.auth key
          let octets := octets ++ if p.twin then twinTrailer r.trip.trib.twinId x.twinSeq else []
          let r := r.modSv d fun x => { x with
            stat := tabInc x.stat 1, twinSeq := if p.twin then (x.twinSeq + 1) % 2 ^ 32 else x.twinSeq }
          r.pubSend d false p.da p.vid p.pcp p.tag p.pcp p.ports octets.length (.published false d cnt synch fields octets)

/-! ### The pair ends (R491) -/

/-- The pair has left PAIRED: a suspended copy resumes ahead of both numbers, with its own dataset (R491).
DESIGN CHOICE, assumption 71: unsafe. -/
def Run.twinAlone (r : Run) : Run :=
  let tick := r.now * 3 / 625000
  r.trip.gooses.foldl (fun (r : Run) e =>
    let x := e.2
    if x.twinOff then
      let st := max x.stNum (match x.mirrored with | some (s, _) => s | none => 0)
      let r := r.modGoose e.1 fun x => { x with twinOff := false, stNum := st, mirrored := none }
      if r.suspended x.inst then r else r.gooseNew e.1 tick (x.sent.getD x.values)
    else r.modGoose e.1 fun x => { x with mirrored := none }) r

end Sys2Proof.Machine
end

