-- ==== Sys2Proof/Machine/MlrOps.lean ====
section
/-! DEFINITION. Millrace: stages, evaluations, modes, injection and capture (R457 to R475). -/

namespace Sys2Proof.Machine

/-- Loop of device number `l`. -/
def Run.loop (r : Run) (l : Nat) : Option LoopSt := tabGet r.mlr.loops l

/-- Millrace changed by `f`. -/
def Run.modMlr (r : Run) (f : Millrace → Millrace) : Run := { r with mlr := f r.mlr }

/-- A loop changed by `f`. -/
def Run.modLoop (r : Run) (l : Nat) (f : LoopSt → LoopSt) : Run :=
  match r.loop l with
  | some x => r.modMlr fun y => { y with loops := tabSet y.loops l (f x) }
  | none => r

/-- The device number of an instance's loop (R457). -/
def Run.loopDev (r : Run) (n index : Nat) : Option Nat :=
  (r.mlr.loops.find? fun e => e.2.inst == n && e.2.index == index).map (·.1)

/-- A counter of a loop (MLR_STAT). -/
def Run.mlrCount (r : Run) (l k : Nat) : Run := r.modLoop l fun x => { x with stat := tabInc x.stat k }

/-- An event of a loop (R479): source 640 + l, DATA led by the index. -/
def Run.mlrEvent (r : Run) (l : Nat) (ev : Ev) (data : List Int) : Run :=
  match r.loop l with
  | some x => r.raise { ev := ev, source := 640 + l, owner := some x.inst, data := (x.index : Int) :: data }
  | none => r

/-! ### Numbers (R461, R462) -/

/-- The exact value of a binary32 pattern; one that has none is open (assumption 28, DESIGN CHOICE). -/
def exactOf (w : Word) : Rat := match val32 w with | .fin _ q => q | _ => Config.notFinite w

/-- The weight of a mantissa. -/
def lsbOf (e : Int) : Rat := pow2 (e - 23)

/-- An exact value stored in a stage: the nearest mantissa, ties to even, saturated; true when it saturated.
DESIGN CHOICE, assumption 76: unsafe. -/
def storeIn (e : Int) (v : Rat) : Int × Bool :=
  let z := nearestEvenInt (v / lsbOf e)
  if z < -(2 ^ 23) then (-(2 ^ 23), true) else if 2 ^ 23 - 1 < z then (2 ^ 23 - 1, true) else (z, false)

/-- A binary32 value stored in a stage; `free` stands for a NaN, for which the manual states no mantissa. -/
def storeWord (e : Int) (free : Int) (w : Word) : Int × Bool :=
  match val32 w with
  | .fin _ q => storeIn e q
  | .inf neg => (if neg then -(2 ^ 23) else 2 ^ 23 - 1, true)
  | .nan => (free, false)

/-- The value of a mantissa. -/
def valueOf (e m : Int) : Rat := (m : Rat) * lsbOf e

/-- The tick period of a grid, in binary64. -/
def gridPeriod (gridQ : Bool) : Word64 := rat64 (if gridQ then 1 / 14400 else 1 / 4800)

/-- Parameter `i` of a stage, in binary64. -/
def stageP (x : Stage) (i : Nat) : Word64 := widen (x.p.getD i 0)

/-- A coefficient: a binary64 value rounded to binary32, exactly (R463). -/
def coef (w : Word64) : Rat := exactOf (narrow w)

/-- The coefficients of a stage (Table 13.2), computed in binary64 in the order the table writes them. -/
def stageCoefs (t : Word64) (x : Stage) : List Rat :=
  let one := rat64 1
  let two := rat64 2
  let k := div64 two t
  match x.type with
  | 1 => [coef (stageP x 0), coef (mul64 (stageP x 1) t)]
  | 2 =>
    let w0 := mul64 (mul64 two pi64) (stageP x 2)
    let wc := mul64 (mul64 two pi64) (stageP x 3)
    let kap := div64 w0 (Config.tan (div64 (mul64 w0 t) two))
    let k2 := mul64 kap kap
    let w2 := mul64 w0 w0
    let cross := mul64 (mul64 two wc) kap
    let d := add64 (add64 k2 cross) w2
    let b0 := div64 (mul64 (mul64 (mul64 two (stageP x 1)) wc) kap) d
    let a1 := div64 (mul64 two (sub64 w2 k2)) d
    let a2 := div64 (add64 (sub64 k2 cross) w2) d
    [coef (stageP x 0), coef b0, -(coef b0), coef a1, coef a2]
  | 3 =>
    let n1 := mul64 k (stageP x 1)
    let n2 := mul64 k (stageP x 2)
    let den := add64 one n2
    [coef (div64 (mul64 (stageP x 0) (add64 one n1)) den), coef (div64 (mul64 (stageP x 0) (sub64 one n1)) den),
     coef (div64 (sub64 one n2) den)]
  | 6 => [coef (mul64 (stageP x 0) t), coef (mul64 (stageP x 1) t)]
  | _ => x.p.map exactOf

/-- A value clamped to two limits. -/
def clampTo (lo hi v : Rat) : Rat := if v < lo then lo else if hi < v then hi else v

/-- One evaluation of one stage: its new state, y, whether a stored result saturated, and for a limiter −1 or 1 where it gave
LO or HI. `hold` keeps a PI integrator (AW). -/
def stageEval (x : Stage) (c : List Rat) (s : StageSt) (m : Int) (hold : Bool) : StageSt × Int × Bool × Int :=
  let e := x.e
  let v (k : Int) : Rat := valueOf e k
  let g (i : Nat) : Rat := c.getD i 0
  match x.type with
  | 1 =>
    let lo := exactOf (x.p.getD 2 0)
    let hi := exactOf (x.p.getD 3 0)
    let (i, sat) := if hold then (s.i, false) else storeIn e (clampTo lo hi (v s.i + g 1 * v m))
    let (y, sat') := storeIn e (g 0 * v m + v i)
    ({ s with i := i }, y, sat || sat', 0)
  | 2 =>
    let (r', sat) := storeIn e (g 1 * v m + g 2 * v s.x2 - g 3 * v s.i - g 4 * v s.i2)
    let (y, sat') := storeIn e (g 0 * v m + v r')
    ({ s with x1 := m, x2 := s.x1, i := r', i2 := s.i }, y, sat || sat', 0)
  | 3 =>
    let (y, sat) := storeIn e (g 0 * v m + g 1 * v s.x1 - g 2 * v s.y1)
    ({ s with x1 := m, y1 := y }, y, sat, 0)
  | 4 =>
    let (y, sat) := storeIn e (g 0 * v m + g 1 * v s.x1 + g 2 * v s.x2 - g 3 * v s.y1 - g 4 * v s.y2)
    ({ s with x1 := m, x2 := s.x1, y1 := y, y2 := s.y1 }, y, sat, 0)
  | 5 =>
    let (y, sat) := storeIn e (clampTo (g 0) (g 1) (v m))
    (s, y, sat, if g 1 ≤ v m then 1 else if v m ≤ g 0 then -1 else 0)
  | _ =>
    let (y, sat) := storeIn e (v s.y1 + clampTo (-(g 1)) (g 0) (v m - v s.y1))
    ({ s with y1 := y }, y, sat, 0)

/-- The DC gain of a stage, limiters and rate limiters counted as 1; none where it has no finite gain (R470).
DESIGN CHOICE, assumption 28: safe. -/
def dcGain (x : Stage) : Option Rat :=
  let finite (n : Nat) : Bool := (List.range n).all fun i => match val32 (x.p.getD i 0) with | .fin _ _ => true | _ => false
  match x.type with
  | 3 => if finite 1 then some (ratOf32 (x.p.getD 0 0)) else none
  | 4 =>
    let p (i : Nat) : Rat := ratOf32 (x.p.getD i 0)
    let d := 1 + p 3 + p 4
    if !finite 5 ∨ d = 0 then none else some ((p 0 + p 1 + p 2) / d)
  | 5 => some 1
  | 6 => some 1
  | _ => none

/-- The product of the DC gains of the stages from `s` on; a stage without one counts as 1. -/
def gainFrom (l : List Stage) (s : Nat) : Rat := (l.drop s).foldl (fun g x => g * (dcGain x).getD 1) 1

/-! ### An evaluation (R465, R469, R470) -/

/-- What runs through the stages. -/
structure Eval where
  states : List StageSt
  ins : List Word := []
  outs : List Word := []
  sat : Nat := 0
  limited : Int := 0
  /-- The output of the last stage evaluated, exact. -/
  y : Rat := 0
  bump : Bool := false
  deriving DecidableEq, Repr

/-- What an evaluation starts from. -/
structure EvalIn where
  rec' : LoopRec
  auto : Bool
  enter : Bool
  um : Word
  limited : Int
  err : Word
  /-- The injection at a stage or, with 8, at OUT; its w. -/
  inject : Option (Nat × Word)
  free : Int
  deriving DecidableEq, Repr

/-- The first PI stage: the limiters after it give LIMITED.
DESIGN CHOICE, assumption 76: unsafe. -/
def firstPi (l : List Stage) : Nat := (l.findIdx? fun x => x.type == 1).getD 0

/-- Steady state of a stage after the PRESET stage at u_m (R470).
DESIGN CHOICE, assumption 76: unsafe. -/
def steady (l : List Stage) (s : Nat) (um : Rat) (x : Stage) (st : StageSt) : StageSt :=
  match x.type with
  | 6 => { st with y1 := (storeIn x.e um).1 }
  | 1 => { st with i := (storeIn x.e (um / gainFrom l (s + 1))).1 }
  | 2 => {}
  | 5 => st
  | _ =>
    let g := (dcGain x).getD 1
    let u := um / gainFrom l s
    let a := (storeIn x.e u).1
    let b := (storeIn x.e (g * u)).1
    { st with x1 := a, x2 := a, y1 := b, y2 := b }

/-- The integrator of the PRESET stage (R470): the mantissa, and whether it saturated or was clamped.
DESIGN CHOICE, assumption 76: unsafe. -/
def presetI (c : List Rat) (x : Stage) (um gAfter : Rat) (m : Int) : Int × Bool :=
  let xp := rat64 (valueOf x.e m)
  let want := sub64 (sub64 (div64 (rat64 um) (rat64 gAfter)) (mul64 (rat64 (c.getD 0 0)) xp)) (mul64 (rat64 (c.getD 1 0)) xp)
  let v := ratOf64 want
  let lo := exactOf (x.p.getD 2 0)
  let hi := exactOf (x.p.getD 3 0)
  let (i, sat) := storeIn x.e (clampTo lo hi v)
  (i, sat || decide (v < lo) || decide (hi < v))

/-- One stage of an evaluation. -/
def evalStage (a : EvalIn) (acc : Eval) (s : Nat) : Eval :=
  match a.rec'.stages[s]?, acc.states[s]? with
  | some x, some st =>
    if !a.auto ∧ a.rec'.preset ≤ s then acc
    else
      let (m, sat) := if s = 0 then storeWord x.e a.free a.err else storeIn x.e acc.y
      let (m, sat) := match a.inject with
        | some (k, w) => if k = s then (let (m', sat') := storeIn x.e (valueOf x.e m + exactOf w); (m', sat || sat')) else (m, sat)
        | none => (m, sat)
      let c := stageCoefs (gridPeriod a.rec'.gridQ) x
      let preset := a.auto && a.enter && s == a.rec'.preset
      let (st, bump) := if preset then
          (let (i, b) := presetI c x (exactOf a.um) (gainFrom a.rec'.stages (s + 1)) m; ({ st with i := i }, b))
        else (st, false)
      let drive := c.getD 1 0 * valueOf x.e m
      let hold := x.type == 1 && x.aw && ((decide (0 < drive) && a.limited == 1) || (decide (drive < 0) && a.limited == -1))
      let (st', y, sat', lim) := stageEval x c st m hold
      { states := modAt acc.states s fun _ => st',
        ins := acc.ins ++ [rat32 (valueOf x.e m)], outs := acc.outs ++ [rat32 (valueOf x.e y)],
        sat := acc.sat + (if sat || sat' then 2 ^ s else 0),
        limited := if x.type = 5 ∧ firstPi a.rec'.stages ≤ s ∧ lim ≠ 0 then lim else acc.limited,
        y := valueOf x.e y, bump := acc.bump || bump }
  | _, _ => acc

/-- The states an evaluation starts from: at the first one in AUTO the stages after PRESET are steady at u_m, and without a
PRESET stage every state is 0. -/
def startStates (a : EvalIn) (states : List StageSt) : List StageSt :=
  if !a.auto || !a.enter then states
  else if a.rec'.preset = 0xFF then states.map fun _ => {}
  else (List.range states.length).filterMap fun s =>
    match a.rec'.stages[s]?, states[s]? with
    | some x, some st => some (if a.rec'.preset < s then steady a.rec'.stages s (exactOf a.um) x st else st)
    | _, b => b

/-- MANUAL_VALUE clamped by every limiter after the PRESET stage (R469). -/
def manualOut (x : LoopRec) (v : Word) : Word :=
  (List.range x.stages.length).foldl (fun (w : Word) s =>
    match x.stages[s]? with
    | some st =>
      if st.type = 5 ∧ x.preset < s then
        (if (val32 w).lt (val32 (st.p.getD 0 0)) then st.p.getD 0 0
         else if (val32 (st.p.getD 1 0)).lt (val32 w) then st.p.getD 1 0 else w)
      else w
    | none => w) v

/-- An evaluation: the stages' result and OUT. -/
def evalLoop (a : EvalIn) (states : List StageSt) : Eval × Word :=
  let x := (List.range a.rec'.stages.length).foldl (evalStage a) { states := startStates a states }
  let out := if a.auto then rat32 x.y else manualOut a.rec' a.um
  let out := match a.inject with | some (8, w) => add32 out w | _ => out
  (x, out)

/-! ### Modes (R471) -/

/-- A loop changes its mode: TRANSFERS, EV_MLR_MODE, the mirror; in MANUAL an injection into a stage that is no longer evaluated
stops (R472). -/
def Run.mlrMode (r : Run) (l : Nat) (auto : Bool) (cause : Nat) : Run :=
  match r.loop l with
  | none => r
  | some x =>
    if x.auto = auto then r
    else
      let stops : Bool := !auto && match x.inject with | some i => decide (i.stage < 8) && decide (x.record.preset ≤ i.stage) | none => false
      let b (v : Bool) : Int := if v then 1 else 0
      let r := (r.modLoop l fun x => { x with
        auto := auto, enter := auto, inject := if stops then none else x.inject, stat := tabInc x.stat 5 }).mlrEvent l .mlrMode
          [b x.auto, b auto, cause]
      let r := if stops then r.mlrEvent l .mlrCapture [0xFF, 2] else r
      if cause = 5 then r else r.noteMirror (.loopMode l)

/-- MANUAL_VALUE takes a value; a change that does not come from the mirror is mirrored (R495). -/
def Run.mlrManual (r : Run) (l : Nat) (v : Word) (own : Bool) : Run :=
  match r.loop l with
  | none => r
  | some x =>
    let r := r.modLoop l fun x => { x with manual := v }
    if own && v != x.manual then r.noteMirror (.loopMode l) else r

/-- The requests received since the last evaluation take effect: one to MANUAL by fallback overrides, else the last stands. -/
def Run.mlrRequests (r : Run) (l : Nat) : Run :=
  match r.loop l with
  | none => r
  | some x =>
    match (x.reqs.find? fun q => !q.auto && (q.cause == 3 || q.cause == 4)).or x.reqs.getLast? with
    | none => r
    | some q =>
      let r := (r.modLoop l fun x => { x with reqs := [] }).mlrMode l q.auto q.cause
      match q.value with
      | some v => if q.auto then r else r.mlrManual l v (q.cause != 5)
      | none => r

/-! ### Injection and capture (R472, R473) -/

/-- w[n] of a running injection, and the injection after it.
DESIGN CHOICE, assumption 76: unsafe. -/
def Inject.next (i : Inject) (gridQ : Bool) : Word × Inject :=
  let w : Word := match i.kind with
    | 0 => i.a
    | 1 => narrow (mul64 (widen i.a) (Config.sin i.phase))
    | _ => if Config.prbsBit i.order i.lfsr then i.a else neg32 i.a
  let frac : Word64 := if i.len ≤ 1 then 0 else rat64 ((i.n : Rat) / (i.len - 1 : Nat))
  let f := mul64 (widen i.fStart) (Config.pow (div64 (widen i.fEnd) (widen i.fStart)) frac)
  let phase := add64 i.phase (mul64 (mul64 (mul64 (rat64 2) pi64) f) (gridPeriod gridQ))
  let lfsr := if i.kind = 2 ∧ (i.n + 1) % (max 1 i.hold) = 0 then Config.prbsNext i.order i.lfsr else i.lfsr
  (w, { i with n := i.n + 1, phase := if i.kind = 1 then phase else i.phase, lfsr := lfsr })

/-- The injection of a loop at an evaluation of grid tick `tick`: w, and the loop's injection after it.
DESIGN CHOICE, assumption 76: unsafe. -/
def LoopSt.injectAt (x : LoopSt) (tick : Nat) : Option (Nat × Word) × Option Inject :=
  match x.inject with
  | none => (none, none)
  | some i =>
    if tick < i.tick then (none, some i)
    else
      let (w, i') := i.next x.record.gridQ
      (some (i.stage, w), if i'.n < i'.len then some i' else none)

/-- A signal of a capture. -/
def LoopSt.signal (x : LoopSt) (code : Nat) : Word :=
  if code < 8 then x.ins.getD code 0
  else if code < 16 then x.outs.getD (code - 8) 0
  else if code = 16 then x.ref else if code = 17 then x.fb else x.out

/-- The captures of a loop take a point for the evaluation of grid tick `tick`: its TICK holds the tick in the second and the low bits
of the second (Table 8.2).
DESIGN CHOICE, assumption 76: unsafe. -/
def Run.mlrCapture (r : Run) (l tick : Nat) (missed : Bool) (w : Option (Nat × Word)) : Run :=
  match r.loop l with
  | none => r
  | some x =>
    (List.range 4).foldl (fun (r : Run) c =>
      match r.mlr.caps[c]? with
      | some s =>
        if !s.busy ∨ s.loop ≠ l ∨ tick < s.tick then r
        else
          let flags := (if missed then 1 else 0) + (if w.isSome then 2 else 0) + 4 * x.sat + 1024 * (x.limited + 1).toNat
          let inSecond := if x.record.gridQ then tick % 14400 + tick / 14400 % 4 * 2 ^ 14 else tick % 4800 + tick / 4800 % 8 * 2 ^ 13
          let p : CapPoint := { a := x.signal s.sigA, b := x.signal s.sigB, tick := inSecond, flags := flags, w := (w.map (·.2)).getD 0 }
          let full := decide (s.len ≤ s.points.length + 1)
          let r := r.modMlr fun y => { y with
            caps := modAt y.caps c fun s => { s with points := s.points ++ [p], busy := !full, done := full } }
          if full then r.mlrEvent l .mlrCapture [c, 1] else r
      | none => r) r

/-! ### Destinations (R467) -/

/-- OUT in a CAN field: nearest even, saturated to the width as two's complement (a field of one bit holds 0 or 1). A NaN has no
stated number: `free` stands there.
DESIGN CHOICE, assumption 76: unsafe. -/
def canValue (free : Nat) (width : Nat) (v : Word) : Nat :=
  if isNan32 v then free % 2 ^ width
  else if width = 1 then bitsOfInt 1 (quantise v 0 0 1).1
  else bitsOfInt width (quantise v 0 (-(2 ^ (width - 1))) (2 ^ (width - 1) - 1)).1

/-- A failed write of a destination (R467, Table 13.7). -/
def Run.mlrOutFail (r : Run) (l d : Nat) : Run :=
  match r.loop l with
  | none => r
  | some x =>
    let r := r.mlrCount l 4
    let at' := r.now
    let quiet : Bool := match x.failAt with | some t => decide (at' < t + 100000000) | none => false
    if quiet then r.modLoop l fun x => { x with failSince := x.failSince + 1 }
    else (r.modLoop l fun x => { x with failSince := 0, failAt := some at' }).mlrEvent l .mlrOutFail [d, (x.failSince + 1) % 65536]

/-- The destinations of a loop are written at a commit; then the commit requests each buffer that it has written (R601). -/
def Run.mlrWrite (r : Run) (l : Nat) (out : Word) : Run :=
  match r.loop l with
  | none => r
  | some x =>
    let r' := (List.range x.record.dests.length).foldl (fun (r : Run) d =>
      match x.record.dests[d]? with
      | some (LoopDest.sv s m) =>
        (match (r.svDev x.inst s).bind fun p => r.svMember p m out false with | some r' => r' | none => r)
      | some (LoopDest.can f) =>
        if r.canBlocked f.chan f.buffer then r.mlrOutFail l d
        else
          let free := (Config.freeValue 32 r.free).toNat
          let r := { r with free := r.free + 1 }
          r.canWrite f.chan f.buffer f.byte f.bit f.width (canValue free f.width out)
      | _ => r) r
    let bufs := (x.record.dests.filterMap fun d => match d with | .can f => some (f.chan, f.buffer) | _ => none).eraseDups
    (bufs.filter fun b => !r.canBlocked b.1 b.2).foldl (fun (r : Run) b => r.canRequest b.1 b.2 false) r'

/-- The SV members of a loop that has missed are marked questionable with oldData. -/
def Run.mlrOld (r : Run) (l : Nat) : Run :=
  match r.loop l with
  | none => r
  | some x =>
    x.record.dests.foldl (fun (r : Run) d =>
      match d with
      | .sv s m => (match (r.svDev x.inst s).bind fun p => r.svMember p m x.out true with | some r' => r' | none => r)
      | _ => r) r

/-- The tick of a stream's grid that a grid tick of a loop is: three Q ticks make a P tick, and a Q tick between two P ticks is none of
them (R486, R487).
DEDUCED, assumption 86: unsafe. -/
def streamTick (loopQ streamQ : Bool) (tick : Nat) : Option Nat :=
  if loopQ = streamQ then some tick
  else if streamQ then some (3 * tick)
  else if tick % 3 = 0 then some (tick / 3) else none

/-- A loop has ended its job for a tick: a stream whose loops all have is released (R487). -/
def Run.mlrEnded (r : Run) (l tick : Nat) : Run :=
  match r.loop l with
  | none => r
  | some x =>
    (x.record.dests.filterMap fun d => match d with | .sv s _ => r.svDev x.inst s | _ => none).eraseDups.foldl (fun (r : Run) p =>
      match (r.svPub p).bind fun v => (streamTick x.record.gridQ v.record.gridQ tick).map fun k => (v, k) with
      | none => r
      | some (v, tick) =>
        let writers := (r.mlr.loops.filter fun e => e.2.inst == x.inst && e.2.record.dests.any fun d =>
          match d with | .sv s _ => s == v.index | _ => false).map (·.1)
        let ended := setIns (if v.tick = tick then v.ended else []) l
        let r := r.modSv p fun v => { v with ended := ended, tick := tick }
        if writers.all (ended.contains ·) then r.svRelease p tick else r) r

/-! ### The ends of a job (R465, R466) -/

/-- A miss of the job of grid tick `tick` (R466).
DESIGN CHOICE, assumption 76: unsafe. -/
def Run.mlrMiss (r : Run) (l tick : Nat) (w : Option (Nat × Word)) : Run :=
  match r.loop l with
  | none => r
  | some x =>
    let at' := r.now
    let quiet : Bool := match x.missAt with | some t => decide (at' < t + 100000000) | none => false
    let run := x.missRun + 1
    let falls := decide (0 < x.record.fallback) && decide (run = x.record.fallback)
    let r := r.modLoop l fun x => { x with
      missed := true, missRun := run, snap := none, stat := tabInc x.stat 1,
      missSince := if quiet then x.missSince + 1 else 0, missAt := if quiet then x.missAt else some at',
      reqs := if falls then x.reqs ++ [{ auto := false, cause := 3, value := some x.out }] else x.reqs }
    let r := if quiet then r else r.mlrEvent l .mlrMiss [(x.missSince + 1) % 65536]
    ((r.mlrOld l).mlrCapture l tick true w).mlrEnded l tick

/-- The value and validity an input of a loop has for the job of P tick `k`, and the free values used (R467, Table 10.2). -/
def Run.mlrInput (r : Run) (n k : Nat) (i : Input) (last : Word) : Run × InVal :=
  match i.src with
  | .chan s =>
    match r.cfl.pOut s k with
    | some o => (r, InVal.accepted { value := o.value, re := o.value, q := o.quality } i)
    | none => let (v, r) := r.takeFree 32; (r, { value := v, q := 1 })
  | _ => (r, r.readInput n i last)

/-- A job of a loop starts: the mode requests received so far take effect (R471), and REF and FB are read (R467). -/
def Run.mlrStart (r : Run) (l k : Nat) : Run :=
  let r := r.mlrRequests l
  match r.loop l with
  | none => r
  | some x =>
    let (r, a) : Run × InVal := match x.record.ref with
      | none => (r, { value := x.refVar })
      | some i => r.mlrInput x.inst k i (tabGetD x.lastIn 0 0)
    let (r, b) := r.mlrInput x.inst k x.record.fb (tabGetD x.lastIn 1 0)
    r.modLoop l fun x => { x with
      snap := some ((a.value, a.invalid), (b.value, b.invalid)),
      lastIn := tabSet (if a.subst then x.lastIn else tabSet x.lastIn 0 a.value) 1 (if b.subst then tabGetD x.lastIn 1 0 else b.value) }

/-- The deadline of a job of grid tick `tick` (R459, R465). -/
def LoopSt.deadline (x : LoopSt) (hMicros tick : Nat) : Rat :=
  qInstant (if x.record.gridQ then tick else 3 * tick) + (hMicros : Rat) * 1000 + (x.record.dl : Rat)

/-- An evaluation is committed: its states, OUT and variables, its destinations (R465). -/
def Run.mlrCommit (r : Run) (l tick : Nat) (ref fb : Word) (w : Option (Nat × Word)) : Run :=
  match r.loop l with
  | none => r
  | some x =>
    let err := sub32 ref fb
    let free := (Config.freeValue 24 r.free).toInt
    let r := { r with free := r.free + 1 }
    let um := if x.auto ∧ x.enter then x.out else x.manual
    let a : EvalIn := { rec' := x.record, auto := x.auto, enter := x.enter, um := um, limited := x.limited, err := err, inject := w, free := free }
    let (e, out) := evalLoop a x.stages
    let r := r.modLoop l fun x => { x with
      stages := e.states, out := out, ref := ref, fb := fb, err := err, sat := e.sat, limited := e.limited, ins := e.ins, outs := e.outs,
      enter := false, missed := false, missRun := 0, snap := none, stat := tabInc x.stat 0 }
    let r := if x.auto then r.mlrManual l out true else r
    let r := if e.sat ≠ 0 then r.mlrCount l 2 else r
    let r := if e.bump then r.mlrCount l 6 else r
    ((r.mlrWrite l out).mlrCapture l tick false w).mlrEnded l tick

/-- The job of grid tick `tick` of a loop ends in Millrace (R465 to R467). An invalid input with INV_MODE 1 enters MANUAL at once, and
overrides the requests that still wait (R471). -/
def Run.mlrEvaluate (r : Run) (l tick : Nat) : Run :=
  match r.loop l with
  | none => r
  | some x =>
    let (w, inject) := x.injectAt tick
    let r := r.modLoop l fun x => { x with inject := inject }
    match x.snap with
    | none => r
    | some ((ref, badRef), (fb, badFb)) =>
      if x.deadline (r.cfl.h x.inst) tick < r.nowExact then r.mlrMiss l tick w
      else if badRef || badFb then
        let r := r.mlrCount l 3
        if x.record.toManual then
          ((r.modLoop l fun x => { x with reqs := x.reqs ++ [{ auto := false, cause := 4 }] }).mlrRequests l).mlrCommit l tick ref fb w
        else (r.modLoop l fun x => { x with snap := none }).mlrEnded l tick
      else r.mlrCommit l tick ref fb w

/-- The grid tick of a loop's job. -/
def LoopSt.tickOf (x : LoopSt) (f : Flight) : Nat := if x.record.gridQ then f.q else f.tick

/-- A job of a loop that Sluice aborts, drops or cancels is a miss for its tick (R465). -/
def Run.mlrLost (r : Run) (f : Flight) : Run :=
  if f.cls ≠ 2 then r
  else match (r.slcOf f.inst).g.nodes[f.node]? with
    | none => r
    | some g =>
      match r.loopDev f.inst g.op with
      | some l => (match r.loop l with | some x => r.mlrMiss l (x.tickOf f) none | none => r)
      | none => r

/-! ### Loop variables (Table 13.5) -/

/-- A loop variable. -/
def LoopSt.var (x : LoopSt) (k : Nat) : Word :=
  match k with
  | 0 => if x.record.ref.isNone then x.refVar else x.ref
  | 1 => x.fb | 2 => x.err | 3 => x.out | 4 => x.manual
  | 5 => if x.auto then 1 else 0
  | 6 => if x.auto then 1 else 0
  | 7 => if x.missed then 1 else 0
  | _ => BitVec.ofInt 32 x.limited

/-- A CLE output writes a loop variable: REF, MANUAL_VALUE outside AUTO, MODE_REQ where its value differs from the last one the
binding wrote (R469, R471). -/
def Run.mlrSetVar (r : Run) (l k : Nat) (v : Word) (changed : Bool) : Run :=
  match k with
  | 0 => r.modLoop l fun x => { x with refVar := v }
  | 4 => match r.loop l with | some x => if x.auto then r else r.mlrManual l v true | none => r
  | 5 => if changed then r.modLoop l fun x => { x with reqs := x.reqs ++ [{ auto := v != 0, cause := 2 }] } else r
  | _ => r

/-- A loop as it starts: every state 0, MANUAL_INIT, INIT_MODE (R464, R471). A loop that starts in AUTO leaves no MANUAL, and is
not preset.
DESIGN CHOICE, assumption 76: unsafe. -/
def LoopSt.started (x : LoopSt) : LoopSt :=
  { inst := x.inst, index := x.index, record := x.record, auto := x.record.initAuto,
    out := x.record.manualInit, manual := x.record.manualInit, stages := x.record.stages.map fun _ => {},
    missAt := x.missAt, failAt := x.failAt, stat := x.stat }

/-- The loops of an instance that enters ACTIVE start. -/
def Run.mlrStartInst (r : Run) (n : Nat) : Run :=
  r.modMlr fun y => { y with loops := y.loops.map fun (e : Nat × LoopSt) => if e.2.inst = n then (e.1, e.2.started) else e }

/-! ### Records and commits (R457 to R459, R464, R468, R470, R474) -/

/-- A parameter is a number in a closed range. -/
def within (w : Word) (lo hi : Rat) : Bool := match val32 w with | .fin _ q => decide (lo ≤ q) && decide (q ≤ hi) | _ => false

/-- A value lies in the range of a stage. -/
def inStage (e : Int) (w : Word) : Bool := within w (-(pow2 e)) (pow2 e - lsbOf e)

/-- A stage meets the rules of R464. -/
def stageOk (rate : Nat) (x : Stage) : Bool :=
  let p (i : Nat) : Word := x.p.getD i 0
  match x.type with
  | 1 => inStage x.e (p 2) && inStage x.e (p 3)
  | 2 => within (p 2) 1 (45 / 100 * rate) && within (p 3) (1 / 100) (exactOf (p 2))
  | 3 => within (p 1) 0 10 && within (p 2) 0 10
  | 4 => true
  | 5 => inStage x.e (p 0) && inStage x.e (p 1) && (val32 (p 0)).le (val32 (p 1))
  | 6 => (FVal.fin false 0).lt (val32 (p 0)) && (FVal.fin false 0).lt (val32 (p 1))
  | _ => false

/-- PRESET names a PI stage whose later lead-lags and biquads have a finite DC gain other than 0 (R470).
DESIGN CHOICE, assumption 28: safe. -/
def presetOk (x : LoopRec) : Bool :=
  x.preset == 0xFF || (match x.stages[x.preset]? with | some s => s.type == 1 | none => false) &&
    (x.stages.drop (x.preset + 1)).all fun s =>
      (s.type != 3 && s.type != 4) || match dcGain s with | some g => g != 0 | none => false

/-- The fields of a record that have a range of their own (Table 13.4, R459, R461). -/
def loopRanges (x : LoopRec) : Bool :=
  decide (1 ≤ x.stages.length) && decide (x.stages.length ≤ 8) && decide (x.dests.length ≤ 4) && decide (x.fallback < 256) &&
    decide (25000 ≤ x.dl) && decide (x.dl ≤ if x.gridQ then 69444 else 1000000) &&
    x.stages.all fun s => decide (-64 ≤ s.e) && decide (s.e ≤ 63)

/-- What MLR_LOOP_SET answers for a record (R464, R470).
DESIGN CHOICE, assumption 76: unsafe. -/
def loopDefect (x : LoopRec) : Option Status :=
  if !loopRanges x then some .range
  else if !(x.stages.all (stageOk (if x.gridQ then 14400 else 4800))) ∨ !presetOk x then some .mlrLoop
  else none

/-- The loops an instance would have after a commit, by index. -/
def Run.loopView (r : Run) (n : Nat) : List (Nat × LoopRec) :=
  (List.range 64).filterMap fun i =>
    match tabGet r.mlr.staged (64 * n + i) with
    | some x => x.map fun y => (i, y)
    | none => (r.loopDev n i).bind fun l => (r.loop l).map fun x => (i, x.record)

/-- A loop's node and binding as R458 wants them. -/
def loopNodeOk (g : Graph) (k : Nat) (n : GNode) (x : LoopRec) : Bool :=
  let hits := g.binds.filter fun b => (edgesOf g b.edges).any fun e => e.node == k
  n.unit == 0 && !n.any &&
    (List.range g.nodes.length).all (fun j => match g.nodes[j]? with
      | some y => !(edgesOf g y.edges).any fun e => e.node == k
      | none => true) &&
    match hits with
    | [b] => b.kind == (if x.gridQ then 2 else 1) && b.param == 1
    | _ => false

/-- The loop nodes of a graph and the loops belong together. -/
def loopsArranged (g : Graph) (loops : List (Nat × LoopRec)) : Bool :=
  let nodes := (List.range g.nodes.length).filterMap fun k => match g.nodes[k]? with | some n => if n.cls = 2 then some (k, n) else none | none => none
  loops.all (fun l => (nodes.filter fun e => e.2.op == l.1).length == 1) &&
    nodes.all fun e => match loops.find? fun l => l.1 == e.2.op with
      | some l => loopNodeOk g e.1 e.2 l.2
      | none => false

/-- A CAN field of 1 to 32 bits in a transmit buffer of an instance. -/
def Run.ownsField (r : Run) (n : Nat) (f : CanField) : Bool :=
  decide (1 ≤ f.width) && decide (f.width ≤ 32) && match r.canBuf f.chan f.buffer with
    | some x => x.record.inst == n && x.record.tx && decide (8 * f.byte + f.bit + f.width ≤ 8 * dlcLength x.record.fdf x.record.dlc)
    | none => false

/-- The CAN fields that loops write. -/
def fieldsOf (x : LoopRec) : List CanField := x.dests.filterMap fun d => match d with | .can f => some f | _ => none

/-- Why a commit of an instance is refused by Millrace; `r` holds the publications as the commit would leave them, `cans` the CAN
fields that the CLE outputs of the instance write. -/
def Run.mlrRefuses (r : Run) (n : Nat) (g : Graph) (cans : List CanField) : Option Status :=
  let loops := r.loopView n
  let others := (r.mlr.loops.filter fun e => e.2.inst != n).length
  let fields := loops.flatMap fun l => (fieldsOf l.2).map fun f => (l.1, f)
  let svOk (s m : Nat) : Bool := match (r.svDev n s).bind fun d => r.svPub d with
    | some x => decide (m < x.record.scales.length)
    | none => false
  let owned := loops.all fun l => l.2.dests.all fun d => match d with
    | .none => true | .sv s m => svOk s m | .can f => r.ownsField n f
  let twice := fields.any fun e => (fields.any fun h => h.1 != e.1 && e.2 == h.2) || cans.contains e.2
  if 64 < others + loops.length then some .mlrFull
  else if !loopsArranged g loops then some .mlrLoop
  else if !owned || twice then some .mlrDest
  else none

/-- The lowest loop number that is free (R457); a commit that passes leaves one for every loop it adds. -/
def Millrace.freeNo (x : Millrace) : Option Nat := (List.range 64).find? fun k => (tabGet x.loops k).isNone

/-- A loop as it is created; one of an ACTIVE instance starts at once. -/
def newLoop (n i : Nat) (x : LoopRec) : LoopSt :=
  LoopSt.started { inst := n, index := i, record := x }

/-- A capture whose loop is deleted ends with the points it holds.
DESIGN CHOICE, assumption 76: unsafe. -/
def Capture.without (gone : Nat → Bool) (c : Capture) : Capture := if c.busy && gone c.loop then { c with busy := false } else c

/-- The staged loop records of an instance become committed: loops that go free their numbers first, and a loop whose record changes
starts again. -/
def Run.mlrPut (r : Run) (n : Nat) : Run :=
  let r := (List.range 64).foldl (fun (r : Run) i =>
    match tabGet r.mlr.staged (64 * n + i), r.loopDev n i with
    | some none, some l => r.modMlr fun y => { y with
        loops := tabDel y.loops l, caps := y.caps.map (Capture.without fun k => k == l) }
    | _, _ => r) r
  let r := (List.range 64).foldl (fun (r : Run) i =>
    match tabGet r.mlr.staged (64 * n + i), r.loopDev n i with
    | some (some x), some l => r.modLoop l fun z => if z.record = x then z else { newLoop n i x with stat := z.stat }
    | some (some x), none => r.modMlr fun y =>
        match y.freeNo with | some l => { y with loops := tabSet y.loops l (newLoop n i x) } | none => y
    | _, _ => r) r
  r.modMlr fun y => { y with staged := y.staged.filter fun e => e.1 / 64 != n }

/-- What Millrace holds of an instance is removed with it, its captures too.
DESIGN CHOICE, assumption 76: unsafe. -/
def Run.mlrDestroy (r : Run) (n : Nat) : Run :=
  r.modMlr fun y => { y with
    caps := y.caps.map fun (c : Capture) => if c.inst = n then {} else c,
    loops := y.loops.filter fun e => e.2.inst != n, staged := y.staged.filter fun e => e.1 / 64 != n }

/-- The chain that admission adds for each loop (R459). -/
def loopChains (g : Graph) (loops : List (Nat × LoopRec)) : List GChain :=
  loops.filterMap fun l =>
    ((List.range g.nodes.length).find? fun k => match g.nodes[k]? with | some n => n.cls == 2 && n.op == l.1 | none => false).bind fun k =>
      ((List.range g.binds.length).find? fun b => match g.binds[b]? with | some x => (g.heads x).contains k | none => false).map fun b =>
        { ident := 65536 + l.1, bind := b, last := k, deadline := l.2.dl - 20000 }

/-! ### The cost of a job (R460) -/

/-- The cost of a stage in Millrace cycles (Table 13.2). -/
def stageCost (type : Nat) : Nat := match type with | 1 => 12 | 2 => 20 | 3 => 14 | 4 => 20 | 5 => 4 | _ => 6

/-- The cost of a loop's job. -/
def loopCost (x : LoopRec) : Nat := 32 + (x.stages.map fun s => stageCost s.type).sum + 6 * (x.dests.filter fun d => d != .none).length

end Sys2Proof.Machine
end

