-- ==== Sys2Proof/Machine/CleOps.lean ====
section
/-! DEFINITION. Tasks of the CLE: images, inputs, outputs, cycles, modes, starts and checkpoints (R420 to R452). -/

namespace Sys2Proof

/-! ### Images -/

/-- Bytes of a variable record: its elements (Table 12.2). -/
def CleVar.size (v : CleVar) : Nat := Machine.cleSize v.type * v.count

/-- Units of CLE memory of a task (R429). -/
def CleTask.units (t : CleTask) : Nat := (t.code.length + 63) / 64 + t.vaLen + (16 * t.binds.length + 255) / 256

/-- Units of an image. -/
def CleImage.units (x : CleImage) : Nat := (x.tasks.map (·.units)).sum

/-- Task `i` of an image. -/
def CleImage.task (x : CleImage) (i : Nat) : Option CleTask := x.tasks.find? fun t => t.index == i

/-- The variable declared at an address. -/
def CleTask.varAt (t : CleTask) (a : Nat) : Option CleVar := t.vars.find? fun v => v.addr == a

/-- A variable of a type starts at an address. -/
def CleTask.declares (t : CleTask) (a type : Nat) : Bool :=
  match t.varAt a with | some v => v.type == type | none => false

/-- A store of TIME names PT of a timer, at offset 0; a load of TIME its ET, at offset 8. -/
def CleTask.timerField (t : CleTask) (a : Nat) (store : Bool) : Bool :=
  let timer (b : Nat) : Bool := match t.varAt b with | some v => decide (0x10 ≤ v.type) && decide (v.type ≤ 0x12) | none => false
  if store then timer a else decide (8 ≤ a) && timer (a - 8)

/-- An instruction word meets R432. -/
def CleTask.wordOk (t : CleTask) (w : Word) : Bool :=
  let x := Machine.cleWord w
  field' w && match x.opc with
    | 0x0A | 0x0B => t.declares x.imm 3 || t.declares x.imm 6
    | 0x1F | 0x20 | 0x21 => decide (x.imm % 8 ≤ 5)
    | 0x22 => decide (x.imm < 16)
    | 0x27 | 0x28 | 0x29 => decide (x.imm < t.code.length)
    | 0x2A => t.declares x.imm 0x10
    | 0x2B => t.declares x.imm 0x11
    | 0x2C => t.declares x.imm 0x12
    | 0x2D => t.declares x.imm 0x13
    | 0x2E => t.declares x.imm 0x14
    | 0x2F => decide (x.imm ≤ 3)
    | n =>
      if 0x02 ≤ n ∧ n ≤ 0x09 then
        t.declares x.imm (Machine.cleTypeOf n) || (Machine.cleTypeOf n == 7 && t.timerField x.imm (decide (6 ≤ n)))
      else decide (n ≤ 0x2F)
where
  /-- The reserved bits are 0. -/
  field' (w : Word) : Bool := Machine.field w.toNat 17 16 == 0

/-- A binding record that Table 12.6 and the DIR column of Table 12.7 allow.
DESIGN CHOICE, assumption 75: unsafe. -/
def CleTask.bindOk (t : CleTask) (b : CleBind) : Bool :=
  let value := b.type == 1 || b.type == 3 || b.type == 6
  value && t.declares b.addr b.type &&
    (if b.out then [1, 4, 5, 7, 8].contains b.kind
     else decide (b.kind ≤ 6) && (b.valid == 0xFFFF || t.declares b.valid 1))

/-- A variable record in its ranges (R426, R448). -/
def CleTask.varOk (t : CleTask) (v : CleVar) : Bool :=
  let size := Machine.cleSize v.type
  size != 0 && decide (1 ≤ v.count) && decide (v.count ≤ 16384) && v.addr % Machine.cleAlign v.type == 0 &&
    decide (v.addr + size * v.count ≤ 256 * t.vaLen) && (!v.mirror || v.retain) &&
    (t.vars.filter fun x => x.addr == v.addr).length == 1

/-- A task of an image that CLE_PROG_LOAD takes (R432). -/
def CleTask.ok (t : CleTask) : Bool :=
  decide (t.index < 256) && decide (t.engine < 4) && decide (1 ≤ t.vaLen) && decide (t.vaLen ≤ 256) &&
    t.vars.all t.varOk && t.binds.all t.bindOk && t.code.all t.wordOk &&
    match t.code.getLast? with
    | some w => (Machine.cleWord w).opc == 1 || (Machine.cleWord w).opc == 0x27
    | none => false

/-- An image that CLE_PROG_LOAD takes: each index stands once. -/
def CleImage.ok (x : CleImage) : Bool :=
  x.tasks.all (·.ok) && (x.tasks.map (·.index)).eraseDups.length == x.tasks.length

/-- A variable put into a list that is in VA order. -/
def inVaOrder (v : CleVar) : List CleVar → List CleVar
  | [] => [v]
  | a :: t => if v.addr < a.addr then v :: a :: t else a :: inVaOrder v t

/-- The RETAIN bytes of a task's VA: the addresses, in VA order. -/
def CleTask.retainAddrs (t : CleTask) : List Nat :=
  ((t.vars.filter (·.retain)).foldr inVaOrder []).flatMap fun v => (List.range v.size).map (v.addr + ·)

/-- The bytes of a VA at some addresses. -/
def vaOnly (va : Tab Nat) (addrs : List Nat) : Tab Nat := va.filter fun e => addrs.contains e.1

/-- A VA that takes the bytes at some addresses from another. -/
def vaKeep (va other : Tab Nat) (addrs : List Nat) : Tab Nat :=
  addrs.foldl (fun (t : Tab Nat) a => Machine.tabPut t a (Machine.tabGetD other a 0) 0) va

/-! ### Online exchange (R449 to R451) -/

/-- The pairs of variables that are carried: VAR_ID, TYPE and COUNT match. -/
def carried (old new : CleTask) : List (CleVar × CleVar) :=
  new.vars.filterMap fun v =>
    (old.vars.find? fun o => o.ident == v.ident && o.type == v.type && o.count == v.count).map fun o => (o, v)

/-- The bytes carried. -/
def carriedBytes (old new : CleTask) : Nat := ((carried old new).map fun e => e.2.size).sum

/-- The copy cost in engine cycles (R451). -/
def copyCost (bytes : Nat) : Nat := 16 + (bytes + 31) / 32

/-- The copy list executed. -/
def copyVa (old new : CleTask) (from' into : Tab Nat) : Tab Nat :=
  (carried old new).foldl (fun (t : Tab Nat) e =>
    (List.range e.2.size).foldl (fun (t : Tab Nat) k => Machine.tabPut t (e.2.addr + k) (Machine.tabGetD from' (e.1.addr + k) 0) 0) t) into

/-- The VA of a new task: its image, with FIRST set in every edge detector that is not carried (R450). -/
def preparedVa (old : Option CleTask) (new : CleTask) : Tab Nat :=
  let kept : List Nat := match old with | some o => (carried o new).map (·.2.addr) | none => []
  (new.vars.filter fun v => (v.type == 0x13 || v.type == 0x14) && !kept.contains v.addr).foldl (fun (t : Tab Nat) v =>
    (List.range v.count).foldl (fun (t : Tab Nat) k => Machine.tabPut t (v.addr + k) (Machine.tabGetD t (v.addr + k) 0 % 2 + 2) 0) t) new.init

end Sys2Proof

namespace Sys2Proof.Machine

/-! ### The task node (R421) -/

/-- The binding of a task's node. -/
def taskBind (g : Graph) (i : Nat) : Option GBind :=
  ((List.range g.nodes.length).find? fun k => match g.nodes[k]? with | some n => n.cls == 3 && n.op == i | none => false).bind fun k =>
    g.binds.find? fun b => (g.heads b).contains k

/-- The cycle time of a task in ns (R421); the longest where its graph does not bind it.
DESIGN CHOICE, assumption 74: unsafe. -/
def cycleTime (g : Graph) (i : Nat) : Rat :=
  match taskBind g i with
  | some b => if b.kind = 1 then (b.param : Rat) * 625000 / 3 else if b.kind = 2 then (b.param : Rat) * 625000 / 9 else 10000000000
  | none => 10000000000

/-- T_c of a job in whole ns (R422): the grid instant of the tick whose flag released it. -/
def cycleInstant (g : Graph) (i : Nat) (f : Flight) : Nat :=
  match taskBind g i with
  | some b => if b.kind = 2 then (qInstant f.relQ).floor.toNat else (pInstant f.relTick).floor.toNat
  | none => (pInstant f.relTick).floor.toNat

/-! ### Inputs (R424, R437, Table 12.7) -/

/-- A 32-bit word in the type of a binding: BOOL takes whether it is 0.
DESIGN CHOICE, assumption 74: unsafe. -/
def asType (type : Nat) (w : Word) : Word := if type = 1 then (if w = 0 then 0 else 1) else w

/-- A binary32 value in the type of a binding: INT32 takes the nearest whole number, and `free` for a NaN.
DESIGN CHOICE, assumption 74: unsafe. -/
def fromReal (free : Word) (type : Nat) (w : Word) : Word :=
  if type = 1 then (if (val32 w).eq (.fin false 0) then 0 else 1)
  else if type = 3 then (if isNan32 w then free else realToInt w)
  else w

/-- A field of a reference. -/
def CleRef (ref h l : Nat) : Nat := field ref h l

/-- The CAN field a reference names (Table 12.7, kind 0x04): channel, buffer, byte, bit, width. -/
def canRef (ref : Nat) : CanField :=
  { chan := field ref 1 0, buffer := field ref 8 2, byte := field ref 14 9, bit := field ref 17 15, width := field ref 23 18 + 1 }

/-- The source of an input as the input phase reads it: its value in the binding's type, and whether it is valid. A data point is
invalid while no GOOSE member that feeds it is VALID.
DESIGN CHOICE, assumption 74: unsafe. -/
def Run.cleSource (r : Run) (n : Nat) (b : CleBind) : Word × Bool :=
  match b.kind with
  | 0 =>
    match tabGet r.ing.goose (field b.ref 15 0) with
    | some sub => (asType b.type (BitVec.ofNat 32 (sub.words.getD (field b.ref 21 16) 0)), sub.valid)
    | none => (0, false)
  | 1 =>
    let p := field b.ref 16 0
    let fed := r.feeds p
    (asType b.type (BitVec.ofNat 32 (tabGetD r.ing.points p 0)), fed.isEmpty || fed.any (·.1))
  | 2 =>
    match ((r.slcOf n).nodes[field b.ref 15 0]?).bind fun s => s.out[field b.ref 23 16]? with
    | some e =>
      let v := e.asInput
      (fromReal (Config.freeValue 32 r.free) b.type v.value, !v.invalid)
    | none => (0, false)
  | 3 => (asType b.type (if (r.trip.bis.getD (field b.ref 4 0) {}).level then 1 else 0), true)
  | 4 =>
    let f := canRef b.ref
    match r.canInput f.chan f.buffer with
    | some s => (BitVec.ofNat 32 (canGet s.data f.byte f.bit f.width), true)
    | none => (0, false)
  | 5 =>
    match (r.loopDev n (field b.ref 5 0)).bind fun l => r.loop l with
    | some x => (asType b.type (x.var (field b.ref 9 6)), !x.missed)
    | none => (0, false)
  | _ =>
    match r.task n (field b.ref 7 0) with
    | some t => (BitVec.ofNat 32 (vaLoad t.va b.type (field b.ref 23 8)), decide (t.mode = .run) && !t.faulted)
    | none => (0, false)

/-- A release finds a cycle to run: in RUN, or in HOLD for a step (R445). -/
def TaskSt.wants (t : TaskSt) : Bool := t.mode == .run || (t.mode == .hold && t.step.isSome)

/-- A release runs a cycle, unless it is skipped (R442). -/
def TaskSt.runs (t : TaskSt) : Bool := t.wants && !t.skip

/-- The start of a cycle: CYCLE_NO is incremented (R422), and its input image read, by binding, once (R424). An empty job reads nothing. -/
def Run.cleImage (r : Run) (n i : Nat) : Run :=
  match r.task n i with
  | none => r
  | some t =>
    if !t.runs then r else
    let image := t.task.binds.map fun b => if b.out then (0, false) else r.cleSource n b
    { r with free := r.free + 1 }.modTask n i fun t => { t with image := some image, cycleNo := (t.cycleNo + 1) % 2 ^ 32 }

/-- What the input phase leaves (R437): the VA, the last valid values, and whether an input is substituted. -/
def inputPhase (t : TaskSt) (image : List (Word × Bool)) (va : Tab Nat) : Tab Nat × Tab Word × Bool :=
  (List.range t.task.binds.length).foldl (fun (acc : Tab Nat × Tab Word × Bool) k =>
    match t.task.binds[k]?, image[k]? with
    | some b, some (v, ok) =>
      if b.out then acc
      else
        let w : Word := if ok then v else if b.subst then b.safe else (tabGet t.last k).getD b.safe
        let va := vaStore acc.1 b.type b.addr w.toNat
        let va := if b.valid = 0xFFFF then va else vaStore va 1 b.valid (if ok then 1 else 0)
        (va, if ok then tabSet acc.2.1 k v else acc.2.1, acc.2.2 || !ok)
    | _, _ => acc) (va, t.last, false)

end Sys2Proof.Machine

namespace Sys2Proof

/-- The bindings of a direction. -/
def CleTask.ins (t : CleTask) : List CleBind := t.binds.filter fun b => !b.out

/-- See `CleTask.ins`. -/
def CleTask.outs (t : CleTask) : List CleBind := t.binds.filter fun b => b.out

/-- The cost of a phase over some bindings (Table 12.1). -/
def phaseCost (l : List CleBind) : Nat := 16 + 4 * l.length + 320 * (l.filter fun b => b.kind == 1).length

end Sys2Proof

namespace Sys2Proof.Machine

/-! ### A cycle (R422, R423) -/

/-- What executing a cycle gives: the VA, the last valid values, whether an input was substituted, the bytes carried by an
exchange, the cost in engine cycles, and how it ended. -/
structure CycleRes where
  va : Tab Nat
  last : Tab Word
  subst : Bool
  bytes : Option Nat
  cost : Nat
  fate : VmEnd
  deriving DecidableEq, Repr

/-- A cycle of a task from its input image; `budget` in engine cycles, T_c and the cycle time in ns. -/
def runCycle (t : TaskSt) (image : List (Word × Bool)) (budget tc time : Nat) : CycleRes :=
  let (va, bytes) : Tab Nat × Option Nat := match t.old with
    | some (o, oldVa) => (copyVa o t.task oldVa t.va, some (carriedBytes o t.task))
    | none => (t.va, none)
  let (va, last, subst) := inputPhase t image va
  let start := (match bytes with | some b => copyCost b | none => 0) + phaseCost t.task.ins
  let b (x : Bool) (k : Nat) : Nat := if x then k else 0
  let e : VmEnv :=
    { code := t.task.code, count := fun a => match t.task.varAt a with | some v => v.count | none => 0,
      tc := BitVec.ofNat 64 tc, cycleTime := time, cycleNo := t.cycleNo,
      flags := b t.first 1 + b t.warm 2 + b (t.faulted || t.skipped) 4 + b t.exchanged 8 + b subst 16 }
  let (m, fate) := if budget < start then ({ va := va, cost := budget }, VmEnd.overrun)
    else Vm.run e budget (phaseCost t.task.outs) (budget + 1) { va := va, cost := start }
  { va := m.va, last := last, subst := subst, bytes := bytes, cost := m.cost, fate := fate }

/-- The cycle of a task's running job, if one runs: its result. -/
def Run.cycleOf (r : Run) (n i : Nat) (f : Flight) : Option CycleRes :=
  match r.task n i with
  | none => none
  | some t =>
    let g := (r.slcOf n).g
    match t.image, g.nodes[f.node]? with
    | some image, some x => some (runCycle t image x.budget (cycleInstant g i f) ((cycleTime g i).floor.toNat))
    | _, _ => none

/-- The flight of a task's job while the engine executes it for the current GEN of its instance. -/
def Run.taskFlight (r : Run) (n i : Nat) : Option Flight :=
  r.slc.flights.find? fun f => f.inst == n && f.cls == 3 && f.phase == .executing && f.engine.isNone && f.gen == (r.inst n).gen &&
    match (r.slcOf n).g.nodes[f.node]? with | some x => x.op == i | none => false

/-- `cost` engine cycles have passed since the job reached the engine. -/
def Run.engineDone (r : Run) (f : Flight) (cost : Nat) : Bool :=
  decide (f.start * 4000 + clsDispatch 3 + cost * clsPeriod 3 ≤ r.ticks * 4000)

/-! ### Outputs (R438, R439, Table 12.7) -/

/-- A failed write: OUT_FAIL, and EV_CLE_OUT_FAIL at most once per binding in 100 ms (R439). -/
def Run.cleOutFail (r : Run) (n i k : Nat) : Run :=
  match r.task n i with
  | none => r
  | some t =>
    let at' := r.now
    let (since, last) : Nat × Option Instant := match tabGet t.outFail k with | some (c, a) => (c, some a) | none => (0, none)
    let quiet : Bool := match last with | some a => decide (at' < a + 100000000) | none => false
    let r := r.modTask n i fun t => { t with
      stat := tabInc t.stat 5, outFail := tabSet t.outFail k (if quiet then (since + 1, last.getD 0) else (0, at')) }
    if quiet then r else r.cleEvent n i .cleOutFail 2 [t.cycleNo, k, (since + 1) % 65536]

/-- The value of a member of a GOOSE publication that a binding of a type writes: a REAL32 as a node's element (R481), a BOOL
or INT32 as it stands. A member of type QUALITY takes VALIDITY good.
DESIGN CHOICE, assumption 27: unsafe. DESIGN CHOICE, assumption 74: unsafe. -/
def memberFrom (free : Nat) (member type : Nat) (v : Word) : Nat :=
  if member = 7 then 0
  else if type = 6 then memberOf free member v 0
  else if member = 1 then (if v = 0 then 0 else 1)
  else if member = 5 then (rat32 (v.toInt : Rat)).toNat
  else if member = 6 ∨ member = 2 then memberOf free member v 0
  else v.toNat

/-- One output binding written: none where the write fails. -/
def Run.cleWrite (r : Run) (n : Nat) (b : CleBind) (v : Word) (changed : Bool) : Option Run :=
  match b.kind with
  | 1 => some (r.modIng fun e => { e with points := tabPut e.points (field b.ref 16 0) v.toNat 0 })
  | 4 =>
    let f := canRef b.ref
    if r.canBlocked f.chan f.buffer then none else some (r.canWrite f.chan f.buffer f.byte f.bit f.width v.toNat)
  | 5 =>
    match r.loopDev n (field b.ref 5 0) with
    | some l => some (r.mlrSetVar l (field b.ref 9 6) v changed)
    | none => some r
  | 7 => r.soWrite (field b.ref 4 0) (v != 0)
  | _ =>
    match r.gooseDev n (field b.ref 8 0) with
    | none => none
    | some d =>
      let type := match r.goosePub d with | some x => x.record.members.getD (field b.ref 15 9) 0 | none => 0
      let free := (Config.freeValue 64 r.free).toNat
      { r with free := r.free + 1 }.gooseWrite d (field b.ref 15 9) (memberFrom free type b.type v)

/-- An output phase: every output binding from one image, then one transmission of each CAN buffer written (R438). `value` gives
a binding's value: from the VA, or SAFE. -/
def Run.outputPhase (r : Run) (n i : Nat) (value : CleBind → Word) : Run :=
  match r.task n i with
  | none => r
  | some t =>
    let (r, cans) := (List.range t.task.binds.length).foldl (fun (acc : Run × List (Nat × Nat)) k =>
      match t.task.binds[k]? with
      | none => acc
      | some b =>
        if !b.out then acc
        else
          let v := value b
          let changed := tabGet t.written k != some v
          match acc.1.cleWrite n b v changed with
          | none => (acc.1.cleOutFail n i k, acc.2)
          | some r' =>
            let r' := if b.kind = 5 then r'.modTask n i fun t => { t with written := tabSet t.written k v } else r'
            (r', if b.kind = 4 then acc.2 ++ [((canRef b.ref).chan, (canRef b.ref).buffer)] else acc.2)) (r, [])
    cans.eraseDups.foldl (fun (r : Run) c => r.canRequest c.1 c.2 false) r

/-- The SAFE value of every output binding is written as one output phase (R441, Table 12.8). -/
def Run.cleSafe (r : Run) (n i : Nat) : Run := r.outputPhase n i (·.safe)

/-- The pieces of MIRROR variables that differ between two VAs wait to be mirrored (R495). -/
def Run.mirrorVars (r : Run) (n i : Nat) (old new : Tab Nat) : Run :=
  match r.task n i with
  | none => r
  | some t =>
    (t.task.vars.filter (·.mirror)).foldl (fun (r : Run) v =>
      (List.range ((v.size + 239) / 240)).foldl (fun (r : Run) p =>
        let addrs := (List.range (min 240 (v.size - 240 * p))).map (v.addr + 240 * p + ·)
        if addrs.all fun a => tabGetD old a 0 == tabGetD new a 0 then r else r.noteMirror (.var n i v.ident (240 * p))) r) r

/-! ### Modes (R444, Table 12.8) -/

/-- A task takes a mode: SAFE outputs on entry to STOP, and EV_CLE_MODE where the mode changes. A step that has run no cycle when
STOP takes effect ends with ST_STATE.
DESIGN CHOICE, assumption 75: unsafe. -/
def Run.cleMode (r : Run) (n i : Nat) (m : TaskMode) : Run :=
  match r.task n i with
  | none => r
  | some t =>
    if t.mode = m then r
    else
      let r := r.modTask n i fun t => { t with mode := m, step := if m = TaskMode.stop then none else t.step }
      let r := match t.step with
        | some (fn, cseq) => if m = TaskMode.stop then r.finish fn cseq { status := .state } else r
        | none => r
      let r := if m = .stop ∨ m = .halted then r.cleSafe n i else r
      r.cleEvent n i .cleMode 3 [t.mode.code, m.code]

/-- A transition that Table 12.8 lists for CLE_TASK_MODE. -/
def TaskMode.may (a b : TaskMode) : Bool :=
  match a, b with
  | .run, .stop | .run, .hold | .hold, .run | .hold, .stop => true
  | _, _ => false

/-- The VA of a task, with the copy of an exchange that it has not yet run (R449). -/
def TaskSt.carriedVa (t : TaskSt) : Tab Nat := match t.old with | some (o, va) => copyVa o t.task va t.va | none => t.va

/-- A task starts (R446): the VA from its image but for RETAIN variables at a warm start, CYCLE_NO 0, FIRST.
DESIGN CHOICE, assumption 75: unsafe. -/
def TaskSt.started (t : TaskSt) (warm : Bool) : TaskSt :=
  let va := if warm then vaKeep t.task.init t.carriedVa t.task.retainAddrs else t.task.init
  { t with mode := .run, cycleNo := 0, va := va, lastFault := 0, faulted := false, skipped := false, first := true, warm := warm, exchanged := false,
           skip := false, step := none, wait := [], image := none, last := [], written := [], old := none, longest := 0 }

/-- A task starts, with EV_CLE_MODE where it was not in RUN.
DESIGN CHOICE, assumption 75: unsafe. -/
def Run.cleStart (r : Run) (n i : Nat) (warm : Bool) : Run :=
  match r.task n i with
  | none => r
  | some t =>
    let r := r.modTask n i fun t => t.started warm
    if t.mode = .run then r else r.cleEvent n i .cleMode 3 [t.mode.code, 1]

/-- Every task of an instance that enters ACTIVE starts. -/
def Run.cleStartInst (r : Run) (n : Nat) (warm : Bool) : Run :=
  ((r.cleOf n).tasks.map (·.1)).foldl (fun (r : Run) i => r.cleStart n i warm) r

/-- A mode in which CLE_VAR_WRITE writes (R453). -/
def TaskSt.writable (t : TaskSt) : Bool := t.mode == .stop || (t.mode == .hold && t.task.supervisory)

/-- Octets stored to the VA of a task between two cycles (R453). -/
def Run.cleStore (r : Run) (n i addr : Nat) (octets : List Byte) : Run :=
  match r.task n i with
  | none => r
  | some t =>
    let va := (List.range octets.length).foldl (fun (v : Tab Nat) k => tabPut v (addr + k) (octets.getD k 0).toNat 0) t.va
    (r.mirrorVars n i t.va va).modTask n i fun t => { t with va := va }

/-- The commands that waited take effect after the cycle, in their order (R444, R453). -/
def Run.cleWaited (r : Run) (n i : Nat) : Run :=
  match r.task n i with
  | none => r
  | some t =>
    let r := r.modTask n i fun t => { t with wait := [] }
    t.wait.foldl (fun (r : Run) w =>
      match r.task n i with
      | some t =>
        match w.ask with
        | .mode m => if t.mode.may m then (r.cleMode n i m).finish w.fn w.cseq {} else r.finish w.fn w.cseq { status := .state }
        | .write addr octets =>
          if t.writable then (r.cleStore n i addr octets).finish w.fn w.cseq {} else r.finish w.fn w.cseq { status := .state }
      | none => r) r

/-- The step command of a task completes when its cycle has ended (R445). -/
def Run.cleStepped (r : Run) (n i : Nat) : Run :=
  match r.task n i with
  | none => r
  | some t =>
    match t.step with
    | none => r
    | some (fn, cseq) => (r.modTask n i fun t => { t with step := none }).finish fn cseq {}

/-- The commands that waited on an instance's tasks are gone with its reset, and the running cycles with them. -/
def Run.cleReset (r : Run) (n : Nat) : Run :=
  r.modCleInst n fun x => { x with tasks := x.tasks.map fun (e : Nat × TaskSt) =>
    (e.1, { e.2 with wait := [], step := none, image := none }) }

/-- The variables of an instance's tasks are as its image has them (R120, R446). -/
def Run.cleInitial (r : Run) (n : Nat) : Run :=
  r.modCleInst n fun x => { x with tasks := x.tasks.map fun (e : Nat × TaskSt) => (e.1, { e.2 with va := e.2.task.init, old := none }) }

/-- What commands that are discarded wait for on tasks does not happen (R72).
DEDUCED, assumption 72: unsafe. -/
def Run.dropWaits (r : Run) (doomed : Nat → Word → Bool) : Run :=
  let clear (t : TaskSt) : TaskSt := { t with
    wait := t.wait.filter fun w => !doomed w.fn w.cseq,
    step := match t.step with | some (fn, cseq) => if doomed fn cseq then none else t.step | none => none }
  r.modCle fun x => { x with insts := x.insts.map fun (e : Nat × CleInst) =>
    (e.1, { e.2 with tasks := e.2.tasks.map fun (t : Nat × TaskSt) => (t.1, clear t.2) }) }

/-! ### The ends of a cycle (R438 to R442, R449) -/

/-- What every executed cycle leaves: its VA, CYCLE_NO, CYCLES, SUBST_CYCLES, and the end of an exchange.
DESIGN CHOICE, assumption 75: unsafe. -/
def Run.cycleCommon (r : Run) (n i : Nat) (c : CycleRes) : Run :=
  match r.task n i with
  | none => r
  | some t =>
    let r := r.mirrorVars n i t.va c.va
    let r := r.modTask n i fun t => { t with
      va := c.va, last := c.last, image := none, first := false, exchanged := false, old := none, longest := max t.longest c.cost,
      stat := (if c.subst then tabInc (tabInc t.stat 0) 6 else tabInc t.stat 0) }
    match c.bytes with
    | some b => r.cleEvent n i .cleExchange 4 [t.cycleNo, b]
    | none => r

/-- A cycle that has reached its end: every output, then the bindings of kind 0x04 (R438). -/
def Run.cycleEnds (r : Run) (n i : Nat) (f : Flight) (c : CycleRes) : Run :=
  let r := r.cycleCommon n i c
  let r := r.modTask n i fun t => { t with faulted := false, skipped := false }
  let r := r.outputPhase n i fun b => BitVec.ofNat 32 (vaLoad c.va b.type b.addr)
  let r := r.modFlight f fun f => { f with engine := some .done }
  let r := r.fire n fun _ b => b.kind == 4 && b.index == i
  (r.cleStepped n i).cleWaited n i

/-- A cycle that faults (R440 to R442): its VA stands; a PROTECTIVE task halts, a SUPERVISORY one skips its next release.
DESIGN CHOICE, assumption 75: unsafe. -/
def Run.cycleFaults (r : Run) (n i : Nat) (f : Flight) (c : CycleRes) : Run :=
  let cause := if c.fate = .bound then 2 else 1
  let r := r.cycleCommon n i c
  match r.task n i with
  | none => r
  | some t =>
    let r := r.modTask n i fun t => { t with faulted := true, skipped := false, lastFault := cause, stat := tabInc t.stat cause, skip := t.task.supervisory }
    let r := if t.task.supervisory then r.cleEvent n i .cleOverrun 0 [t.cycleNo, cause]
      else (r.cleMode n i .halted).cleEvent n i .cleHalted 1 [t.cycleNo, cause]
    let r := r.modFlight f fun f => { f with engine := some .faulted }
    (r.cleStepped n i).cleWaited n i

/-- An empty job ends (R442, R443): SKIPPED where it takes the place of a cycle after a fault of a SUPERVISORY task, else EMPTY.
DESIGN CHOICE, assumption 75: unsafe. -/
def Run.emptyJob (r : Run) (n i : Nat) (f : Flight) : Run :=
  let r := r.modTask n i fun t => { t with
    image := none, skip := false, faulted := false, skipped := t.wants && t.skip, stat := tabInc t.stat (if t.wants && t.skip then 3 else 4) }
  (r.modFlight f fun f => { f with engine := some .empty }).cleWaited n i

/-! ### Commits (R310, R421, R429, R436, R475) -/

/-- The image a commit of an instance would leave.
DESIGN CHOICE, assumption 75: unsafe. -/
def CleInst.newImage (x : CleInst) : Option CleImage := match x.staged with | some i => i | none => x.image

/-- The tasks of an optional image. -/
def imageTasks (x : Option CleImage) : List CleTask := match x with | some i => i.tasks | none => []

/-- A task node as R421 wants it. -/
def taskNodeOk (g : Graph) (k : Nat) (n : GNode) (t : CleTask) : Bool :=
  let hits := g.binds.filter fun b => (edgesOf g b.edges).any fun e => e.node == k
  n.unit == t.engine && !n.any && (n.mask &&& (n.mask - 1)) == 0 &&
    (List.range g.nodes.length).all (fun j => match g.nodes[j]? with
      | some y => !(edgesOf g y.edges).any fun e => e.node == k
      | none => true) &&
    match hits with
    | [b] => (b.kind == 1 || b.kind == 2) && decide ((250000 : Rat) ≤ cycleTime g t.index) && decide (cycleTime g t.index ≤ 10000000000)
    | _ => false

/-- The task nodes of a graph and the tasks of an image belong together (R421). -/
def tasksArranged (g : Graph) (tasks : List CleTask) : Bool :=
  let nodes := (List.range g.nodes.length).filterMap fun k => match g.nodes[k]? with | some n => if n.cls = 3 then some (k, n) else none | none => none
  tasks.all (fun t => (nodes.filter fun e => e.2.op == t.index).length == 1) &&
    nodes.all fun e => match tasks.find? fun t => t.index == e.2.op with
      | some t => taskNodeOk g e.1 e.2 t
      | none => false

/-- The destination of an output binding: both outputs of a pair are one. -/
def Run.cleDest (r : Run) (b : CleBind) : Nat × Nat :=
  (b.kind, match b.kind with
    | 1 => field b.ref 16 0
    | 4 => field b.ref 23 0
    | 5 => field b.ref 9 0
    | 7 => (r.channelsOf (field b.ref 4 0)).headD 0
    | _ => field b.ref 15 0)

/-- A reference names what its instance owns, in the configuration a commit would leave (R436). -/
def Run.bindNames (r : Run) (n : Nat) (g : Graph) (tasks : List CleTask) (b : CleBind) : Bool :=
  match b.kind with
  | 0 => match tabGet r.ing.goose (field b.ref 15 0) with
    | some s => s.inst == n && (match s.record with | .goose x => decide (field b.ref 21 16 < x.members.length) | .sv _ => false)
    | none => false
  | 1 => decide (field b.ref 16 0 < 131072)
  | 2 => (outElem g (field b.ref 15 0) (field b.ref 23 16)).isSome
  | 3 => true
  | 4 =>
    let f := canRef b.ref
    decide (f.width ≤ 32) && (if f.width = 1 then b.type == 1 else b.type == 3) &&
      (match r.canBuf f.chan f.buffer with
       | some x => x.record.inst == n && x.record.tx == b.out &&
           decide (8 * f.byte + f.bit + f.width ≤ 8 * dlcLength x.record.fdf x.record.dlc)
       | none => false)
  | 5 => (r.loopDev n (field b.ref 5 0)).isSome && decide (field b.ref 9 6 ≤ 8) && (!b.out || [0, 4, 5].contains (field b.ref 9 6))
  | 6 => match tasks.find? fun t => t.index == field b.ref 7 0 with | some t => t.declares (field b.ref 23 8) b.type | none => false
  | 7 => b.type == 1 && (r.channelsOf (field b.ref 4 0)).head? == some (field b.ref 4 0)
  | _ => match (r.gooseDev n (field b.ref 8 0)).bind fun d => r.goosePub d with
    | some x => decide (field b.ref 15 9 < x.record.members.length)
    | none => false

/-- Units of an optional image. -/
def imageUnits (x : Option CleImage) : Nat := ((imageTasks x).map (·.units)).sum

/-- Units that an instance holds for an exchange: the new image before it, and the old tasks until the first cycle of the new ones
(R429, R449).
DESIGN CHOICE, assumption 75: unsafe. -/
def CleInst.exchangeUnits (y : CleInst) : Nat :=
  (match y.exchange with | some i => imageUnits i | none => 0) +
    (y.tasks.map fun t => match t.2.old with | some (o, _) => o.units | none => 0).sum

/-- Units of the committed tasks, and units held for exchanges in progress (CLE_MEM). -/
def Cle.units (c : Cle) : Nat × Nat := ((c.insts.map fun e => imageUnits e.2.image).sum, (c.insts.map fun e => e.2.exchangeUnits).sum)

/-- Why a commit of an instance is refused by the CLE; `r` holds the other objects as the commit would leave them, and `active`
tells whether the old tasks stay until an exchange.
DESIGN CHOICE, assumption 75: unsafe. -/
def Run.cleRefuses (r : Run) (n : Nat) (g : Graph) (active : Bool) : Option Status :=
  let x := r.cleOf n
  let tasks := imageTasks x.newImage
  let outs := tasks.flatMap fun t => t.outs.map r.cleDest
  let others := r.cle.insts.filter fun e => e.1 != n
  let own := imageUnits x.newImage + (if active then x.exchangeUnits + (if x.staged.isSome then imageUnits x.image else 0) else 0)
  let count := ((others.map fun e => (imageTasks e.2.image).length).sum) + tasks.length
  if !tasksArranged g tasks then some .cleImage
  else if tasks.any (fun t => t.binds.any fun b => !r.bindNames n g tasks b) ∨ outs.eraseDups.length ≠ outs.length then some .cleBind
  else if 256 < count ∨ 4096 < (others.map fun e => imageUnits e.2.image + e.2.exchangeUnits).sum + own then some .cleMem
  else none

/-- The lowest device task number that is free, given those taken (R420). -/
def freeTaskNo (used : List Nat) : Nat := ((List.range 257).find? fun k => !used.contains k).getD 256

/-- The device task numbers in use. -/
def Cle.used (x : Cle) : List Nat := x.insts.flatMap fun e => e.2.tasks.map fun t => t.2.dev

/-- A task as a commit leaves it: unchanged, exchanged with the old task of its index, or new. `run` tells that the instance is
ACTIVE, where the copy waits for the first release (R449). -/
def newTask (old : Option TaskSt) (t : CleTask) (dev : Nat) (run : Bool) : TaskSt :=
  match old with
  | none => { dev := dev, task := t, mode := if run then .run else .stop, va := if run then preparedVa none t else t.init }
  | some o =>
    if o.task = t then o
    else
      let same (k : Nat) : Option Nat := match t.binds[k]? with
        | some b => o.task.binds.findIdx? fun c => c.out == b.out && c.kind == b.kind && c.ref == b.ref
        | none => none
      let keep (w : Tab Word) : Tab Word := (List.range t.binds.length).filterMap fun k => ((same k).bind fun j => tabGet w j).map fun v => (k, v)
      let prepared := preparedVa (some o.task) t
      { o with
        task := t, mode := if o.mode = .halted then .stop else o.mode,
        va := if run then prepared else copyVa o.task t o.carriedVa prepared,
        old := if run then some (o.task, o.carriedVa) else none, exchanged := run,
        image := none, last := keep o.last, written := keep o.written, outFail := [] }

/-- An exchanged task that was HALTED has become STOP (R449): SAFE values on entry, and EV_CLE_MODE (Table 12.8). -/
def Run.haltedStops (r : Run) (n i : Nat) (old : Option TaskSt) : Run :=
  match old, r.task n i with
  | some o, some t =>
    if o.mode = .halted ∧ t.mode = .stop then (r.cleSafe n i).cleEvent n i .cleMode 3 [TaskMode.halted.code, TaskMode.stop.code] else r
  | _, _ => r

/-- The tasks of an instance become those of an image. -/
def Run.putTasks (r : Run) (n : Nat) (image : Option CleImage) (run : Bool) : Run :=
  let olds := (r.cleOf n).tasks
  let stay := olds.filter fun e => (imageTasks image).any fun t => t.index == e.1
  let r := r.modCleInst n fun x => { x with image := image, tasks := stay }
  (imageTasks image).foldl (fun (r : Run) t =>
    let dev := match tabGet olds t.index with | some o => o.dev | none => freeTaskNo r.cle.used
    let r := r.modCleInst n fun x => { x with tasks := tabSet x.tasks t.index (newTask (tabGet olds t.index) t dev run) }
    if run then r.haltedStops n t.index (tabGet olds t.index) else r) r

/-- What the CLE holds of an instance is removed with it. -/
def Run.cleDestroy (r : Run) (n : Nat) : Run :=
  r.modCle fun x => { x with insts := tabDel x.insts n, retained := x.retained.filter fun e => e.inst != n }

/-! ### Checkpoints (R447, R448) -/

/-- The bytes of a record: a 32-byte header and its data. -/
def Checkpoint.bytes (c : Checkpoint) : Nat := 32 + c.data.length

/-- The octets that the CRC of a record covers: its header but for the CRC, and its data. The order of the fields in the header is the
model's.
DESIGN CHOICE, assumption 75: unsafe. -/
def Checkpoint.octets (c : Checkpoint) : List Nat :=
  octetsOf 1 c.inst ++ octetsOf 1 c.task ++ octetsOf 4 c.cycleNo ++ octetsOf 6 c.second ++ octetsOf 4 c.data.length ++ List.replicate 12 0 ++
    c.data

/-- A record with its CRC-32. -/
def Checkpoint.sealed (c : Checkpoint) : Checkpoint := { c with crc := crc32 c.octets }

/-- The CRC of a record matches. -/
def Checkpoint.ok (c : Checkpoint) : Bool := c.crc == crc32 c.octets

/-- The newest record of a task whose CRC matches (R448). -/
def Cle.newest (x : Cle) (n i : Nat) : Option Checkpoint := x.retained.find? fun c => c.inst == n && c.task == i && c.ok

/-- The erase block of the log a record begins in, counted from its first. -/
def Checkpoint.block (c : Checkpoint) : Nat := c.place / 65536

/-- A record appended to CLE_RETAIN: when the head enters a block, the oldest of the 160 blocks is erased, and before that the newest
record of each task that lies only there is appended again. Every byte counts against the allowance. -/
def Run.retainAppend : Nat → Run → Checkpoint → Run
  | 0, r, _ => r
  | fuel + 1, r, c =>
    let before := r.cle.appended
    let r := r.modCle fun x => { x with
      appended := x.appended + c.bytes, allowance := x.allowance - c.bytes, retained := { c with place := before } :: x.retained }
    let b0 := before / 65536
    let b1 := (before + c.bytes) / 65536
    if b1 = b0 then r
    else
      let r := r.count .flbErases (b1 - b0)
      let old (e : Checkpoint) : Bool := decide (e.block + 159 ≤ b1)
      let doomed := r.cle.retained.filter fun e => old e && (r.cle.retained.find? fun z => z.inst == e.inst && z.task == e.task) == some e
      let r := r.modCle fun x => { x with retained := x.retained.filter fun e => !old e }
      doomed.foldl (fun (r : Run) e => Run.retainAppend fuel r e) r

/-- The checkpoint of one task at a whole TAI second: appended, or deferred where the allowance does not cover it. -/
def Run.checkpoint (r : Run) (n i second : Nat) : Run :=
  match r.task n i with
  | none => r
  | some t =>
    let addrs := t.task.retainAddrs
    let data := vaOnly t.va addrs
    if addrs.isEmpty ∨ t.saved = some data then r
    else
      let c : Checkpoint := Checkpoint.sealed { inst := n, task := i, cycleNo := t.cycleNo, second := second, crc := 0, place := 0,
                                                data := addrs.map fun a => tabGetD t.va a 0 }
      if r.cle.allowance < c.bytes then r.modTask n i fun t => { t with stat := tabInc t.stat 8 }
      else (r.retainAppend 4096 c).modTask n i fun t => { t with saved := some data }

/-- The checkpoints of a whole TAI second, in the order of the device task numbers. -/
def Run.checkpoints (r : Run) : Run :=
  let second := secOf r.now
  let grown : Int := if r.cle.allowedTo = 0 then 830 else 830 * (second - r.cle.allowedTo : Nat)
  let r := r.modCle fun x => { x with allowance := min (x.allowance + grown) (8 * 2 ^ 20), allowedTo := second }
  let all : List (Nat × Nat × Nat) := r.cle.insts.flatMap fun e => e.2.tasks.map fun t => (t.2.dev, e.1, t.1)
  ((List.range 256).flatMap fun d => all.filter fun e => e.1 == d).foldl (fun (r : Run) e => r.checkpoint e.2.1 e.2.2 second) r

/-- At a warm start each task takes its newest record whose CRC matches back into its RETAIN variables (R447, R448). -/
def Run.restoreRetained (r : Run) : Run :=
  (r.cle.insts.flatMap fun e => e.2.tasks.map fun t => (e.1, t.1)).foldl (fun (r : Run) (e : Nat × Nat) =>
    match r.cle.newest e.1 e.2 with
    | some c => r.modTask e.1 e.2 fun t =>
        let va := ((t.task.retainAddrs).zip c.data).foldl (fun (va : Tab Nat) x => tabPut va x.1 x.2 0) t.va
        { t with va := va, saved := some (vaOnly va t.task.retainAddrs) }
    | none => r) r

end Sys2Proof.Machine
end

