-- ==== Sys2Proof/Machine/CflCommit.lean ====
section
/-! DEFINITION. What a commit does to Confluence (R266, R268, R277, R294, R301): the checks, and the channels it leaves. -/

namespace Sys2Proof.Machine

/-- The channel slots of an instance's SV subscriptions as the staged changes would leave them: slot, SV index, RATE. -/
def Run.slotView (r : Run) (n : Nat) : List (Nat × Nat × Nat) :=
  (r.ing.view false).flatMap fun e =>
    if e.2.1 = n then
      match e.2.2 with
      | .sv v => v.chans.map fun c => (c.slot, e.1, v.rate)
      | .goose _ => []
    else []

/-- The committed channel of a slot, where it is a channel of that stream still.
DESIGN CHOICE, assumption 89: unsafe. -/
def Confluence.kept (x : Confluence) (n slot : Nat) : Option Chan :=
  match tabGet x.chans slot with
  | some c => if c.inst = n then some c else none
  | none => none

/-- The record a slot would have: the staged one, else the committed one. -/
def Confluence.newRecord (x : Confluence) (n slot : Nat) : Option ChanRec :=
  match tabGet x.chanStaged slot with
  | some (m, rec') => if m = n then some rec' else (x.kept n slot).map (·.record)
  | none => (x.kept n slot).map (·.record)

end Sys2Proof.Machine

namespace Sys2Proof

/-- The RMS history words a record takes (R296). -/
def ChanRec.rmsWords (c : ChanRec) : Nat := if c.rmsEn then c.rmsW else 0

end Sys2Proof

namespace Sys2Proof.Machine

/-- Why a commit of an instance is refused by Confluence; `active` tells whether it is ACTIVE. -/
def Run.cflRefuses (r : Run) (n : Nat) (active : Bool) : Option Status :=
  let x := r.cfl
  let slots := r.slotView n
  let recs := slots.map fun e => x.newRecord n e.1
  let protoBad (c : ChanRec) : Bool := c.proto != 0 && (tabGet x.protos c.proto).isNone
  let others := (x.chans.filter fun e => e.2.inst != n).map fun e => e.2.record.rmsWords
  let own := recs.map fun c => match c with | some c => c.rmsWords | none => 0
  let hChanged : Bool := match tabGet x.horizonStaged n with | some h => h != x.h n | none => false
  if active ∧ hChanged then some .state
  else if recs.any Option.isNone then some .cflChan
  else if recs.any fun c => match c with | some c => protoBad c | none => false then some .cflProto
  else if 262144 < others.sum + own.sum then some .cflMem
  else none

/-- The channel of a slot after a commit (R291, R294, Table 8.6): it goes on, with its record; where its RATE changes, what it holds of the old
samples goes, and its bank, its fade, the queued request and dc stay; a channel of another stream is created.
DESIGN CHOICE, assumption 89: unsafe. -/
def Confluence.commitChan (x : Confluence) (n slot sv rate : Nat) (rec' : ChanRec) : Chan :=
  match x.kept n slot with
  | some c =>
    if c.rate = rate ∧ c.stream = sv then
      { c with record := rec', dcHold := if c.record = rec' then c.dcHold else rec'.dcHold }
    else if c.stream = sv then
      { inst := n, stream := sv, rate := rate, record := rec', dcHold := if c.record = rec' then c.dcHold else rec'.dcHold, bankB := c.bankB,
        fade := c.fade, queued := c.queued, dc := c.dc, stat := c.stat, eventAt := c.eventAt, changes := c.changes }
    else { inst := n, stream := sv, rate := rate, record := rec', dcHold := rec'.dcHold, bankB := rec'.bank == 1 }
  | none => { inst := n, stream := sv, rate := rate, record := rec', dcHold := rec'.dcHold, bankB := rec'.bank == 1 }

/-- The stream of an SV subscription after a commit. -/
def Confluence.commitStream (x : Confluence) (n sv rate : Nat) : Stream :=
  let kept : StreamRec := match tabGet x.streams sv with | some s => if s.inst = n then s.record else {} | none => {}
  let rec' := match tabGet x.streamStaged sv with | some (m, s) => if m = n then s else kept | none => kept
  match tabGet x.streams sv with
  | some s => if s.inst = n ∧ s.rate = rate then { s with record := rec' } else { inst := n, rate := rate, record := rec' }
  | none => { inst := n, rate := rate, record := rec' }

/-- The staged records of an instance's Confluence objects become committed. It runs before `commitSubs`. -/
def Run.cflCommit (r : Run) (n : Nat) : Run :=
  let slots := r.slotView n
  let new : Tab Chan := slots.foldl (fun (t : Tab Chan) e =>
    match r.cfl.newRecord n e.1 with
    | some rec' => tabSet t e.1 (r.cfl.commitChan n e.1 e.2.1 e.2.2 rec')
    | none => t) (r.cfl.chans.filter fun e => e.2.inst != n)
  let streams : Tab Stream := slots.foldl (fun (t : Tab Stream) e =>
    tabSet t e.2.1 (r.cfl.commitStream n e.2.1 e.2.2)) (r.cfl.streams.filter fun e => e.2.inst != n)
  r.modCfl fun x => { x with
    chans := new, streams := streams,
    chanStaged := x.chanStaged.filter fun e => e.2.1 != n,
    streamStaged := x.streamStaged.filter fun e => e.2.1 != n,
    horizon := match tabGet x.horizonStaged n with | some h => tabPut x.horizon n h 300 | none => x.horizon,
    horizonStaged := tabDel x.horizonStaged n }

/-- Staged records of an instance for slots and streams that its subscriptions, as the staged changes would leave them, no longer have
are dropped. -/
def Run.trimStaged (r : Run) (n : Nat) : Run :=
  let mine := (r.slotView n).map (·.1)
  let svs := (r.slotView n).map (·.2.1)
  r.modCfl fun x => { x with
    chanStaged := x.chanStaged.filter fun e => e.2.1 != n || mine.contains e.1,
    streamStaged := x.streamStaged.filter fun e => e.2.1 != n || svs.contains e.1 }

/-- What Confluence holds of an instance is removed (R104: the instance is destroyed). -/
def Run.cflDestroy (r : Run) (n : Nat) : Run :=
  r.modCfl fun x => { x with
    chans := x.chans.filter fun e => e.2.inst != n, streams := x.streams.filter fun e => e.2.inst != n,
    chanStaged := x.chanStaged.filter fun e => e.2.1 != n,
    streamStaged := x.streamStaged.filter fun e => e.2.1 != n,
    coefs := x.coefs.filter fun e => e.1 / 32 != n,
    horizon := tabDel x.horizon n, horizonStaged := tabDel x.horizonStaged n,
    next := tabDel x.next n, done := tabDel x.done n, flagged := tabDel x.flagged n, dsDone := tabDel x.dsDone n }

end Sys2Proof.Machine
end

