-- ==== Sys2Proof/Machine/Ingest.lean ====
section
/-! DEFINITION. The steps of chapter 7: frames of IPORT_INGEST, supervision, and the subscription commands. -/

namespace Sys2Proof.Machine

/-- INGEST_FRAME (R239 to R253): the head frame of IPORT_INGEST, whose octets behind the Ethertype spell `p`, is judged
for every entry and released. Without room in the period it waits (R258).
DEDUCED, assumption 81: unsafe. -/
def execIngestFrame (p : IngestPdu) (dt : Nat) (s : State) : Host.Outcome State Fault Refusal :=
  whenRunning s fun _ r =>
    let r := r.pass dt
    match r.sw.ingestHead with
    | none => r
    | some (q, x) =>
      match tabGet r.sw.frames x.fid with
      | none => r
      | some h =>
        if !h.complete || !r.ingestRoom h.frame.etype h.frame.da p then r
        else
          let r := r.ingest h.frame.etype h.frame.da p h.arrival
          let r := r.modSw fun w => { w with ingestQ := tabPut w.ingestQ q ((tabGetD w.ingestQ q []).drop 1) [] }
          r.release x.fid

/-- SUB_SUPERVISION_EXPIRY (R254, Table 7.8). -/
def execSubSupervisionExpiry (goose : Bool) (index dt : Nat) (s : State) : Host.Outcome State Fault Refusal :=
  whenRunning s fun _ r => let r := r.pass dt; r.expire goose index r.now

/-! ### Commands (R259) -/

/-- A subscription command on an instance that exists.
DESIGN CHOICE, assumption 66: unsafe. -/
def onSubs (a : Accepted) (r : Run) (f : Nat → Run × Answer) : Run × Answer :=
  onTarget a r fun n => if (r.inst n).phase = .free then (r, .status .state) else f n

/-- Why an instance may not name an index: it holds no entry there. A VF that names another instance's is denied. -/
def Ingest.notOwn (x : Ingest) (goose : Bool) (fn n i : Nat) : Option Status :=
  match (x.view goose).find? fun e => e.1 == i with
  | some e => if e.2.1 = n then none else if fn = 0 then some .range else some .denied
  | none => some .range

/-- A record is staged. -/
def Run.subSet (r : Run) (goose : Bool) (fn n index len : Nat) (rec' : SubRec) : Run × Answer :=
  match (if index = 0xFFFF then none else r.ing.notOwn goose fn n index) with
  | some st => (r, .status st)
  | none =>
    match r.stageSub goose n index rec' with
    | .error st => (r, .status st)
    | .ok (r, i, rec') =>
      let slots : List Int := match rec' with | .sv v => v.chans.map fun c => (c.slot : Int) | .goose _ => []
      (r.trimStaged n, .done { result := [(i : Int)], buffer := slots, bufLen := len })

/-- SUB_SV_SET (R234, R235).
DESIGN CHOICE, assumption 89: unsafe. -/
def execSubSvSet (c : Cmd) (index : Nat) (x : SvRec) (s : State) : Host.Outcome State Fault Refusal :=
  runCmd { op := 0x0500, pf0 := false, buf := true, need := some 296 } c s fun a r =>
    onSubs a r fun n =>
      match svRecord x with
      | none => (r, .status .range)
      | some x => r.subSet false c.fn n index 296 (.sv x)

/-- SUB_GOOSE_SET (R236). -/
def execSubGooseSet (c : Cmd) (index : Nat) (x : GooseRec) (s : State) : Host.Outcome State Fault Refusal :=
  runCmd { op := 0x0501, pf0 := false, buf := true, need := some 424 } c s fun a r =>
    onSubs a r fun n =>
      match gooseRecord x with
      | none => (r, .status .range)
      | some x => r.subSet true c.fn n index 0 (.goose x)

/-- A commit of the instance that waits for its exchange point brings the subscription. -/
def Run.waitsFor (r : Run) (goose : Bool) (n index : Nat) : Bool :=
  match (r.slcOf n).exchange with
  | some e => match tabGet (if goose then e.staged.goose else e.staged.sv) index with | some (_, some _) => true | _ => false
  | none => false

/-- SUB_DELETE (R257, R259): a subscription that is only staged is dropped; a committed one is staged for deletion. -/
def execSubDelete (c : Cmd) (kind index : Nat) (s : State) : Host.Outcome State Fault Refusal :=
  runCmd { op := 0x0502, pf0 := false } c s fun a r =>
    onSubs a r fun n =>
      if 1 < kind then (r, .status .range)
      else
        let goose := kind == 1
        match r.ing.notOwn goose c.fn n index with
        | some st => (r, .status st)
        | none =>
          let committed := (r.sub goose index).isSome || r.waitsFor goose n index
          let f (t : Tab (Nat × Option SubRec)) := if committed then tabSet t index (n, none) else tabDel t index
          ((r.modIng fun x => x.setStaged goose (f (x.staged goose))).trimStaged n, .ok)

/-- A committed subscription of the target instance. -/
def Run.ownSub (r : Run) (goose : Bool) (fn n i : Nat) : Except Status Sub :=
  match r.sub goose i with
  | some s => if s.inst = n then .ok s else if fn = 0 then .error .range else .error .denied
  | none => .error .range

/-- The fields of a record, in the order of Tables 7.1 and 7.2. -/
def subFields (index : Nat) : SubRec → List Int
  | .sv x =>
    let flags := x.auth + (if x.localOk then 4 else 0) + (if x.sim then 8 else 0) + (if x.le then 16 else 0)
    let head : List Nat := [index, flags, x.da, x.appid, x.rate, x.fnom, x.noAsdu, x.confRev, x.nMembers, x.chans.length,
      x.id.length, x.timeout, x.keyA, x.keyB]
    (head ++ x.id ++ x.chans.flatMap fun c => [c.member, c.slot, c.scale.toNat]).map Int.ofNat
  | .goose x =>
    let flags := x.auth + (if x.useGocbRef then 4 else 0) + (if x.sim then 8 else 0)
    let head : List Nat := [index, flags, x.da, x.appid, x.confRev, x.members.length, x.id.length, x.maxRate, x.keyA, x.keyB]
    (head ++ x.id ++ x.members.map fun (m : Nat × Nat) => m.1 + 2 ^ 24 * m.2).map Int.ofNat

/-- SUB_READ (R259). -/
def execSubRead (c : Cmd) (kind index : Nat) (s : State) : Host.Outcome State Fault Refusal :=
  runCmd { op := 0x0503, pf0 := false } c s fun a r =>
    onSubs a r fun n =>
      if 1 < kind then (r, .status .range)
      else
        match r.ownSub (kind == 1) c.fn n index with
        | .error st => (r, .status st)
        | .ok x =>
          let t := x.arrived.getD 0
          let result : List Int := [x.phase.code, index, x.count, x.sq, secOf t, nsOf t]
          (r, .done { result := result, buffer := subFields index x.record, bufLen := if kind = 1 then 424 else 296 })

/-- SUB_KEY_SET (R246, R260): the committed record names other slots. -/
def execSubKeySet (c : Cmd) (kind index keyA keyB : Nat) (s : State) : Host.Outcome State Fault Refusal :=
  runCmd { op := 0x0504, pf0 := false } c s fun a r =>
    onSubs a r fun n =>
      if 1 < kind ∨ !keySlotOk keyA ∨ !keySlotOk keyB then (r, .status .range)
      else
        match r.ownSub (kind == 1) c.fn n index with
        | .error st => (r, .status st)
        | .ok _ =>
          if !r.srm.ingestMayUse n keyA || !r.srm.ingestMayUse n keyB then (r, .status .keyAttr)
          else (r.modSub (kind == 1) index fun x => { x with record := x.record.withKeys keyA keyB }, .ok)

/-- SUB_LIST (R259). -/
def execSubList (c : Cmd) (kind : Nat) (s : State) : Host.Outcome State Fault Refusal :=
  runCmd { op := 0x0505, pf0 := false } c s fun a r =>
    onSubs a r fun n =>
      if 1 < kind then (r, .status .range)
      else
        let own := (r.ing.table (kind == 1)).filter fun e => e.2.inst == n
        (r, .done { buffer := own.flatMap (fun e => [(e.1 : Int), (e.2.phase.code : Int)]), bufLen := 4 * own.length })

end Sys2Proof.Machine
end

