-- ==== Sys2Proof/Machine/Cle.lean ====
section
/-! DEFINITION. The steps of chapter 12: cycles of tasks, checkpoints, and the CLE commands. -/

namespace Sys2Proof.Machine

/-- CLE_CYCLE (R423, R438): a logic engine ends a cycle of task `i` of instance `n`, whose cost has passed. -/
def execCleCycle (n i dt : Nat) (s : State) : Host.Outcome State Fault Refusal :=
  whenRunning s fun _ r =>
    let r := r.pass dt
    match r.taskFlight n i with
    | none => r
    | some f =>
      match r.cycleOf n i f with
      | some c => if c.fate = .ended ∧ r.engineDone f c.cost then r.cycleEnds n i f c else r
      | none => r

/-- CLE_CYCLE_FAULT (R440): the cycle of a task overruns or meets a BOUND error. -/
def execCleCycleFault (n i dt : Nat) (s : State) : Host.Outcome State Fault Refusal :=
  whenRunning s fun _ r =>
    let r := r.pass dt
    match r.taskFlight n i with
    | none => r
    | some f =>
      match r.cycleOf n i f with
      | some c => if c.fate ≠ .ended ∧ r.engineDone f c.cost then r.cycleFaults n i f c else r
      | none => r

/-- CLE_EMPTY_JOB (R443): a release that runs no cycle ends after 8 engine cycles. -/
def execCleEmptyJob (n i dt : Nat) (s : State) : Host.Outcome State Fault Refusal :=
  whenRunning s fun _ r =>
    let r := r.pass dt
    match r.taskFlight n i, r.task n i with
    | some f, some t => if t.image.isNone ∧ r.engineDone f 8 then r.emptyJob n i f else r
    | _, _ => r

/-- RETAIN_CHECKPOINT (R447, R448): a whole TAI second passes. -/
def execRetainCheckpoint (dt : Nat) (s : State) : Host.Outcome State Fault Refusal :=
  whenRunning s fun _ r =>
    let r := r.pass dt
    if r.passed 1000000000 0 ∧ !r.flt.hkpAway ∧ !r.flt.hkpDead then r.checkpoints else r

/-- CLE_PROG_LOAD (R432, R453): the bundle section's octets and signature, and the image they spell.
DEDUCED, assumption 88: unsafe. -/
def execCleProgLoad (c : Cmd) (octets : List Nat) (sig : Nat) (image : CleImage) (s : State) : Host.Outcome State Fault Refusal :=
  runCmd { op := 0x0800, pf0 := false, buf := true, need := some octets.length } c s fun a r =>
    onSubs a r fun n =>
      let (r, ok) := r.verifyBundle n octets sig
      if !ok then (r, .status .auth)
      else if !image.ok then (r, .status .cleImage)
      else (r.modCleInst n fun x => { x with staged := some (some image) },
            .done { result := [(image.tasks.length : Int), (image.units : Int)] })

/-- CLE_PROG_UNLOAD (R453). -/
def execCleProgUnload (c : Cmd) (s : State) : Host.Outcome State Fault Refusal :=
  runCmd { op := 0x0801, pf0 := false } c s fun a r =>
    onSubs a r fun n => (r.modCleInst n fun x => { x with staged := some none }, .ok)

/-- A command on a task of the target instance. -/
def onTask (a : Accepted) (index : Nat) (r : Run) (f : Nat → TaskSt → Run × Answer) : Run × Answer :=
  onSubs a r fun n =>
    match r.task n index with
    | some t => f n t
    | none => (r, .status .range)

/-- The mode a code of CLE_TASK_MODE names.
DESIGN CHOICE, assumption 75: unsafe. -/
def modeOf (code : Nat) : Option TaskMode := match code with | 0 => some .stop | 1 => some .run | 2 => some .hold | _ => none

/-- CLE_TASK_MODE (R444, R445): during a cycle it takes effect after the output phase. -/
def execCleTaskMode (c : Cmd) (index mode : Nat) (s : State) : Host.Outcome State Fault Refusal :=
  runCmd { op := 0x0802, pf0 := false } c s fun a r =>
    onTask a index r fun n t =>
      match modeOf mode with
      | none => (r, .status .range)
      | some m =>
        if m = .hold ∧ !t.task.supervisory then (r, .status .cleClass)
        else if t.image.isSome then
          (if t.wait.isEmpty ∧ !t.mode.may m then (r, .status .state)
           else (r.modTask n index fun t => { t with wait := t.wait ++ [{ fn := c.fn, cseq := c.cseq, ask := .mode m }] }, .wait))
        else if t.mode.may m then (r.cleMode n index m, .ok)
        else (r, .status .state)

/-- CLE_TASK_START (R446). -/
def execCleTaskStart (c : Cmd) (index : Nat) (warm : Bool) (s : State) : Host.Outcome State Fault Refusal :=
  runCmd { op := 0x0803, pf0 := false } c s fun a r =>
    onTask a index r fun n t =>
      if t.mode = .stop ∨ t.mode = .halted then (r.cleStart n index warm, .ok) else (r, .status .state)

/-- CLE_TASK_STEP (R445): it completes when the cycle of the next release has ended.
DESIGN CHOICE, assumption 75: unsafe. -/
def execCleTaskStep (c : Cmd) (index : Nat) (s : State) : Host.Outcome State Fault Refusal :=
  runCmd { op := 0x0804, pf0 := false } c s fun a r =>
    onTask a index r fun n t =>
      if t.mode ≠ .hold then (r, .status .state)
      else if t.step.isSome then (r, .status .busy)
      else (r.modTask n index fun t => { t with step := some (c.fn, c.cseq) }, .wait)

/-- A span of a VA that CLE_VAR_READ and CLE_VAR_WRITE take. -/
def spanOk (t : CleTask) (addr len : Nat) : Bool :=
  decide (1 ≤ len) && decide (len ≤ 4096) && decide (addr + len ≤ 256 * t.vaLen)

/-- CLE_VAR_READ (R453): the bytes as they stand between two cycles. -/
def execCleVarRead (c : Cmd) (index addr len : Nat) (s : State) : Host.Outcome State Fault Refusal :=
  runCmd { op := 0x0805, pf0 := false } c s fun a r =>
    onTask a index r fun _ t =>
      if spanOk t.task addr len then
        (r, .done { buffer := (List.range len).map fun k => ((tabGetD t.va (addr + k) 0 : Nat) : Int), bufLen := len })
      else (r, .status .range)

/-- CLE_VAR_WRITE (R453): `octets` stand in the buffer; during the cycle of a step they wait for its end.
DESIGN CHOICE, assumption 75: unsafe. -/
def execCleVarWrite (c : Cmd) (index addr : Nat) (octets : List Byte) (s : State) : Host.Outcome State Fault Refusal :=
  runCmd { op := 0x0806, pf0 := false, buf := true, need := some octets.length } c s fun a r =>
    onTask a index r fun n t =>
      let inside (k : Nat) : Bool := t.task.vars.any fun v => decide (v.addr ≤ k) && decide (k < v.addr + v.size)
      if !t.writable then (r, .status .state)
      else if !spanOk t.task addr octets.length ∨ !((List.range octets.length).all fun k => inside (addr + k)) then (r, .status .range)
      else if t.image.isSome then
        (r.modTask n index fun t => { t with wait := t.wait ++ [{ fn := c.fn, cseq := c.cseq, ask := .write addr octets }] }, .wait)
      else (r.cleStore n index addr octets, .ok)

/-- CLE_TASK_READ (R453). -/
def execCleTaskRead (c : Cmd) (index : Nat) (s : State) : Host.Outcome State Fault Refusal :=
  runCmd { op := 0x0807, pf0 := false } c s fun a r =>
    onTask a index r fun _ t =>
      (r, .done { result := [(t.mode.code : Int), if t.task.supervisory then 1 else 0, (t.task.engine : Int), (t.lastFault : Int),
                             (t.cycleNo : Int), (t.dev : Int), (t.longest : Int)] })

end Sys2Proof.Machine
end

