-- ==== Sys2Proof/Machine/Conf.lean ====
section
/-! DEFINITION. The steps of chapter 8: the DEC_SYNC edge and the Confluence commands. -/

namespace Sys2Proof.Machine

/-- DEC_SYNC_EDGE (R288): an edge of the ball, timestamped by the TSU. -/
def execDecSyncEdge (falling : Bool) (dt : Nat) (s : State) : Host.Outcome State Fault Refusal :=
  whenRunning s fun _ r =>
    let r := r.pass dt
    if r.cfl.pinEn ∧ falling = r.cfl.pol then (r.decSyncRequest r.now).1 else r

/-! ### Records (Tables 8.6 and 8.7) -/

/-- A coefficient set a record names. -/
def setNameOk (n : Nat) : Bool := decide (n < 32) || n == 0xFFFF

end Sys2Proof.Machine

namespace Sys2Proof

/-- Every field of a channel record in its range; N_P only for a channel on grid Q (Table 8.6). -/
def ChanRec.ok (x : ChanRec) (onQ : Bool) : Bool :=
  decide (x.alignDelay ≤ 1000000) && decide (-100000 ≤ x.delayComp) && decide (x.delayComp ≤ 100000) &&
    decide (-24 ≤ x.l) && decide (x.l ≤ 8) && decide (x.proto ≤ 4) && (!onQ || (decide (1 ≤ x.np) && decide (x.np ≤ 4))) && decide (x.bank ≤ 1) &&
    decide (1 ≤ x.nr) && decide (x.nr ≤ 4) && decide (2 ≤ x.rr) && decide (x.rr ≤ 256) &&
    Machine.setNameOk x.setA && Machine.setNameOk x.setB && decide (8 ≤ x.dcK) && decide (x.dcK ≤ 20) &&
    decide (1 ≤ x.peakK) && decide (x.peakK ≤ 24) && decide (x.attack ≤ 24) && decide (x.release ≤ 24) &&
    decide (1 ≤ x.rmsW) && decide (x.rmsW ≤ 4096)

/-- Every field of a stream record in its range. -/
def StreamRec.ok (x : StreamRec) : Bool :=
  decide (x.latEst ≤ 1000000) && decide (1 ≤ x.a) && decide (x.a ≤ 12) && decide (4 ≤ x.b) && decide (x.b ≤ 24) &&
    decide (1 ≤ x.lockN) && decide (x.lockN ≤ 4096) && decide (100 ≤ x.lock) && decide (x.lock ≤ 100000) &&
    decide (1000 ≤ x.outlier) && decide (x.outlier ≤ 1000000)

/-- The fields of a channel record, in the order of Table 8.6. -/
def ChanRec.fields (slot : Nat) (x : ChanRec) : List Int :=
  let b (v : Bool) (k : Nat) : Nat := if v then k else 0
  let flags := b x.dcEn 1 + b x.dcHold 2 + b x.peakEn 4 + b x.rmsEn 8 + b x.envEn 16 + b x.drEn 32
  [(slot : Int), flags, x.alignDelay, x.delayComp, x.l, x.proto, x.np, x.nr, x.rr, x.setA, x.setB,
    x.bank, x.dcK, x.peakK, x.attack, x.release, x.rmsW]

end Sys2Proof

namespace Sys2Proof.Machine

/-- A slot is one of the instance's with a channel on grid Q, as the staged changes would leave it (R264). -/
def Run.slotOnQ (r : Run) (n slot : Nat) : Bool := (r.slotView n).any fun e => e.1 == slot && decide (12800 ≤ e.2.2)

/-- CFL_CHAN_SET (R301): staged. -/
def execCflChanSet (c : Cmd) (slot : Nat) (x : ChanRec) (s : State) : Host.Outcome State Fault Refusal :=
  runCmd { op := 0x0600, pf0 := false, buf := true, need := some 32 } c s fun a r =>
    onSubs a r fun n =>
      if !x.ok (r.slotOnQ n slot) then (r, .status .range)
      else if (r.slotView n).any fun e => e.1 == slot then
        (r.modCfl fun y => { y with chanStaged := tabSet y.chanStaged slot (n, x) }, .ok)
      else if c.fn ≠ 0 ∧ r.slotsUsed.contains slot then (r, .status .denied)
      else (r, .status .range)

/-- CFL_STREAM_SET (R301): staged. -/
def execCflStreamSet (c : Cmd) (index : Nat) (x : StreamRec) (s : State) : Host.Outcome State Fault Refusal :=
  runCmd { op := 0x0601, pf0 := false, buf := true, need := some 24 } c s fun a r =>
    onSubs a r fun n =>
      if !x.ok then (r, .status .range)
      else
        match r.ing.notOwn false c.fn n index with
        | some st => (r, .status st)
        | none => (r.modCfl fun y => { y with streamStaged := tabSet y.streamStaged index (n, x) }, .ok)

/-! ### Sets, prototypes, banks (R277, R290 to R292) -/

/-- The set a bank of a channel names. -/
def Chan.setName (c : Chan) (bankB : Bool) : Nat := if bankB then c.record.setB else c.record.setA

/-- A set is named by the active bank, by a bank of the running fade or by a queued request (R292). -/
def Chan.usesSet (c : Chan) (set : Nat) : Bool :=
  c.setName c.bankB == set || (match c.fade with | some f => c.setName f.toB == set | none => false) ||
    match c.queued with | some (b, _) => c.setName b == set | none => false

/-- CFL_COEF_SET (R290, R292): the set's taps and DELAY.
DESIGN CHOICE, assumption 89: unsafe. -/
def execCflCoefSet (c : Cmd) (set delay : Nat) (taps : List Word) (s : State) : Host.Outcome State Fault Refusal :=
  runCmd { op := 0x0602, pf0 := false, buf := true, need := some (4 * taps.length) } c s fun a r =>
    onSubs a r fun n =>
      if taps.isEmpty ∨ 64 < taps.length then (r, .status .range)
      else if 32 ≤ set ∨ (r.cfl.chansOf n).any (fun e => e.2.usesSet set) then (r, .status .cflSet)
      else
        (r.modCfl fun y => { y with coefs := tabSet y.coefs (32 * n + set) { taps := taps, delay := delay % 2 ^ 32 } }, .ok)

/-- The value of a binary32 word is 0 of either sign. -/
def zero32 (w : Word) : Bool := w &&& 0x7FFFFFFF == 0

/-- A prototype table meets R277. -/
def protoOk (t : List (List Word)) : Bool :=
  let at' (p j : Nat) : Word := (t.getD p []).getD j 0
  t.length == 513 && t.all (fun row => row.length == 16) && zero32 (at' 0 15) && zero32 (at' 512 0) &&
    (List.range 15).all fun j => (val32 (at' 512 (j + 1))).eq (val32 (at' 0 j))

/-- CFL_PROTO_LOAD (R277). -/
def execCflProtoLoad (c : Cmd) (proto : Nat) (table : List (List Word)) (s : State) : Host.Outcome State Fault Refusal :=
  runCmd { op := 0x0603, pf0 := true, buf := true, need := some 32832 } c s fun _ r =>
    if proto = 0 ∨ 4 < proto then (r, .status .range)
    else if r.cfl.chans.any fun e => e.2.record.proto == proto then (r, .status .state)
    else if !protoOk table then (r, .status .cflProto)
    else (r.modCfl fun y => { y with protos := tabSet y.protos proto table }, .ok)

/-- A command on a committed channel of the target instance. -/
def onChan (c : Cmd) (a : Accepted) (slot : Nat) (r : Run) (f : Chan → Run × Answer) : Run × Answer :=
  onSubs a r fun n =>
    match tabGet r.cfl.chans slot with
    | some ch => if ch.inst = n then f ch else (r, .status (if c.fn = 0 then .range else .denied))
    | none => (r, .status .range)

/-- CFL_BANK_SELECT (R291). -/
def execCflBankSelect (c : Cmd) (slot bank len : Nat) (s : State) : Host.Outcome State Fault Refusal :=
  runCmd { op := 0x0604, pf0 := false } c s fun a r =>
    onChan c a slot r fun _ =>
      if 1 < bank ∨ len = 0 ∨ 4096 < len then (r, .status .range)
      else
        let (r, queued) := r.bankRequest slot (bank == 1) len
        (r, .done { result := [(queued : Int)] })

/-- CFL_DC_HOLD (R294). -/
def execCflDcHold (c : Cmd) (slot : Nat) (hold : Bool) (s : State) : Host.Outcome State Fault Refusal :=
  runCmd { op := 0x0605, pf0 := false } c s fun a r =>
    onChan c a slot r fun _ => (r.modChan slot fun ch => { ch with dcHold := hold }, .ok)

/-- CFL_DEC_SYNC (R288).
DESIGN CHOICE, assumption 89: unsafe. -/
def execCflDecSync (c : Cmd) (sec ns : Nat) (s : State) : Host.Outcome State Fault Refusal :=
  runCmd { op := 0x0606, pf0 := true } c s fun _ r =>
    if 1000000000 ≤ ns ∨ 2 ^ 48 ≤ sec then (r, .status .range)
    else
      match r.decSyncRequest (sec * 1000000000 + ns) with
      | (r, false) => (r, .status .busy)
      | (r, true) => (r, .done { result := [(r.cfl.dsTick / 4800 : Nat), (r.cfl.dsTick % 4800 : Nat)] })

/-- The STATE parameter of a channel (R303). -/
def Confluence.chanState (x : Confluence) (c : Chan) : Nat :=
  let b (v : Bool) (k : Nat) : Nat := if v then k else 0
  let code := match tabGet x.streams c.stream with | some s => loopCode s.loop | none => 0
  b c.invalid 1 + b c.fade.isSome 2 + b c.bankB 4 + b c.queued.isSome 8 + 16 * code

/-- CFL_CHAN_READ (R301). -/
def execCflChanRead (c : Cmd) (slot : Nat) (s : State) : Host.Outcome State Fault Refusal :=
  runCmd { op := 0x0607, pf0 := false } c s fun a r =>
    onChan c a slot r fun ch =>
      (r, .done { result := [(r.cfl.chanState ch : Int), (r.cfl.chanDelay ch : Int)],
                  buffer := ch.record.fields slot, bufLen := 32 })

end Sys2Proof.Machine
end

