-- ==== Sys2Proof/Machine/BallOps.lean ====
section
/-! DEFINITION. The balls shared by safety outputs 28 to 31 and the field bus standby outputs (R670). -/

namespace Sys2Proof.Machine

/-- The level of FB_n_STB (R670): high while ENABLE is 0 or INIT is 1. -/
def CanChan.standby (c : CanChan) : Bool := !c.enable || c.init

/-- A channel changed by `f`; FB_n_STB follows where its ball serves it. -/
def Run.modBus (r : Run) (n : Nat) (f : CanChan → CanChan) : Run :=
  let old := (r.can n).standby
  let r := r.modCan n f
  let new := (r.can n).standby
  if decide (n < 4) && r.trip.muxed (28 + n) && new != old then r.emit (.ball (.fbStb n) (if new then .high else .low)) else r

/-- The ball of SO_(28 + n) changes its function (R670): it carries FB_n_STB, and the output stops; or it returns, at its
SAFE value. -/
def Run.muxBall (r : Run) (n : Nat) (stb : Bool) : Run :=
  let k := 28 + n
  if stb then
    (r.modSo k fun z => { z with enabled := false, pulse := none, drive := z.safe }).emit
      (.ball (.fbStb n) (if (r.can n).standby then .high else .low))
  else if r.flt.lasting.contains 24 then r
  else
    (r.modSo k fun z => { z with enabled := true, pulse := none, drive := z.safe, sofb := z.safe }).emit
      (.ball (.so k) (if (r.so k).safe then .high else .low))

/-- BALL_MUX takes a value: each ball whose bit changes changes its function.
DEDUCED, assumption 57: unsafe. -/
def Run.setBallMux (r : Run) (v : Nat) : Run :=
  let old := r.trip.ballMux
  let r := r.modTrip fun t => { t with ballMux := v % 16 }
  [0, 1, 2, 3].foldl (fun (r : Run) (n : Nat) =>
    if v.testBit n = old.testBit n then r else r.muxBall n (v.testBit n)) r

end Sys2Proof.Machine
end

