-- ==== Sys2Proof/Machine/HostOps.lean ====
section
/-! DEFINITION. The virtual NIC queues and the resets of the host interface (R44, R45, R92). -/

namespace Sys2Proof.Machine

/-- The frames that wait for a function at IPORT_HOST are dropped and counted in RX_OFF (R92). -/
def Run.dropHost (r : Run) (fn : Nat) : Run :=
  let l := tabGetD r.sw.hostQ fn []
  let r := r.modSw fun w => { w with hostQ := tabDel w.hostQ fn }
  l.foldl (fun (r : Run) (x : Queued) =>
    let cells := match r.held x.fid with | some h => h.cells | none => 0
    ((r.uncharge fn cells).release x.fid).modFn fn fun f => { f with vnicRxOff := (f.vnicRxOff + 1) % 2 ^ 64 }) r

/-- The PCI Express identity of a function (Table 2.1): Device ID, class code, MSI-X vectors, and its number in the routing IDs,
with First VF Offset 1 and VF Stride 1. -/
structure PciFunction where
  deviceId : Nat
  classCode : Nat
  vectors : Nat
  routing : Nat
  deriving DecidableEq, Repr

/-- Vectors of a function (Table 2.1). -/
def vectorsOf (fn : Nat) : Nat := if fn = 0 then 64 else 8

/-- What function `fn` is on the link (Table 2.1); a VF is there while VF Enable is set and NumVFs reaches it.
DEDUCED, assumption 64: unsafe. -/
def Run.pciFunction (r : Run) (fn : Nat) : Option PciFunction :=
  if fn = 0 then some { deviceId := 0x6401, classCode := 0x0B4000, vectors := vectorsOf 0, routing := 0 }
  else if r.vfEnable ∧ fn ≤ r.numVfs then
    some { deviceId := 0x6402, classCode := 0x0B4000, vectors := vectorsOf fn, routing := 1 + (fn - 1) }
  else none

/-- An access of the host to BAR0 of function `fn`: one to a VF shows that its driver has set VF Enable with NumVFs large enough, for
which the table has no row.
DEDUCED, assumption 64: unsafe. -/
def Run.hostAccess (r : Run) (fn : Nat) : Run :=
  if fn = 0 ∨ 32 < fn then r else { r with vfEnable := true, numVfs := max r.numVfs fn }

/-- The host interface of a function at its reset: rings, enables and interrupt configuration (R44); sequence registers,
windows, accepted commands, counters and a freeze stay (R45, R99).
DEDUCED, assumption 64: unsafe. -/
def FnState.hostReset (f : FnState) : FnState :=
  { f with cmdEn := false, evtEn := false, vnicEn := false, msixEn := false, seqStall := false, ring0 := {}, ring1 := {},
           ring2 := {}, ring3 := {}, ivec := [], msixUnmasked := [], msixPending := [], msixTable := [], latch := [] }

/-- The sources routed to a function; `owned` gives those of each instance. -/
def Run.routedTo (r : Run) (owned : Nat → List Nat) (fn : Nat) : Nat → Bool := fun s =>
  if 928 ≤ s then (s - 928) / 3 + 1 == fn
  else
    let home := match (List.range 32).find? fun n => (r.inst n).routedVf && (owned n).contains s with | some n => n + 1 | none => 0
    home == fn

/-- The host interface of function `fn` is reset (R44): its sources are masked, its waiting frames dropped. -/
def Run.hostReset (r : Run) (owned : Nat → List Nat) (fn : Nat) : Run :=
  let mine := r.routedTo owned fn
  let r := { r with unmasked := r.unmasked.filter fun s => !mine s }
  (r.modFn fn (·.hostReset)).dropHost fn

/-- A function's host interface reset by an FLR, which also ends its freeze and its safety session (R44, R99, R506). -/
def Run.fnReset (r : Run) (owned : Nat → List Nat) (fn : Nat) : Run :=
  let r := (r.hostReset owned fn).modFn fn fun f => { f with frozen := false }
  { r with trip := { r.trip with sessions := tabDel r.trip.sessions fn } }

/-- A function-level reset (R44 to R46). One of PF0 also clears VF Enable, and with it resets the host interface of every VF; a
freeze of a VF ends only at an FLR of its own (R99).
DEDUCED, assumption 64: unsafe. -/
def Run.flr (r : Run) (owned : Nat → List Nat) (fn : Nat) : Run :=
  if fn = 0 then
    let r := { r with vfEnable := false, numVfs := 0 }
    ((List.range 32).map (· + 1)).foldl (fun (r : Run) m => r.hostReset owned m) (r.fnReset owned 0)
  else if 33 ≤ fn then r
  else (r.fnReset owned fn).raise { ev := .vfReset, source := 899, data := [fn] }

/-- A hot reset or a loss of link: an FLR of every function (R44). -/
def Run.flrAll (r : Run) (owned : Nat → List Nat) : Run := (List.range 33).foldl (fun (r : Run) m => r.flr owned m) r

end Sys2Proof.Machine
end

