-- ==== Sys2Proof/Machine/Admit.lean ====
section
/-! DEFINITION. Admission (R112, R323 to R326, R688): the bounds of chains and nodes, the needs of instances, the refusals. -/

namespace Sys2Proof.Machine

/-- A graph under admission: its instance, the graph, and the instance's quotas. -/
structure Covered where
  inst : Nat
  graph : Graph
  flightQuota : Nat
  dispatchQuota : Nat
  deriving DecidableEq, Repr

/-- One node with its terms (Table 9.9), times in ns. -/
structure Terms where
  inst : Nat
  node : Nat
  cls : Nat
  prio : Nat
  c : Rat
  /-- T_u; none where no binding reaches the node. -/
  t : Option Rat
  n : Nat
  j : Rat
  deriving DecidableEq, Repr

/-- A refusal record (Table 9.11). -/
structure Refused where
  reason : Nat
  inst : Nat
  object : Nat
  bound : Nat
  limit : Nat
  deriving DecidableEq, Repr

/-- The record's numbers in the order of its fields. -/
def Refused.fields (x : Refused) : List Int := [x.reason, x.inst, x.object, x.bound, x.limit]

/-- C_u (Table 9.9) in ns. -/
def nodeCost (n : GNode) : Rat :=
  ((n.budget * clsPeriod n.cls + clsDispatch n.cls + clsComplete n.cls + clsAbort n.cls : Nat) : Rat) / 1000

/-- X_s in ns. -/
def sourceCrossing (kind : Nat) : Rat := if kind ≤ 3 then 6 else if kind = 4 then 13 / 2 else 0

/-- T of a binding (Table 9.5) in ns; `rate` gives MAX_RATE of a GOOSE subscription, `cycle` the cycle time of a task. -/
def bindTime (rate : Nat → Nat) (cycle : Nat → Rat) (b : GBind) : Rat :=
  match b.kind with
  | 1 => (b.param : Rat) * 625000 / 3
  | 2 => (b.param : Rat) * 625000 / 9
  | 3 => 1000000000 / (max 1 (rate b.index) : Nat)
  | 4 => cycle b.index
  | _ => (b.param : Rat) * 10000

/-- The smallest of some times. -/
def minRat (l : List Rat) : Option Rat :=
  l.foldl (fun (a : Option Rat) x => match a with | none => some x | some y => some (min x y)) none

/-- The chains whose paths contain a node: reached by the chain's binding, and reaching its end. -/
def chainsThrough (g : Graph) (i : Nat) : List GChain :=
  g.chains.filter fun c =>
    match g.binds[c.bind]? with
    | some b => (g.reachBind b).contains i && (g.reach [i]).contains c.last
    | none => false

/-- The incoming SET edges and bindings of a node. -/
def incoming (g : Graph) (i : Nat) : Nat :=
  ((List.range g.nodes.length).map fun k => ((g.succ k).filter (· == i)).length).sum +
    (g.binds.map fun b => ((g.heads b).filter (· == i)).length).sum

/-- The terms of every node of a graph. -/
def termsOf (rate : Nat → Nat → Nat) (cycle : Nat → Nat → Rat) (x : Covered) : List Terms :=
  (List.range x.graph.nodes.length).filterMap fun i =>
    (x.graph.nodes[i]?).map fun n =>
      let t := minRat ((x.graph.bindsTo i).map (bindTime (rate x.inst) (cycle x.inst)))
      let deadline := minRat ((chainsThrough x.graph i).map fun c => (c.deadline : Rat))
      { inst := x.inst, node := i, cls := n.cls, prio := n.prio, c := nodeCost n, t := t,
        n := if n.any then incoming x.graph i else 1, j := deadline.getD (t.getD 0) }

/-- B_v: the largest C_u of v's class among less urgent nodes. -/
def blocking (all : List Terms) (cls prio : Nat) : Rat :=
  (all.filter fun u => u.cls == cls && decide (prio < u.prio)).foldl (fun (a : Rat) u => max a u.c) 0

/-- W: the work of other nodes of the classes a path uses, for an interval `l` (R324). -/
def interference (all : List Terms) (units : Nat → Nat) (path : List Terms) (l : Rat) : Rat :=
  let classes := (path.map (·.cls)).eraseDups
  (classes.map fun c =>
    let pc := ((path.filter fun v => v.cls == c).map (·.prio)).foldl max 0
    let work := (all.filter fun u => u.cls == c && decide (u.prio ≤ pc) &&
        !(path.any fun v => v.inst == u.inst && v.node == u.node)).map fun u =>
      match u.t with
      | some t => (u.n : Rat) * (ceilRat ((l + u.j) / t) : Rat) * u.c
      | none => 0
    work.sum / (units c : Rat)).sum

/-- The iteration of R324 from L, stopped when it settles or passes `limit`. -/
def boundPath (all : List Terms) (units : Nat → Nat) (path : List Terms) (base limit : Rat) : Nat → Rat → Rat
  | 0, l => l
  | fuel + 1, l =>
    let next := base + interference all units path l
    if next = l ∨ limit < next then next else boundPath all units path base limit fuel next

/-- More rounds than the iteration can take before it settles or passes `limit`: every round but the last raises some node's count of
jobs, which an interval of `limit` bounds. -/
def boundRounds (all : List Terms) (limit : Rat) : Nat :=
  (all.map fun u => match u.t with | some t => (ceilRat ((limit + u.j) / t)).toNat + 1 | none => 0).sum + 3

/-- L_π of a path from a source of kind `kind` (R324). -/
def pathBound (all : List Terms) (units : Nat → Nat) (path : List Terms) (kind : Nat) (limit : Rat) : Rat :=
  let x := sourceCrossing kind
  let start := x + (path.map (·.c)).sum
  let base := x + (path.map fun v => v.c + blocking all v.cls v.prio + 1).sum
  boundPath all units path base limit (boundRounds all limit) start

/-- The first `cap` of some paths, or all of them. -/
def capped (cap : Option Nat) (l : List (List Nat)) : List (List Nat) := match cap with | some k => l.take k | none => l

/-- The paths of SET edges from a node to `last`, at most `cap` of them; each is a list of nodes. -/
def pathsFrom (g : Graph) (last : Nat) (cap : Option Nat) : Nat → Nat → List (List Nat)
  | 0, _ => []
  | fuel + 1, i =>
    let here : List (List Nat) := if i = last then [[i]] else []
    capped cap (here ++ ((g.succ i).flatMap fun k => pathsFrom g last cap fuel k).map (i :: ·))

/-- The paths from a binding to a node; those of a chain are counted up to 4,097. -/
def chainPaths (g : Graph) (b : GBind) (last : Nat) (cap : Option Nat) : List (List Nat) :=
  capped cap ((g.heads b).flatMap fun i => pathsFrom g last cap g.nodes.length i)

/-- The whole nanoseconds of a bound, rounded up. -/
def wholeNs (x : Rat) : Nat := (ceilRat x).toNat

/-- What admission finds of a chain: its paths are too many, it is not bounded, or its bound. -/
inductive ChainVerdict where
  | paths
  | unbounded
  | bound (ns : Nat)
  deriving DecidableEq, Repr

/-- The terms of a path. -/
def termsOn (all : List Terms) (inst : Nat) (path : List Nat) : List Terms :=
  path.filterMap fun i => all.find? fun u => u.inst == inst && u.node == i

/-- The largest bound over some paths; none where one needs a class with no unit in service. -/
def boundOver (all : List Terms) (units : Nat → Nat) (inst kind : Nat) (limit : Rat) (ps : List (List Nat)) : Option Rat :=
  let ts := ps.map (termsOn all inst)
  if ts.any fun p => p.any fun v => units v.cls == 0 then none
  else some ((ts.map fun p => pathBound all units p kind limit).foldl max 0)

/-- The bound of a chain from a binding to its end node (R324), whose paths are counted first. -/
def boundTo (all : List Terms) (units : Nat → Nat) (g : Graph) (inst : Nat) (b : GBind) (last : Nat) (limit : Rat) : ChainVerdict :=
  let ps := chainPaths g b last (some 4097)
  if 4096 < ps.length then .paths
  else match boundOver all units inst b.kind limit ps with
    | none => .unbounded
    | some l => .bound (wholeNs l)

/-- The bound of a node from a binding that reaches it (R325 step 2), over all its paths. -/
def boundNode (all : List Terms) (units : Nat → Nat) (g : Graph) (inst : Nat) (b : GBind) (node : Nat) (limit : Rat) : Nat :=
  match boundOver all units inst b.kind limit (chainPaths g b node none) with
  | some l => wholeNs l
  | none => 0

/-! ### The in-flight need (R325 step 3) -/

/-- One round of augmenting paths for a matching of a relation on `nodes`: `owner` gives the left partner of a right node. -/
def augment (adj : Nat → List Nat) : Nat → Nat → List Nat → Tab Nat → Option (List Nat × Tab Nat)
  | 0, _, _, _ => none
  | fuel + 1, u, seen, owner =>
    (adj u).foldl (fun (acc : Option (List Nat × Tab Nat) × List Nat) v =>
      match acc.1 with
      | some _ => acc
      | none =>
        if acc.2.contains v then acc
        else
          let seen := setIns acc.2 v
          match tabGet owner v with
          | none => (some (seen, tabSet owner v u), seen)
          | some w =>
            match augment adj fuel w seen owner with
            | some (s, o) => (some (s, tabSet o v u), s)
            | none => (none, seen)) (none, seen) |>.1

/-- The size of a largest matching of a relation on `nodes`. -/
def matching (adj : Nat → List Nat) (nodes : List Nat) : Nat :=
  (nodes.foldl (fun (owner : Tab Nat) u =>
    match augment adj (nodes.length + 1) u [] owner with
    | some (_, o) => o
    | none => owner) []).length

/-- The size of the largest set of nodes of which none is reachable from another: the nodes less a largest matching of the
reachability relation, which is transitive and has no cycle. -/
def widest (g : Graph) (nodes : List Nat) : Nat :=
  let isAll (i : Nat) : Bool := match g.nodes[i]? with | some n => !n.any | none => false
  let adj (i : Nat) : List Nat := (g.close isAll g.nodes.length (((g.succ i).filter isAll).foldl setIns [])).filter (nodes.contains ·)
  nodes.length - matching adj nodes

/-- The in-flight need of an instance's graph. -/
def flightNeed (g : Graph) : Nat := (g.binds.map fun b => widest g (g.reachBind b)).sum

/-- The dispatches an instance's graph needs per period (R325 step 4). -/
def dispatchNeed (all : List Terms) (inst : Nat) : Nat :=
  ((all.filter fun u => u.inst == inst).map fun u =>
    match u.t with
    | some t => u.n * ((1000000 / t).floor.toNat + 1)
    | none => 0).sum

/-! ### A run of admission -/

/-- What a run finds: the bound of every chain covered (0 where it is not bounded), the in-flight needs, and the refusals in
the order of R326. -/
structure Admission where
  bounds : List (Nat × List Nat)
  needs : List (Nat × Nat)
  refusals : List Refused
  deriving DecidableEq, Repr

/-- OBJECT of a chain's refusal: its CHAIN_ID; a chain that admission adds for a loop has none, and the value is open (assumption 29, DESIGN CHOICE). -/
def chainObject (ident : Nat) : Nat := if ident < 65536 then ident else Config.loopChainId (ident - 65536)

/-- An admission run over some graphs (R323 to R326). -/
def runAdmission (units : Nat → Nat) (rate : Nat → Nat → Nat) (cycle : Nat → Nat → Rat) (cs : List Covered) : Admission :=
  let all := cs.flatMap (termsOf rate cycle)
  let noUnit := ((List.range 5).filter fun c => units c == 0 && all.any fun u => u.cls == c).flatMap fun c =>
    ((cs.filter fun x => x.graph.nodes.any fun n => n.cls == c).take 1).map fun x =>
      ({ reason := 4, inst := x.inst, object := 0, bound := c, limit := 0 } : Refused)
  let verdicts := cs.map fun x => (x, x.graph.chains.map fun c =>
    match x.graph.binds[c.bind]? with
    | some b => (c, boundTo all units x.graph x.inst b c.last (c.deadline : Rat))
    | none => (c, .unbounded))
  let byIdent (l : List (GChain × ChainVerdict)) : List (GChain × ChainVerdict) :=
    l.foldl (fun t e => t.takeWhile (fun x => decide (x.1.ident ≤ e.1.ident)) ++
      e :: t.dropWhile (fun x => decide (x.1.ident ≤ e.1.ident))) []
  let chainRefusals := verdicts.flatMap fun (x, l) => (byIdent l).filterMap fun (c, v) =>
    match v with
    | .paths => some ({ reason := 3, inst := x.inst, object := chainObject c.ident, bound := 4097, limit := 4096 } : Refused)
    | .bound ns => if ns ≤ c.deadline then none
        else some { reason := 1, inst := x.inst, object := chainObject c.ident, bound := ns, limit := c.deadline }
    | .unbounded => none
  let overlaps := cs.flatMap fun x => (List.range x.graph.nodes.length).filterMap fun i =>
    match all.find? (fun u => u.inst == x.inst && u.node == i) with
    | some u =>
      match u.t with
      | some t =>
        let worst : Nat := ((x.graph.bindsTo i).map fun b => boundNode all units x.graph x.inst b i t).foldl max 0
        if (worst : Rat) < t then none
        else some ({ reason := 2, inst := x.inst, object := i, bound := worst, limit := wholeNs t } : Refused)
      | none => none
    | none => none
  let needs := cs.map fun x => (x.inst, flightNeed x.graph)
  let quotas := cs.flatMap fun x =>
    let need := flightNeed x.graph
    let disp := dispatchNeed all x.inst
    (if x.flightQuota < need then [({ reason := 5, inst := x.inst, object := 0, bound := need, limit := x.flightQuota } : Refused)] else []) ++
    (if x.dispatchQuota < disp then [({ reason := 6, inst := x.inst, object := 0, bound := disp, limit := x.dispatchQuota } : Refused)] else [])
  { bounds := verdicts.map fun (x, l) => (x.inst, l.map fun (_, v) => match v with | .bound ns => ns | _ => 0),
    needs := needs, refusals := noUnit ++ chainRefusals ++ overlaps ++ quotas }

/-- The status of a refused run (R326). -/
def Admission.status (a : Admission) : Status :=
  match a.refusals with
  | [] => .ok
  | x :: _ => if x.reason = 5 ∨ x.reason = 6 then .shareFloor else .admission

/-- A declared MAX_RATE of a GOOSE subscription of an instance. -/
def Run.gooseRate (r : Run) (s : Nat) : Nat :=
  match tabGet r.ing.goose s with
  | some x => (match x.record with | .goose g => g.maxRate | .sv _ => 1)
  | none => 1

/-- The graph of an instance as a covered one. -/
def Run.covered (r : Run) (n : Nat) (g : Graph) : Covered :=
  { inst := n, graph := g, flightQuota := (r.inst n).granted.sluice * 4096 / 1024,
    dispatchQuota := (r.inst n).granted.sluice * 1000000 / 1024 }

/-- The graphs a run covers (R323): those of the instances in READY, ACTIVE or RESETTING; `own` is an instance covered with
the graph given, whatever its state. -/
def Run.coverage (r : Run) (own : Option (Nat × Option Graph)) : List Covered :=
  (List.range 32).filterMap fun n =>
    match own with
    | some (m, g) => if m = n then g.map (r.covered n)
        else if (r.inst n).phase ∈ [.ready, .active, .resetting] then (r.slcOf n).graph.map (r.covered n) else none
    | none => if (r.inst n).phase ∈ [.ready, .active, .resetting] then (r.slcOf n).graph.map (r.covered n) else none

/-- The graph a commit of an instance would leave. -/
def SlcInst.staged' (x : SlcInst) : Option Graph :=
  match x.staged with
  | some g => g
  | none => x.graph

/-- What a waiting commit will store, where a later run has covered an instance other than its own (R688).
DEDUCED, assumption 72: unsafe. -/
def Exchange.outrun (e : Exchange) (own : Nat) (bounds : List (Nat × List Nat)) (needs : List (Nat × Nat)) : Exchange :=
  { e with bounds := e.bounds.map fun b => if b.1 = own then b else (bounds.find? fun x => x.1 == b.1).getD b,
           needs := e.needs.map fun b => if b.1 = own then b else (needs.find? fun x => x.1 == b.1).getD b }

/-- A run stores its bounds and the in-flight needs (R688, R334); a chain it does not bound stores 0. -/
def Run.storeBounds (r : Run) (bounds : List (Nat × List Nat)) (needs : List (Nat × Nat)) : Run :=
  let r := r.modSluice fun x => { x with
    insts := x.insts.map fun e => (e.1, { e.2 with exchange := e.2.exchange.map fun y => y.outrun e.1 bounds needs }) }
  let r := bounds.foldl (fun (r : Run) (e : Nat × List Nat) => r.modSlc e.1 fun x => { x with
    chains := (List.range x.chains.length).filterMap fun i => (x.chains[i]?).map fun c => { c with bound := e.2.getD i 0 } }) r
  needs.foldl (fun (r : Run) (e : Nat × Nat) => r.modSlc e.1 fun x => { x with need := e.2 }) r

end Sys2Proof.Machine
end

