-- ==== Sys2Proof/Machine/Pubs.lean ====
section
/-! DEFINITION. Publication records, their commands, and what a commit does to publications (R480 to R485, R511). -/

namespace Sys2Proof

/-- The VLAN word and the addressing of a publication in their ranges. -/
def pubHead (auth da appid pcp vid tag key : Nat) (ports : List Nat) : Bool :=
  decide (auth ≤ 2) && decide (da < 2 ^ 48) && decide (appid < 65536) && decide (pcp < 8) && decide (1 ≤ vid) &&
    decide (vid ≤ 4094) && decide (tag < 65536) && ports.all (fun p => decide (p < 64)) &&
    (if auth = 0 then key == 0xFFFF else decide (key < 256))

/-- A text field: 1 to 64 octets. -/
def pubText (t : List Nat) : Bool := decide (1 ≤ t.length) && decide (t.length ≤ 64) && t.all fun c => decide (c < 256)

/-- Every field of a GOOSE publication in its range (Table 14.1). -/
def GoosePub.ok (x : GoosePub) : Bool :=
  pubHead x.auth x.da x.appid x.pcp x.vid x.tag x.key x.ports && decide (x.confRev < 2 ^ 32) && decide (1 ≤ x.minT) &&
    decide (x.minT ≤ 1000) && decide (100 ≤ x.maxT) && decide (x.maxT ≤ 60000) && decide (x.minT ≤ x.maxT) &&
    decide (2 ≤ x.talFactor) && decide (x.talFactor ≤ 4) && pubText x.goId && pubText x.gocbRef && pubText x.datSet &&
    decide (1 ≤ x.members.length) && decide (x.members.length ≤ 64) && x.members.all fun t => decide (1 ≤ t) && decide (t ≤ 7)

/-- Every field of an SV publication in its range (Table 14.2). -/
def SvPub.ok (x : SvPub) : Bool :=
  pubHead x.auth x.da x.appid x.pcp x.vid x.tag x.key x.ports && decide (x.confRev < 2 ^ 32) && pubText x.svId &&
    decide (1 ≤ x.scales.length) && decide (x.scales.length ≤ 16) &&
    x.scales.all fun w => !(Machine.val32 w).eq (.fin false 0)

end Sys2Proof

namespace Sys2Proof.Machine

/-! ### Records staged -/

/-- The GOOSE publications of an instance as the staged changes would leave them: index and record. -/
def Run.gooseView (r : Run) (n : Nat) : List (Nat × GoosePub) :=
  (List.range 512).filterMap fun i =>
    match tabGet r.trip.gooseStaged (512 * n + i) with
    | some x => x.map fun x => (i, x)
    | none => (r.trip.gooses.find? fun e => e.2.inst == n && e.2.index == i).map fun e => (i, e.2.record)

/-- The SV publications of an instance as the staged changes would leave them. -/
def Run.svView (r : Run) (n : Nat) : List (Nat × SvPub) :=
  (List.range 64).filterMap fun i =>
    match tabGet r.trip.svStaged (512 * n + i) with
    | some x => x.map fun x => (i, x)
    | none => (r.trip.svs.find? fun e => e.2.inst == n && e.2.index == i).map fun e => (i, e.2.record)

/-- A key slot that permits the publisher for an instance (R482). -/
def Run.pubKeyOk (r : Run) (n auth slot : Nat) : Bool := (r.pubKeyOf n auth slot).isSome

/-- The index a record is written at: the one named, which exists, or for 0xFFFF the lowest free one.
DESIGN CHOICE, assumption 71: unsafe. -/
def pubIndex (used : List Nat) (limit index : Nat) : Option Nat :=
  if index = 0xFFFF then (List.range limit).find? fun i => !used.contains i
  else if used.contains index then some index else none

/-- PUB_GOOSE_SET (R481, R482): staged. -/
def execPubGooseSet (c : Cmd) (index : Nat) (x : GoosePub) (s : State) : Host.Outcome State Fault Refusal :=
  runCmd { op := 0x0A00, pf0 := false, buf := true, need := some 512 } c s fun a r =>
    onSubs a r fun n =>
      if !x.ok then (r, .status .pubRecord)
      else if !r.pubKeyOk n x.auth x.key then (r, .status .pubKey)
      else match pubIndex ((r.gooseView n).map (·.1)) 512 index with
        | none => (r, .status (if index = 0xFFFF then .pubFull else .range))
        | some i => (r.modTrip fun t => { t with gooseStaged := tabSet t.gooseStaged (512 * n + i) (some x) }, .done { result := [(i : Int)] })

/-- PUB_SV_SET (R485, R482): staged. -/
def execPubSvSet (c : Cmd) (index : Nat) (x : SvPub) (s : State) : Host.Outcome State Fault Refusal :=
  runCmd { op := 0x0A01, pf0 := false, buf := true, need := some 192 } c s fun a r =>
    onSubs a r fun n =>
      if !x.ok then (r, .status .pubRecord)
      else if !r.pubKeyOk n x.auth x.key then (r, .status .pubKey)
      else match pubIndex ((r.svView n).map (·.1)) 64 index with
        | none => (r, .status (if index = 0xFFFF then .pubFull else .range))
        | some i => (r.modTrip fun t => { t with svStaged := tabSet t.svStaged (512 * n + i) (some x) }, .done { result := [(i : Int)] })

/-- PUB_DELETE (R511): staged. KIND 0 SV, 1 GOOSE. -/
def execPubDelete (c : Cmd) (kind index : Nat) (s : State) : Host.Outcome State Fault Refusal :=
  runCmd { op := 0x0A02, pf0 := false } c s fun a r =>
    onSubs a r fun n =>
      if kind = 0 ∧ ((r.svView n).any fun e => e.1 == index) then
        (r.modTrip fun t => { t with svStaged := tabSet t.svStaged (512 * n + index) none }, .ok)
      else if kind = 1 ∧ ((r.gooseView n).any fun e => e.1 == index) then
        (r.modTrip fun t => { t with gooseStaged := tabSet t.gooseStaged (512 * n + index) none }, .ok)
      else (r, .status .range)

/-- PUB_READ (R511): stNum or smpCnt, sqNum, and 0 suspended, 1 active, 2 twin-suspended. -/
def execPubRead (c : Cmd) (kind index : Nat) (s : State) : Host.Outcome State Fault Refusal :=
  runCmd { op := 0x0A03, pf0 := false } c s fun a r =>
    onSubs a r fun n =>
      let state (off : Bool) : Int := if r.suspended n then 0 else if off then 2 else 1
      if kind = 0 then
        match (r.svDev n index).bind fun d => r.svPub d with
        | some x => (r, .done { result := [(x.smpCnt : Int), 0, state false] })
        | none => (r, .status .range)
      else if kind = 1 then
        match (r.gooseDev n index).bind fun d => r.goosePub d with
        | some x => (r, .done { result := [(x.stNum : Int), (x.sqNum : Int), state x.twinOff] })
        | none => (r, .status .range)
      else (r, .status .range)

/-- GOOSE_RETRANSMIT (R484). -/
def execGooseRetransmit (d dt : Nat) (s : State) : Host.Outcome State Fault Refusal :=
  whenRunning s fun _ r => (r.pass dt).gooseRetry d

/-! ### Commit (R480) -/

/-- The lowest device number a table leaves free. -/
def freeDev {α : Type} (t : Tab α) : Nat := ((List.range (t.length + 1)).find? fun d => (tabGet t d).isNone).getD 0

/-- Why a commit of an instance's publications is refused: the device's limits, or a key that does not permit the publisher. -/
def Run.pubRefuses (r : Run) (n : Nat) : Option Status :=
  let g := r.gooseView n
  let v := r.svView n
  let others := (r.trip.gooses.filter fun e => e.2.inst != n).length
  let otherSv := (r.trip.svs.filter fun e => e.2.inst != n).length
  if 512 < others + g.length ∨ 64 < otherSv + v.length then some .pubFull
  else if (g.any fun e => !r.pubKeyOk n e.2.auth e.2.key) || (v.any fun e => !r.pubKeyOk n e.2.auth e.2.key) then some .pubKey
  else none

/-- A new publication, with every member 0 (R481).
DESIGN CHOICE, assumption 71: unsafe. -/
def newGoose (n i : Nat) (x : GoosePub) : GooseSt := { inst := n, index := i, record := x, values := x.members.map fun _ => 0 }

/-- A new stream.
DESIGN CHOICE, assumption 71: unsafe. -/
def newSv (n i : Nat) (x : SvPub) : SvSt := { inst := n, index := i, record := x, values := x.scales.map fun _ => (0, false) }

/-- One staged GOOSE record takes effect: a changed block keeps its numbers and schedule, and its members become 0. -/
def Trip.putGoose (t : Trip) (n i : Nat) (x : Option GoosePub) : Trip :=
  match t.gooses.find? fun e => e.2.inst == n && e.2.index == i with
  | some (d, old) =>
    match x with
    | none => { t with gooses := tabDel t.gooses d }
    | some y => { t with gooses := tabSet t.gooses d { old with record := y, values := y.members.map fun _ => 0 } }
  | none =>
    match x with
    | none => t
    | some y => { t with gooses := tabSet t.gooses (freeDev t.gooses) (newGoose n i y) }

/-- One staged SV record takes effect. -/
def Trip.putSv (t : Trip) (n i : Nat) (x : Option SvPub) : Trip :=
  match t.svs.find? fun e => e.2.inst == n && e.2.index == i with
  | some (d, old) =>
    match x with
    | none => { t with svs := tabDel t.svs d }
    | some y => { t with svs := tabSet t.svs d { old with record := y, values := y.scales.map fun _ => (0, false) } }
  | none =>
    match x with
    | none => t
    | some y => { t with svs := tabSet t.svs (freeDev t.svs) (newSv n i y) }

/-- The staged publication records of an instance take effect.
DESIGN CHOICE, assumption 71: unsafe. -/
def Run.pubCommit (r : Run) (n : Nat) : Run :=
  let g := r.trip.gooseStaged.filter fun e => e.1 / 512 == n
  let v := r.trip.svStaged.filter fun e => e.1 / 512 == n
  r.modTrip fun t =>
    let t := g.foldl (fun (t : Trip) e => t.putGoose n (e.1 % 512) e.2) t
    let t := v.foldl (fun (t : Trip) e => t.putSv n (e.1 % 512) e.2) t
    { t with gooseStaged := t.gooseStaged.filter (fun e => e.1 / 512 != n), svStaged := t.svStaged.filter (fun e => e.1 / 512 != n) }

/-- The publications of a destroyed instance leave the device. -/
def Run.pubDestroy (r : Run) (n : Nat) : Run :=
  r.modTrip fun t => { t with
    gooses := t.gooses.filter (fun e => e.2.inst != n), svs := t.svs.filter (fun e => e.2.inst != n),
    gooseStaged := t.gooseStaged.filter (fun e => e.1 / 512 != n), svStaged := t.svStaged.filter (fun e => e.1 / 512 != n) }

end Sys2Proof.Machine
end

