-- ==== Sys2Proof/Machine/DrOps.lean ====
section
/-! DEFINITION. Disturbance recorders: rows, triggers, records and bandwidth (R515 to R532). -/

namespace Sys2Proof

/-- FORM is MINMAX: only at the reduced rate (R516). -/
def DrRec.minmax (x : DrRec) : Bool := x.rate == 2 && !x.mean

/-- ROW_BYTES (R519). -/
def DrRec.rowBytes (x : DrRec) : Nat :=
  let na := x.analog.length
  (8 + na * (if x.minmax then 8 else 4) + 2 * na + 4 * ((x.binary.length + 31) / 32) + 7) / 8 * 8

/-- The size of the buffer in bytes. -/
def DrRec.bufBytes (x : DrRec) : Nat := x.bufMib * 1048576

/-- The CHAN slots a recorder reads. -/
def DrRec.slots (x : DrRec) : List Nat := x.analog.filterMap fun e => match e.1 with | .chan s => some s | _ => none

end Sys2Proof

namespace Sys2Proof.Machine

/-- Recorder `d`. -/
def Run.recorder (r : Run) (d : Nat) : Option Rec := tabGet r.dr.recs d

/-- The recorders' block changed by `f`. -/
def Run.modDr (r : Run) (f : Recorder → Recorder) : Run := { r with dr := f r.dr }

/-- Recorder `d` changed by `f`. -/
def Run.modRec (r : Run) (d : Nat) (f : Rec → Rec) : Run :=
  match r.recorder d with
  | some x => r.modDr fun y => { y with recs := tabSet y.recs d (f x) }
  | none => r

/-- An event of a recorder (R537): source 768 + 2r or 769 + 2r, DATA led by its index. -/
def Run.drEvent (r : Run) (d : Nat) (ev : Ev) (offset : Nat) (data : List Int) : Run :=
  match r.recorder d with
  | some x => r.raise { ev := ev, source := 768 + 2 * d + offset, owner := some x.inst, data := (x.index : Int) :: data }
  | none => r

/-- A counter of a recorder (DRC_STAT). -/
def Run.drCount (r : Run) (d k : Nat) : Run := r.modRec d fun x => { x with stat := tabInc x.stat k }

/-- R_R of the channels of a reduced-rate recorder; 1 of another. -/
def Run.recRr (r : Run) (x : DrRec) : Nat :=
  if x.rate ≠ 2 then 1
  else match x.slots.head?.bind fun s => tabGet r.cfl.chans s with
    | some c => c.record.rr
    | none => 1

/-- Q ticks from one instant of the rate to the next. -/
def Run.recStep (r : Run) (x : DrRec) : Nat := if x.rate = 0 then 1 else if x.rate = 1 then 3 else 3 * r.recRr x

/-- The recorder writes rows (Table 15.3). -/
def DrPhase.writes : DrPhase → Bool
  | .armed | .recording | .rearm => true
  | _ => false

/-- The recording island works (Table 19.3). -/
def Run.drRuns (r : Run) : Bool := !r.flt.lasting.contains 26

/-! ### Records (R525, R532) -/

/-- The instant of a row, in ns. -/
def DrRow.at' (w : DrRow) : Rat := qInstant w.q

/-- The first instant a record spans. -/
def DrRecord.from' (x : DrRecord) : Rat := (x.first.instant : Rat) - (x.record.pre : Rat) * 1000000

/-- The rows of a ring that a record spans. -/
def DrRecord.spans (x : DrRecord) (ring : List DrRow) : List DrRow :=
  ring.filter fun w => decide (x.from' ≤ w.at') && decide (w.at' < (x.stop' : Rat))

/-- The rows PRE calls for and a ring that begins with row `w` lacks: instants of the grid of that row in [T_first − PRE, T_first)
before it.
DEDUCED, assumption 91: unsafe. -/
def DrRecord.preLacks (x : DrRecord) (w : DrRow) (step : Nat) : Nat :=
  let s := qInstant (step * 2 ^ w.h)
  let place (t : Rat) : Int := -((-(t - w.at') / s).floor)
  (min 0 (place x.first.instant) - place x.from').toNat

/-- The rows before T_first. -/
def DrRecord.preRows (x : DrRecord) (rows : List DrRow) : Nat :=
  (rows.filter fun w => decide (w.at' < (x.first.instant : Rat))).length

/-- The rows of a record differ in TQ. -/
def tqChange (rows : List DrRow) : Bool :=
  let tqs := (rows.flatMap fun w => w.quals.map (· / 4096)).eraseDups
  decide (1 < tqs.length)

/-- FLAGS of Table 15.4. -/
def DrRecord.flags (x : DrRecord) : Nat :=
  let b (v : Bool) (k : Nat) : Nat := if v then k else 0
  b x.preShort 1 + b x.rateReduced 2 + b x.extended 4 + b x.maskFail 8 + b (x.first.cause == 5) 16 +
    b (tqChange x.rows) 32 + b x.truncated 64

/-- The segments of a record: first row and h of each (Table 15.4). -/
def segmentsOf (rows : List DrRow) : List (Nat × Nat) :=
  (List.range rows.length).filterMap fun i =>
    match rows[i]? with
    | none => none
    | some w =>
      if i = 0 then some (0, w.h)
      else match rows[i - 1]? with
        | some v => if v.h < w.h then some (i, w.h) else none
        | none => none

/-- The header of a closed record (Table 15.4), in the order of its fields. -/
def DrRecord.header (x : DrRecord) (index buf : Nat) : List Int :=
  let segs := segmentsOf x.rows
  let seg (i : Nat) : List Int := match segs[i]? with | some (a, h) => [a, h] | none => [0, 0]
  let trig (i : Nat) : List Int :=
    match x.trigs[i]? with
    | some t => [(secOf t.instant : Int), nsOf t.instant, t.cause, t.index]
    | none => [0, 0, 0, 0]
  [(x.number : Int), index, x.flags, x.epoch.toNat, secOf x.first.instant, nsOf x.first.instant, x.first.cause, x.first.index,
   x.rows.length, x.preRows x.rows, x.rowBytes, x.place % (max buf 1), x.record.rate, segs.length, x.rr,
   (x.maskTests.map fun t => 2 ^ t).sum] ++ (List.range 5).flatMap seg ++ [(x.trigs.length : Int)] ++ (List.range 16).flatMap trig

/-- UTC_OFFSET at an instant not past, over the last leap second (R223).
DEDUCED, assumption 91: unsafe. -/
def Tsu.utcAt (t : Tsu) (x : Rat) : Int :=
  match t.lastLeap with
  | some (leap, before) => if x < (leap : Rat) then before else t.regs.utcOffset
  | none => t.regs.utcOffset

/-- leapsec of Table 15.5: 1 for a second inserted within the rows, 2 for one deleted. -/
def Tsu.leapWithin (t : Tsu) (rows : List DrRow) : Nat :=
  match t.lastLeap, rows.head?, rows.getLast? with
  | some (leap, before), some a, some b =>
    if a.at' < (leap : Rat) ∧ (leap : Rat) ≤ b.at' then (if before < t.regs.utcOffset then 1 else 2) else 0
  | _, _, _ => 0

/-- The open record closes: its rows leave the ring, and it enters the directory of 64 (R524, R525, R528). True when the
directory is full and the record finds no place.
DEDUCED, assumption 91: unsafe. -/
def Run.drClose (r : Run) (d : Nat) (truncated : Bool) : Run × Bool :=
  match r.recorder d with
  | none => (r, false)
  | some x =>
    match x.current with
    | none => (r, false)
    | some c =>
      let rb := x.record.rowBytes
      let rows := c.spans x.ring
      let before := (x.ring.takeWhile fun w => decide (w.at' < c.from')).length
      let short : Bool := match x.ring.head? with
        | some w => decide (0 < c.preLacks w (r.recStep x.record))
        | none => decide (0 < x.record.pre)
      let done := { c with truncated := truncated, preShort := short, rows := rows, rr := if x.record.rate = 2 then r.recRr x.record else 0,
                           rowBytes := rb, place := x.written - (x.ring.length - before) * rb,
                           utcFirst := r.tsu.utcAt ((rows.head?.map DrRow.at').getD c.first.instant),
                           utcTrig := r.tsu.utcAt c.first.instant, leap := r.tsu.leapWithin rows }
      let r := r.modRec d fun y => { y with
        current := none, ring := y.ring.filter fun w => !decide (w.at' < (c.stop' : Rat)) }
      let full := decide (64 ≤ x.held.length)
      if full && !x.record.overwrite then (r, true)
      else
        let r := if full then (r.modRec d fun y => { y with held := y.held.drop 1 }).drCount d 7 else r
        let r := (r.modRec d fun y => { y with held := y.held ++ [done] }).drCount d 0
        (r.drEvent d .drRecord 0 [done.number, done.flags, done.rows.length], false)

/-- A change of state raises EV_DR_STATE (R524). -/
def Run.drPhase (r : Run) (d : Nat) (was p : DrPhase) (cause : Nat) : Run :=
  let at' := r.now
  let r := r.modRec d fun y => { y with
    phase := p, stopCause := cause, armedAt := if p = .armed then at' else y.armedAt,
    ring := if p = .armed && was != .rearm then [] else y.ring }
  r.drEvent d .drState 1 [was.code, p.code, cause]

/-- A change of state (R524): a record that is open closes, with TRUNCATED when its recorder leaves RECORDING. Where the directory has
no place for it the recorder enters FULL (R528), and goes on from there when its instance leaves ACTIVE.
DEDUCED, assumption 91: unsafe. -/
def Run.drEnter (r : Run) (d : Nat) (p : DrPhase) (cause : Nat) : Run :=
  match r.recorder d with
  | none => r
  | some x =>
    if x.phase = p then r
    else
      let (r, full) : Run × Bool :=
        match p with
        | .idle | .stopped | .full => r.drClose d (x.phase == .recording && !(p == .stopped && cause == 4))
        | .armed => r.drClose d false
        | _ => (r, false)
      if full then
        let r := r.drPhase d x.phase .full 2
        if p = .idle then r.drPhase d .full .idle 0 else r
      else r.drPhase d x.phase p cause

/-! ### Bandwidth (R530) -/

/-- Rows per second at halving level 0. -/
def Run.recRate (r : Run) (x : DrRec) : Rat := (14400 : Rat) / (r.recStep x : Rat)

/-- The demand of a recorder in bytes per second. -/
def Run.drDemand (r : Run) (x : Rec) : Rat :=
  if x.phase.writes then (x.record.rowBytes : Rat) * r.recRate x.record / ((2 ^ x.h : Nat) : Rat) else 0

/-- The sum of demands. -/
def Run.drTotal (r : Run) : Rat := (r.dr.recs.map fun e => r.drDemand e.2).sum

/-- DR_BW in bytes per second. -/
def Recorder.limit (y : Recorder) : Rat := (y.bw : Rat) * 100000000

/-- Halving levels rise, highest device number first, until the demands fit; with all at 4 recorders stop. -/
def Run.drFit : Nat → Run → Run
  | 0, r => r
  | fuel + 1, r =>
    if r.drTotal ≤ r.dr.limit then r
    else
      let writing := r.dr.recs.filter fun e => e.2.phase.writes
      match (writing.filter fun e => decide (e.2.h < 4)).getLast? with
      | some (d, x) =>
        let r := (r.modRec d fun y => { y with
          h := y.h + 1, current := y.current.map fun c => { c with rateReduced := true } }).drCount d 4
        Run.drFit fuel (r.drEvent d .drRate 1 [x.h + 1])
      | none =>
        match writing.getLast? with
        | some (d, _) => Run.drFit fuel (r.drEnter d .stopped 3)
        | none => r

/-- At the end of a REARM: the smallest h for which the sum fits. -/
def Run.drBestH (r : Run) (d : Nat) : Run :=
  match r.recorder d with
  | none => r
  | some x =>
    let fits (h : Nat) : Bool :=
      decide ((r.modRec d fun y => { y with h := h }).drTotal ≤ r.dr.limit)
    match (List.range 5).find? fits with
    | some h => if h = x.h then r else (r.modRec d fun y => { y with h := h })
    | none => r.modRec d fun y => { y with h := 4 }

/-! ### Mask tests (R527) -/

/-- The value a part `k`, of 0 to 1, of the way from one to another: at either end that end's; an infinite end draws every value
between to it, and two infinities of opposite sign, or a NaN, leave none between.
DEDUCED, assumption 91: unsafe. -/
def FVal.between (a b : FVal) (k : Rat) : FVal :=
  if k = 0 then a
  else if k = 1 then b
  else match a, b with
    | .fin _ p, .fin _ q => let v := p + (q - p) * k; .fin (decide (v < 0)) v
    | a, b => a.add b

/-- LOWER and UPPER of a test at a time in µs, interpolated linearly; none outside its breakpoints. -/
def MaskTest.limits (points : List (Int × Word × Word)) (t : Rat) : Option (FVal × FVal) :=
  match points with
  | (t0, l0, u0) :: rest =>
    match rest with
    | (t1, l1, u1) :: _ =>
      if (t0 : Rat) ≤ t ∧ t ≤ (t1 : Rat) then
        let k := if t1 = t0 then 0 else (t - t0) / ((t1 - t0 : Int) : Rat)
        some ((val32 l0).between (val32 l1) k, (val32 u0).between (val32 u1) k)
      else MaskTest.limits rest t
    | [] => if t = (t0 : Rat) then some (val32 l0, val32 u0) else none
  | [] => none

/-- A row of a record violates a test. -/
def violates (m : MaskTest) (first : Instant) (w : DrRow) : Bool :=
  match MaskTest.limits m.points ((w.at' - (first : Rat)) / 1000), w.values[m.chan]?, w.quals[m.chan]? with
  | some (lo, hi), some (a, b), some q => q % 4 == 1 || (val32 a).lt lo || hi.lt (val32 b)
  | _, _, _ => false

/-- The rows that have entered the open record since the last look are tested. -/
def Run.drMasks (r : Run) (d : Nat) : Run :=
  match r.recorder d with
  | none => r
  | some x =>
    match x.current with
    | none => r
    | some c =>
      let rows := c.spans x.ring
      let hits := (List.range rows.length).flatMap fun i =>
        if i < c.tested then []
        else match rows[i]? with
          | some w => x.masks.filterMap fun (t, m) => if violates m c.first.instant w then some (t, i) else none
          | none => []
      let tests := hits.foldl (fun l e => setIns l e.1) c.maskTests
      let r := r.modRec d fun y => { y with
        current := y.current.map fun c => { c with tested := rows.length, maskTests := tests, maskFail := c.maskFail || !hits.isEmpty } }
      match hits with
      | (t, i) :: _ => if c.maskFail then r else (r.drCount d 5).drEvent d .drMask 1 [c.number, t, i]
      | [] => r

/-! ### The end of the window, triggers -/

/-- RECORDING ends once the last post-trigger row is written (R524). -/
def Run.drSettle (r : Run) (d : Nat) : Run :=
  let r := r.drMasks d
  match r.recorder d with
  | none => r
  | some x =>
    match x.phase, x.current, x.ring.getLast? with
    | .recording, some c, some w =>
      if (c.stop' : Rat) ≤ qInstant (w.q + r.recStep x.record * 2 ^ x.h) then
        if x.record.maskStop ∧ c.maskFail then r.drEnter d .stopped 4
        else
          let at' := r.ticks
          (r.modRec d fun y => { y with rearmAt := at' + usTicks y.record.rearm }).drEnter d .rearm 0
      else r
    | _, _, _ => r

/-- A recorder drives its XTRIG_OUT lines low for XTRIG_W (R523). -/
def Run.drPulse (r : Run) (d : Nat) : Run :=
  match r.recorder d with
  | none => r
  | some x =>
    x.record.xout.foldl (fun (r : Run) n =>
      let till := r.ticks + usTicks x.record.xtrigW
      let old := ((tabGet r.dr.xout n).map (·.recs)).getD []
      let r := if old.isEmpty then r.emit (.ball (.xtrigOut n) .low) else r
      r.modDr fun y => { y with xout := tabSet y.xout n { recs := setIns old d, till := till } }) r

/-- EV_DR_MISSED, at most once per recorder in 100 ms (R537). -/
def Run.drMissed (r : Run) (d cause : Nat) : Run :=
  match r.recorder d with
  | none => r
  | some x =>
    let r := r.drCount d (if cause = 1 then 2 else 3)
    let at' := r.now
    let quiet : Bool := match x.missAt with | some t => decide (at' < t + 100000000) | none => false
    if quiet then r.modRec d fun y => { y with missSince := y.missSince + 1 }
    else (r.modRec d fun y => { y with missSince := 0, missAt := some at' }).drEvent d .drMissed 1 [cause, (x.missSince + 1) % 65536]

/-- Of two triggers that reach a recorder in one cycle, the first is taken first: ascending T_i, then CAUSE (R524).
DEDUCED, assumption 91: unsafe. -/
def DrTrig.before (a b : DrTrig) : Bool :=
  a.arrived == b.arrived && (decide (a.instant < b.instant) || (a.instant == b.instant && decide (a.cause < b.cause)))

/-- A trigger put into the order in which those of its cycle are taken, after all earlier ones.
DEDUCED, assumption 91: unsafe. -/
def placeTrig (l : List DrTrig) (t : DrTrig) : List DrTrig :=
  let later := (l.reverse.takeWhile fun u => t.before u).reverse
  l.take (l.length - later.length) ++ [t] ++ later

/-- A record that a trigger opens. -/
def DrRecord.opened (c : DrRecord) (t : DrTrig) : DrRecord :=
  { c with first := t, stop' := t.instant + c.record.post * 1000000, trigs := [], extended := false, tested := 0 }

/-- A further trigger is listed in the open record, and with EXTEND moves the end of its window (Table 15.3). -/
def DrRecord.listed (c : DrRecord) (t : DrTrig) : DrRecord :=
  let stop' := max c.stop' (min (t.instant + c.record.post * 1000000) (c.first.instant + 60000000000))
  { c with trigs := (placeTrig c.trigs t).take 16,
           extended := c.extended || c.record.extend,
           stop' := if c.record.extend then stop' else c.stop' }

/-- A trigger taken into the open record: listed, or, where it comes before the one that opened it in the same cycle, its opener. -/
def DrRecord.taken (c : DrRecord) (t : DrTrig) : DrRecord :=
  if t.before c.first then (c.first :: c.trigs).foldl DrRecord.listed (c.opened t) else c.listed t

/-- The Cellar record of the trigger that started a record (R523, Table 16.2). -/
def Rec.trigData (d number : Nat) (t : DrTrig) : List Int := [d, t.cause, t.index, number]

/-- A trigger of the cycle that started the open record takes the place of the one that its Cellar record, still staged, tells of.
DEDUCED, assumption 91: unsafe. -/
def Run.drRestage (r : Run) (d : Nat) (c : DrRecord) (t : DrTrig) : Run :=
  if !t.before c.first then r
  else { r with cel := { r.cel with stage := r.cel.stage.map fun x =>
    if x.type = 0x0013 ∧ x.source = 768 + 2 * d ∧ x.data = Rec.trigData d c.number c.first then
      { x with micros := t.instant / 1000, tq := r.tsu.tqAt t.instant, data := Rec.trigData d c.number t } else x } }

/-- A further trigger reaches a recorder with an open record. -/
def Run.drList (r : Run) (d : Nat) (t : DrTrig) : Run :=
  match r.recorder d with
  | none => r
  | some x =>
    let r := match x.current with | some c => r.drRestage d c t | none => r
    let r := (r.modRec d fun y => { y with current := y.current.map fun c => c.taken t }).drCount d 1
    if x.record.extend then r.drPulse d else r

/-- A trigger reaches a recorder (Table 15.3).
DEDUCED, assumption 91: unsafe. -/
def Run.drTrigger (r : Run) (d : Nat) (t : DrTrig) : Run :=
  match r.recorder d with
  | none => r
  | some x =>
    let t := { t with arrived := r.ticks }
    if !r.drRuns then r
    else match x.phase with
    | .idle => r
    | .armed =>
      let c : DrRecord := { number := x.number, epoch := r.epoch, first := t, stop' := t.instant + x.record.post * 1000000, record := x.record }
      let r := r.modRec d fun y => { y with current := some c, number := (y.number + 1) % 65536 }
      let r := r.stage { type := 0x0013, time := t.instant, source := 768 + 2 * d, inst := x.inst, data := Rec.trigData d c.number t }
      ((r.drEnter d .recording 0).drPulse d).drSettle d
    | .recording => (r.drList d t).drSettle d
    | .rearm => if x.record.extend then ((r.drList d t).drEnter d .recording 0).drSettle d else r.drMissed d 1
    | .stopped | .full => r.drMissed d 2

/-- A trigger reaches every recorder that `p` picks, in ascending device number. -/
def Run.drTriggerAll (r : Run) (p : Nat → Rec → Bool) (t : DrTrig) : Run :=
  r.dr.recs.foldl (fun (r : Run) e => if p e.1 e.2 then r.drTrigger e.1 t else r) r

/-! ### Rows (R518, R519, R531) -/

/-- What one analog channel gives a row at Q tick `q`, as far as the tick's processing knows it: none for a NODE channel. -/
def Run.drValue (r : Run) (rate q : Nat) : DrAnalog → (Word × Word) × Nat
  | .chan s =>
    if rate = 0 then
      match (tabGet r.cfl.chans s).bind fun c => c.qRing.find? fun o => o.tick == q with
      | some o => ((o.value, o.value), o.quality)
      | none => ((0, 0), 1)
    else match r.cfl.pOut s (q / 3) with
      | some o => ((o.value, o.value), o.quality)
      | none => ((0, 0), 1)
  | .node _ _ => ((0, 0), 1)

/-- Minimum, with the second where the first is a NaN. -/
def min32 (a b : Word) : Word := if (val32 b).lt (val32 a) || isNan32 a then b else a

/-- MIN, MAX and quality over the values of some ticks.
DEDUCED, assumption 91: unsafe. -/
def foldWindow (l : List (Word × Nat)) : DrAcc :=
  match l with
  | [] => { lo := 0, hi := 0, sum := 0, quality := 1 }
  | (v, q) :: t => t.foldl (fun (a : DrAcc) e =>
      { a with lo := min32 a.lo e.1, hi := max32 a.hi e.1, quality := joinQ (a.quality % 4096) (e.2 % 4096) + a.quality / 4096 * 4096 })
      { lo := v, hi := v, sum := 0, quality := q }

/-- Two intervals of a channel merged (R531). -/
def DrAcc.merge (a b : DrAcc) : DrAcc :=
  { lo := min32 a.lo b.lo, hi := max32 a.hi b.hi, sum := add64 a.sum b.sum,
    quality := joinQ (a.quality % 4096) (b.quality % 4096) + b.quality / 4096 * 4096 }

/-- One interval of a reduced-rate channel at P tick `p`. -/
def Run.drInterval (r : Run) (mean : Bool) (a : DrAnalog) (window : List (Word × Nat)) : DrAcc :=
  if mean then
    match a with
    | .chan s =>
      match (tabGet r.cfl.chans s).bind fun c => c.rRing.head? with
      | some o => { lo := 0, hi := 0, sum := widen o.value, quality := o.quality }
      | none => { lo := 0, hi := 0, sum := 0, quality := 1 }
    | .node _ _ => { lo := 0, hi := 0, sum := 0, quality := 1 }
  else foldWindow window

/-- A reduced-rate recorder takes P tick `p`; where D_R gave an output at it, an interval ends. `out` says so. -/
def Run.drReduced (r : Run) (d p : Nat) (out : Bool) : Run :=
  match r.recorder d with
  | none => r
  | some x =>
    let rr := r.recRr x.record
    let slots := x.record.analog.map (·.1)
    let window := (List.range slots.length).map fun i =>
      let v := match slots[i]? with | some a => r.drValue 2 (3 * p) a | none => ((0, 0), 1)
      ((v.1.1, v.2) :: x.window.getD i []).take rr
    let r := r.modRec d fun y => { y with window := window }
    if !out then r
    else
      let fresh := (List.range slots.length).map fun i =>
        match slots[i]? with | some a => r.drInterval x.record.mean a (window.getD i []) | none => { lo := 0, hi := 0, sum := 0, quality := 1 }
      let acc := if x.merged = 0 then fresh
        else (List.range slots.length).filterMap fun i =>
          match x.acc[i]?, fresh[i]? with | some a, some b => some (a.merge b) | _, b => b
      let n := x.merged + 1
      if n < 2 ^ x.h then r.modRec d fun y => { y with acc := acc, merged := n }
      else
        let value (a : DrAcc) : Word × Word :=
          if x.record.mean then
            let v := narrow (div64 a.sum (rat64 n))
            (v, v)
          else (a.lo, a.hi)
        let row : DrRow := { q := 3 * p, values := acc.map value, quals := acc.map (·.quality) }
        r.modRec d fun y => { y with acc := [], merged := 0, due := y.due ++ [row] }

/-- The recorders of an instance take a processed Q tick: each rate's rows become due (R518). `outs` says of a slot whether
D_R gave an output at the tick; a reduced-rate recorder without a CHAN channel takes every P tick.
DESIGN CHOICE, assumption 91: unsafe. -/
def Run.drTick (r : Run) (n q : Nat) (outs : Nat → Bool) : Run :=
  (r.dr.recs.filter fun e => e.2.inst == n).foldl (fun (r : Run) e =>
    let d := e.1
    let x := e.2.record
    let r := r.modRec d fun y => if y.phase.writes then y else { y with
      due := y.due.filter fun w => decide (r.nowExact ≤ w.at' + (r.cfl.h n : Rat) * 1000 + 625000 / 3) }
    if x.rate = 2 then
      (if q % 3 = 0 then r.drReduced d (q / 3) (match x.slots.head? with | some s => outs s | none => true) else r)
    else if x.rate = 0 ∨ q % 3 = 0 then
      let vs := x.analog.map fun a => r.drValue x.rate q a.1
      r.modRec d fun y => { y with due := y.due ++ [{ q := q, values := vs.map (·.1), quals := vs.map (·.2) }] }
    else r) r

/-- The filtered level of an input at an instant (R519).
DEDUCED, assumption 91: unsafe. -/
def Bi.levelAt (b : Bi) (t : Rat) : Bool :=
  match b.log.find? fun e => decide ((e.1 : Rat) ≤ t) with
  | some (_, v) => v
  | none => match b.log.getLast? with | some (_, v) => !v | none => b.level

/-- The element of a node as a row of P tick `k` takes it, and whether the job of that tick has not completed. -/
def NodeSt.rowElem (s : NodeSt) (k e : Nat) : Option Elem × Bool :=
  if s.tick = k then (s.out[e]?, false)
  else if s.prevTick = k then (s.prevOut[e]?, false)
  else if s.tick < k then (s.out[e]?, true)
  else (s.prevOut[e]?, true)

/-- A recorder's NODE channel.
DEDUCED, assumption 91: unsafe. -/
def Run.drNode (r : Run) (inst k n e : Nat) : Option Elem × Bool :=
  match (r.slcOf inst).nodes[n]? with
  | some s => s.rowElem k e
  | none => (none, true)

/-- The value and quality of an element, VALUE or MAG (R516). -/
def elemValue : Option Elem → Word × Nat
  | some (.scalar v q) => (v, q)
  | some (.phasor _ _ mag _ q) => (mag, q)
  | none => (0, 1)

/-- A binary channel at the writing of the row of Q tick `q`; the second part says that it counts as late. -/
def Run.drBit (r : Run) (inst q : Nat) : DrBinary → Bool × Bool
  | .bi n => ((r.trip.bis.getD n {}).levelAt (qInstant q), false)
  | .node n e =>
    let (x, late) := r.drNode inst (q / 3) n e
    ((val32 (elemValue x).1).eq (.fin false 1), late)
  | .goose s m =>
    (match tabGet r.ing.goose s with | some u => u.words.getD m 0 != 0 | none => false, false)
  | .point p => (tabGetD r.ing.points p 0 != 0, false)

/-- The next row would overwrite a held row (R528). -/
def Rec.overwrites (x : Rec) : Bool :=
  x.held.any fun c => decide (0 < c.rows.length) && decide (c.place + x.record.bufBytes < x.written + x.record.rowBytes)

/-- The oldest held records that stand in the way are dropped and counted. -/
def Run.drDropOld : Nat → Run → Nat → Run
  | 0, r, _ => r
  | fuel + 1, r, d =>
    match r.recorder d with
    | some x => if x.overwrites then Run.drDropOld fuel ((r.modRec d fun y => { y with held := y.held.drop 1 }).drCount d 7) d else r
    | none => r

/-- The oldest row that is due is written, or dropped where the state writes none or halving leaves it out (R519, R531). -/
def Run.drWrite (r : Run) (d : Nat) : Run :=
  match r.recorder d with
  | none => r
  | some x =>
    match x.due with
    | [] => r
    | w :: rest =>
      if r.nowExact < w.at' + (r.cfl.h x.inst : Rat) * 1000 + 625000 / 3 ∨ !r.drRuns then r
      else
        let r := r.modRec d fun y => { y with due := rest }
        if !x.phase.writes ∨ (x.record.rate ≠ 2 ∧ w.q / r.recStep x.record % 2 ^ x.h ≠ 0) then r
        else
          let r := if x.record.overwrite then r.drDropOld 65 d else r
          let blocked := match r.recorder d with | some y => y.overwrites | none => false
          if blocked then r.drEnter d .full 2
          else
            let node (a : DrAnalog) : Option (Option Elem × Bool) :=
              match a with | .node n e => some (r.drNode x.inst (w.q / 3) n e) | .chan _ => none
            let reads := x.record.analog.map fun a => node a.1
            let pick (i : Nat) : (Word × Word) × Nat :=
              match (reads[i]?).join with
              | some (e, _) => let v := elemValue e; ((v.1, v.1), v.2)
              | none => (w.values.getD i (0, 0), w.quals.getD i 1)
            let bits := x.record.binary.map fun b => r.drBit x.inst w.q b.1
            let late := (reads.any fun e => match e with | some (_, l) => l | none => false) || bits.any (·.2)
            let row : DrRow := { w with
              values := (List.range x.record.analog.length).map fun i => (pick i).1,
              quals := (List.range x.record.analog.length).map fun i => (pick i).2,
              bits := bits.map (·.1), h := x.h }
            let keep := x.record.bufBytes / x.record.rowBytes
            let r := r.modRec d fun y => { y with ring := lastN keep (y.ring ++ [row]), written := y.written + x.record.rowBytes }
            (if late then r.drCount d 6 else r).drSettle d

/-- REARM has ended: the record closes and the recorder arms again at the smallest h that fits (R524, R530). -/
def Run.drRearmed (r : Run) (d : Nat) : Run :=
  match r.recorder d with
  | none => r
  | some x =>
    if x.phase = .rearm ∧ x.rearmAt ≤ r.ticks ∧ r.drRuns then ((r.drEnter d .armed 0).drBestH d).drFit 100 else r

/-- A recorder arms.
DEDUCED, assumption 91: unsafe. -/
def Run.drArm (r : Run) (d : Nat) : Run := ((r.modRec d fun y => { y with h := 0, ring := [], current := none }).drEnter d .armed 0).drFit 100

/-- The recorders of an instance that enters ACTIVE arm; of one that leaves it become IDLE (R524). -/
def Run.drStart (r : Run) (n : Nat) : Run :=
  (r.dr.recs.filter fun e => e.2.inst == n && e.2.phase == .idle).foldl (fun (r : Run) e => r.drArm e.1) r

/-- See `Run.drStart`. -/
def Run.drStop (r : Run) (n : Nat) : Run :=
  (r.dr.recs.filter fun e => e.2.inst == n).foldl (fun (r : Run) e =>
    (r.drEnter e.1 .idle 0).modRec e.1 fun y => { y with due := [], window := [], acc := [], merged := 0 }) r

end Sys2Proof.Machine
end

