-- ==== Sys2Proof/Machine/Recorders.lean ====
section
/-! DEFINITION. The steps of chapter 15: rows, triggers, and the recorder commands; what a commit does to recorders. -/

namespace Sys2Proof

/-- Every field of a recorder record in its range (Table 15.1). -/
def DrRec.ok (x : DrRec) : Bool :=
  decide (x.rate ≤ 2) && decide (x.analog.length ≤ 1024) && decide (x.binary.length ≤ 1024) &&
    decide (1 ≤ x.analog.length + x.binary.length) && decide (x.pre ≤ 10000) && decide (1 ≤ x.post) && decide (x.post ≤ 60000) &&
    decide (1000 ≤ x.rearm) && decide (x.rearm ≤ 60000000) && decide (100 ≤ x.autoT) && decide (x.autoT ≤ 3600000) &&
    decide (1 ≤ x.xtrigW) && decide (x.xtrigW ≤ 1000) && x.xout.all (fun n => decide (n < 4)) && x.xin.all (fun n => decide (n < 4)) &&
    x.biRise.all (fun n => decide (n < 32)) && x.biFall.all (fun n => decide (n < 32)) &&
    x.analog.all (fun e => decide (e.2.1 ≤ 2) && decide (e.2.2.length ≤ 32)) && x.binary.all (fun e => decide (e.2.2.length ≤ 32))

/-- Breakpoints of a mask test: 2 to 32 in ascending time (R527). -/
def maskPointsOk (l : List (Int × Word × Word)) : Bool :=
  decide (2 ≤ l.length) && decide (l.length ≤ 32) &&
    (List.range (l.length - 1)).all fun i =>
      match l[i]?, l[i + 1]? with | some a, some b => decide (a.1 < b.1) | _, _ => false

end Sys2Proof

namespace Sys2Proof.Machine

/-! ### Steps of the engines and of the wires -/

/-- DR_ROW_WRITE (R519): the oldest row due of recorder `d` is written. -/
def execDrRowWrite (d dt : Nat) (s : State) : Host.Outcome State Fault Refusal :=
  whenRunning s fun _ r => (r.pass dt).drWrite d

/-- XTRIG_IN_EDGE (R520, R522): XTRIG_IN_n falls. -/
def execXtrigInEdge (n dt : Nat) (s : State) : Host.Outcome State Fault Refusal :=
  whenRunning s fun _ r =>
    let r := r.pass dt
    let own := ((tabGet r.dr.xout n).map (·.recs)).getD []
    r.drTriggerAll (fun d x => x.record.xin.contains n && !own.contains d) { instant := r.now, cause := 3, index := n }

/-- DR_AUTO_TRIGGER (R526): the first row at or past AUTO_T after ARMED has been written.
DEDUCED, assumption 91: unsafe. -/
def execDrAutoTrigger (d dt : Nat) (s : State) : Host.Outcome State Fault Refusal :=
  whenRunning s fun _ r =>
    let r := r.pass dt
    match r.recorder d with
    | none => r
    | some x =>
      if x.phase ≠ .armed ∨ !x.record.auto then r
      else match x.ring.find? fun w => decide ((x.armedAt : Rat) + (x.record.autoT : Rat) * 1000000 ≤ w.at') with
        | some w => r.drTrigger d { instant := w.at'.floor.toNat, cause := 5 }
        | none => r

/-- DR_REARM_EXPIRY (R524). -/
def execDrRearmExpiry (d dt : Nat) (s : State) : Host.Outcome State Fault Refusal :=
  whenRunning s fun _ r => (r.pass dt).drRearmed d

/-- XTRIG_OUT_PULSE_END (R523): the board's pull-up releases the line. -/
def execXtrigOutPulseEnd (n dt : Nat) (s : State) : Host.Outcome State Fault Refusal :=
  whenRunning s fun _ r =>
    let r := r.pass dt
    match tabGet r.dr.xout n with
    | some x => if x.till ≤ r.ticks then (r.modDr fun y => { y with xout := tabDel y.xout n }).emit (.ball (.xtrigOut n) .z) else r
    | none => r

/-! ### Records staged -/

/-- The recorders of an instance as the staged changes would leave them: index and record. -/
def Run.drView (r : Run) (n : Nat) : List (Nat × DrRec) :=
  (List.range 16).filterMap fun i =>
    match tabGet r.dr.staged (16 * n + i) with
    | some x => x.map fun x => (i, x)
    | none => (r.dr.recs.find? fun e => e.2.inst == n && e.2.index == i).map fun e => (i, e.2.record)

/-- The committed recorder of an index. -/
def Run.drOf (r : Run) (n i : Nat) : Option (Nat × Rec) := r.dr.recs.find? fun e => e.2.inst == n && e.2.index == i

/-- DRC_SET (R516): staged. -/
def execDrcSet (c : Cmd) (index : Nat) (x : DrRec) (s : State) : Host.Outcome State Fault Refusal :=
  runCmd { op := 0x0B00, pf0 := false, buf := true, need := some (64 + 40 * (x.analog.length + x.binary.length)) } c s fun a r =>
    onSubs a r fun n =>
      if 16 ≤ index ∨ !x.ok then (r, .status .range)
      else (r.modDr fun y => { y with staged := tabSet y.staged (16 * n + index) (some x) }, .ok)

/-- DRC_DELETE: staged. -/
def execDrcDelete (c : Cmd) (index : Nat) (s : State) : Host.Outcome State Fault Refusal :=
  runCmd { op := 0x0B01, pf0 := false } c s fun a r =>
    onSubs a r fun n =>
      if (r.drView n).any fun e => e.1 == index then
        (r.modDr fun y => { y with staged := tabSet y.staged (16 * n + index) none }, .ok)
      else (r, .status .range)

/-- DRC_MASK_SET (R527): staged; no breakpoints delete the test. -/
def execDrcMaskSet (c : Cmd) (index test chan : Nat) (points : List (Int × Word × Word)) (s : State) :
    Host.Outcome State Fault Refusal :=
  runCmd { op := 0x0B02, pf0 := false, buf := !points.isEmpty, need := some (12 * points.length) } c s fun a r =>
    onSubs a r fun n =>
      match (r.drView n).find? fun e => e.1 == index with
      | none => (r, .status .range)
      | some (_, x) =>
        if 8 ≤ test ∨ (!points.isEmpty && (!maskPointsOk points || decide (x.analog.length ≤ chan))) then (r, .status .range)
        else
          let m : Option MaskTest := if points.isEmpty then none else some { chan := chan, points := points }
          (r.modDr fun y => { y with masksStaged := tabSet y.masksStaged (8 * (16 * n + index) + test) m }, .ok)

/-! ### Commands on committed recorders -/

/-- A command on a committed recorder. -/
def onRec (a : Accepted) (r : Run) (index : Nat) (f : Nat → Rec → Run × Answer) : Run × Answer :=
  onSubs a r fun n =>
    match r.drOf n index with
    | some (d, x) => f d x
    | none => (r, .status .range)

/-- DRC_TRIGGER: the instant given, or the arrival time if it is 0 (Table 15.2). -/
def execDrcTrigger (c : Cmd) (index seconds ns : Nat) (s : State) : Host.Outcome State Fault Refusal :=
  runCmd { op := 0x0B03, pf0 := false } c s fun a r =>
    onRec a r index fun d _ =>
      if 1000000000 ≤ ns then (r, .status .range)
      else
        let t : Instant := if seconds = 0 ∧ ns = 0 then r.now else seconds * 1000000000 + ns
        (r.drTrigger d { instant := t, cause := 4 }, .ok)

/-- A recorder has room to arm: neither the next row nor the next record meets a held one, or OVERWRITE drops it. -/
def Rec.roomToArm (x : Rec) : Bool := x.record.overwrite || (!x.overwrites && decide (x.held.length < 64))

/-- DRC_ARM (R524): STOPPED or FULL arms if space allows; elsewhere a recorder that writes has nothing to do.
DEDUCED, assumption 91: unsafe. -/
def execDrcArm (c : Cmd) (index : Nat) (s : State) : Host.Outcome State Fault Refusal :=
  runCmd { op := 0x0B04, pf0 := false } c s fun a r =>
    onRec a r index fun d x =>
      match x.phase with
      | .stopped | .full => if x.roomToArm then (r.drArm d, .ok) else (r, .status .state)
      | .idle => (r, .status .state)
      | _ => (r, .ok)

/-- DRC_STOP (R524).
DEDUCED, assumption 91: unsafe. -/
def execDrcStop (c : Cmd) (index : Nat) (s : State) : Host.Outcome State Fault Refusal :=
  runCmd { op := 0x0B04, pf0 := false } c s fun a r =>
    onRec a r index fun d _ => (r.drEnter d .stopped 1, .ok)

/-- DRC_LIST: the headers of the held records, oldest first. -/
def execDrcList (c : Cmd) (index : Nat) (s : State) : Host.Outcome State Fault Refusal :=
  runCmd { op := 0x0B05, pf0 := false } c s fun a r =>
    onRec a r index fun _ x =>
      (r, .done { buffer := x.held.flatMap fun h => h.header x.index x.record.bufBytes, bufLen := 288 * x.held.length })

/-- The held record of a number. -/
def Rec.heldRecord (x : Rec) (number : Nat) : Option DrRecord := x.held.find? fun h => h.number == number

/-- The binary channels of a row, 32 to a word (R517). -/
def packBits (per : Nat) (l : List Bool) : List Nat :=
  (List.range ((l.length + per - 1) / per)).map fun w =>
    ((List.range per).map fun j => if l.getD (per * w + j) false then 2 ^ j else 0).sum

/-- The octets of a row: second, tick, values, qualities, bits, padded to 8 bytes (R519). -/
def DrRow.octets (x : DrRec) (w : DrRow) : List Nat :=
  let tick := if x.rate = 0 then w.q % 14400 else w.q / 3 % 4800
  let o := leOctets 6 (w.q / 14400) ++ leOctets 2 tick ++ (w.values.flatMap fun v =>
    if x.minmax then leOctets 4 v.1.toNat ++ leOctets 4 v.2.toNat else leOctets 4 v.1.toNat) ++
    w.quals.flatMap (leOctets 2) ++ (packBits 32 w.bits).flatMap (leOctets 4)
  o ++ List.replicate ((8 - o.length % 8) % 8) 0

/-- DRC_READ: raw rows of a held record. -/
def execDrcRead (c : Cmd) (index number first rows : Nat) (s : State) : Host.Outcome State Fault Refusal :=
  runCmd { op := 0x0B06, pf0 := false } c s fun a r =>
    onRec a r index fun _ x =>
      match x.heldRecord number with
      | none => (r, .status .drRecord)
      | some h =>
        if h.rows.length < first + rows then (r, .status .range)
        else (r, .done { buffer := (((h.rows.drop first).take rows).flatMap (DrRow.octets h.record)).map Int.ofNat, bufLen := rows * h.rowBytes })

/-! ### COMTRADE (R533) -/

/-- The .dat sample of row `i` (Table 15.5). -/
def datSample (first : DrRow) (x : DrRec) (i : Nat) (w : DrRow) : List Nat :=
  let t := ((w.at' - first.at') / 1000 + 1 / 2).floor.toNat
  let values := w.values.flatMap fun v => if x.minmax then leOctets 4 v.1.toNat ++ leOctets 4 v.2.toNat else leOctets 4 v.1.toNat
  let status := w.bits ++ w.quals.map fun q => q % 4 == 0
  leOctets 4 (i + 1) ++ leOctets 4 t ++ values ++ (packBits 16 status).flatMap (leOctets 2)

/-- tmq_code (Table 15.5). -/
def tmqCode (rows : List DrRow) : Nat :=
  let tqs := rows.flatMap fun w => w.quals.map fun q => q / 4096 % 4
  if tqs.contains 2 then 0xF else if tqs.contains 1 then 0xB else 0

/-- What the .cfg and .inf texts are made of: the header, names and units, rates, times, lf and the qualities.
DESIGN CHOICE, assumption 25: safe. -/
def Run.comtradeItems (r : Run) (serial d : Nat) (x : Rec) (h : DrRecord) : List Int :=
  let fnom : Nat := match h.record.slots.head?.bind fun s => tabGet r.cfl.chans s with
    | some c =>
      match tabGet r.ing.sv c.stream with
      | some u => (match u.record with | .sv v => v.fnom | .goose _ => 0)
      | none => 0
    | none => 0
  let firstNs : Nat := match h.rows.head? with | some w => w.at'.floor.toNat | none => 0
  let range (l : List Word) : List Int :=
    [((l.foldl min32 (l.head?.getD 0)).toNat : Int), (l.foldl max32 (l.head?.getD 0)).toNat]
  let minMax := (List.range h.record.analog.length).flatMap fun i =>
    let l := h.rows.map fun w => w.values.getD i (0, 0)
    range (l.map (·.1)) ++ if h.record.minmax then range (l.map (·.2)) else []
  [(serial : Int), d, fnom, firstNs, h.utcFirst, h.first.instant, h.utcTrig, tmqCode h.rows, h.leap] ++
    h.header x.index x.record.bufBytes ++ (h.record.analog.flatMap fun e => (e.2.1 : Int) :: e.2.2.map Int.ofNat) ++
    (h.record.binary.flatMap fun e => (if e.2.1 then 1 else 0) :: e.2.2.map Int.ofNat) ++ minMax ++
    (h.rows.flatMap fun w => w.quals.map Int.ofNat)

/-- DRC_EXPORT (R533): the index, then the .cfg, .dat and .inf files. -/
def execDrcExport (c : Cmd) (index number : Nat) (s : State) : Host.Outcome State Fault Refusal :=
  runQuery { op := 0x0B07, pf0 := false } c s fun a sys r =>
    (onRec a r index fun d x =>
      match x.heldRecord number with
      | none => (r, .status .drRecord)
      | some h =>
        let items := r.comtradeItems sys.serial d x h
        let cfg := Config.comtradeCfg items
        let inf := Config.comtradeInf items
        let first := h.rows.head?.getD { q := 0, values := [], quals := [] }
        let dat := (List.range h.rows.length).flatMap fun i =>
          match h.rows[i]? with | some w => datSample first h.record i w | none => []
        let len := 32 + cfg.length + dat.length + inf.length
        let head : List Nat := [32, cfg.length, 32 + cfg.length, dat.length, 32 + cfg.length + dat.length, inf.length]
        (r, .done { buffer := (head ++ cfg ++ dat ++ inf).map Int.ofNat, bufLen := len })).2

/-- DRC_RELEASE: a held record is freed. -/
def execDrcRelease (c : Cmd) (index number : Nat) (s : State) : Host.Outcome State Fault Refusal :=
  runCmd { op := 0x0B08, pf0 := false } c s fun a r =>
    onRec a r index fun d x =>
      match x.heldRecord number with
      | none => (r, .status .drRecord)
      | some _ => (r.modRec d fun y => { y with held := y.held.filter fun h => h.number != number }, .ok)

/-! ### What a commit does to recorders (R515, R517) -/

/-- Rows that PRE + POST take at the configured rate. -/
def Run.windowRows (r : Run) (x : DrRec) : Nat := (ceilRat (((x.pre + x.post : Nat) : Rat) * r.recRate x / 1000)).toNat

/-- A line XTRIG_OUT_k that another instance has claimed, so that an instance whose record names it has not (R517, Table 3.5).
DEDUCED, assumption 91: unsafe. -/
def Run.xoutElsewhere (r : Run) (n k : Nat) : Bool :=
  (List.range 32).any fun m => m != n && (r.inst m).claims.any fun x => x.res == 2 && x.index == k

/-- A recorder's record against the instance as its commit would leave it; `r` holds its committed channels and `g` its graph. -/
def Run.drRecBad (r : Run) (n : Nat) (g : Graph) (x : DrRec) : Bool :=
  let chan (s : Nat) : Option Chan := match tabGet r.cfl.chans s with | some c => if c.inst = n then some c else none | none => none
  let chans := x.slots.map chan
  let bool (i e : Nat) : Option Bool := outElem g i e
  let refBad := chans.any Option.isNone ||
    (x.analog.any fun e => match e.1 with | .node i k => bool i k != some false | _ => false) ||
    (x.binary.any fun e => match e.1 with
      | .node i k => bool i k != some true
      | .goose i m => (match tabGet r.ing.goose i with
          | some s => s.inst != n || (match s.record with | .goose v => decide (v.members.length ≤ m) | .sv _ => true)
          | none => true)
      | .point p => decide (131072 ≤ p)
      | .bi b => decide (32 ≤ b))
  let hasNode := x.analog.any fun e => match e.1 with | .node _ _ => true | _ => false
  let cs := chans.filterMap id
  refBad || (x.rate == 0 && (hasNode || cs.any fun c => !c.onQ)) ||
    (x.rate == 2 && (hasNode || (cs.any fun c => !c.record.drEn) || decide (1 < ((cs.map fun c => c.record.rr).eraseDups).length))) ||
    (x.mean && x.rate != 2) || x.xout.any (r.xoutElsewhere n)

/-- Why a commit is refused by the recorders; `region` is the DR region in bytes. -/
def Run.drRefuses (r : Run) (n : Nat) (g : Graph) (region : Nat) : Option Status :=
  let view := r.drView n
  let others := r.dr.recs.filter fun e => e.2.inst != n
  let total := (others.map fun e => e.2.record.bufBytes).sum + (view.map fun e => e.2.bufBytes).sum
  if 16 < others.length + view.length then some .drFull
  else if view.any fun e => r.drRecBad n g e.2 then some .drCfg
  else if (view.any fun e => decide (e.2.bufBytes < 2 * e.2.rowBytes * r.windowRows e.2)) ∨ region < total then some .drBuf
  else none

/-- The mask tests of a recorder after a commit. -/
def Run.drMaskView (r : Run) (n i : Nat) (old : Tab MaskTest) : Tab MaskTest :=
  (List.range 8).foldl (fun (t : Tab MaskTest) k =>
    match tabGet r.dr.masksStaged (8 * (16 * n + i) + k) with
    | some (some m) => tabSet t k m
    | some none => tabDel t k
    | none => t) old

/-- The staged records of an instance become committed: deleted recorders are gone with what they held; a changed one
starts anew and keeps its held records; `active` recorders arm.
DEDUCED, assumption 91: unsafe. -/
def Run.drCommit (r : Run) (n : Nat) (active : Bool) : Run :=
  let r := (List.range 16).foldl (fun (r : Run) i =>
    match tabGet r.dr.staged (16 * n + i), r.drOf n i with
    | some none, some (d, _) => r.modDr fun y => { y with recs := tabDel y.recs d }
    | _, _ => r) r
  let r := (List.range 16).foldl (fun (r : Run) i =>
    let masks := r.drMaskView n i (((r.drOf n i).map fun e => e.2.masks).getD [])
    match tabGet r.dr.staged (16 * n + i), r.drOf n i with
    | some none, _ => r
    | some (some x), some (d, _) => (r.drEnter d .idle 0).modRec d fun y => { y with
        record := x, masks := masks, due := [], ring := [], window := [], acc := [], merged := 0 }
    | some (some x), none =>
      match (List.range 16).find? fun d => (r.recorder d).isNone with
      | some d => r.modDr fun y => { y with recs := tabSet y.recs d { inst := n, index := i, record := x, masks := masks } }
      | none => r
    | _, some (d, _) => r.modRec d fun y => { y with masks := masks }
    | _, none => r) r
  let r := r.modDr fun y => { y with
    staged := y.staged.filter fun e => e.1 / 16 != n, masksStaged := y.masksStaged.filter fun e => e.1 / 128 != n }
  let r := r.drFit 100
  if active then r.drStart n else r

/-- What the recorders hold of an instance is removed. -/
def Run.drDestroy (r : Run) (n : Nat) : Run :=
  r.modDr fun y => { y with
    recs := y.recs.filter fun e => e.2.inst != n, staged := y.staged.filter fun e => e.1 / 16 != n,
    masksStaged := y.masksStaged.filter fun e => e.1 / 128 != n }

end Sys2Proof.Machine
end

