-- ==== Sys2Proof/Machine/TribOps.lean ====
section
/-! DEFINITION. Tributary: the mirror's items, its frames, and the join (R492 to R497, R652 to R656). -/

namespace Sys2Proof

/-- The record of an item: TYPE, DLEN and its data, most significant octet first (Table 14.5). -/
def Mirror.octets (m : Mirror) : List Nat :=
  let pack (t : Nat) (d : List Nat) : List Nat := t :: d.length :: d
  let o := Machine.octetsOf
  match m with
  | .latches l =>
    let mask := (List.range l.length).foldl (fun n i => if (l.getD i (false, 0)).1 then n + 2 ^ i else n) 0
    pack 1 (o 4 mask ++ l.flatMap fun e => o 2 e.2)
  | .block d st sq ts crc => pack 2 (o 2 d ++ o 4 st ++ o 4 sq ++ o 6 (ts / 4800) ++ o 2 (ts % 4800) ++ o 4 crc)
  | .groups n l => pack 3 (n :: l.flatMap fun e => [e.1, if e.2 then 1 else 0])
  | .loopMode d auto v => pack 4 ([d, if auto then 1 else 0] ++ o 4 v.toNat)
  | .var n t i f b => pack 5 ([n, t] ++ o 4 i ++ o 2 f ++ b)
  | .ledger c k n => pack 6 (o 2 c ++ o 6 (k / 4800) ++ o 2 (k % 4800) ++ o 8 n)

end Sys2Proof

namespace Sys2Proof.Machine

/-- Tributary changed by `f`. -/
def Run.modTrib (r : Run) (f : Trib → Trib) : Run := r.modTrip fun t => { t with trib := f t.trib }

/-- The P tick from the TAI epoch that has begun last. -/
def Run.pTickNow (r : Run) : Nat := (r.nowExact * 3 / 625000).floor.toNat

/-- The pieces of at most 240 bytes a variable is mirrored in: their offsets. -/
def piecesOf (size : Nat) : List Nat := (List.range ((size + 239) / 240)).map (240 * ·)

/-! ### Items -/

/-- The state an item of the mirror has now; none where what it names does not exist. -/
def Run.mirrorItem (r : Run) (k : MirrorKey) : Option Mirror :=
  match k with
  | .latches => some (.latches (r.trip.latches.map fun l => (l.set, l.changes)))
  | .block d => (r.goosePub d).map fun x =>
      .block d x.stNum x.sqNum x.ts (match x.adopted with | some c => c | none => x.crcOf (x.sent.getD x.values))
  | .groups n => some (.groups n ((r.slcOf n).sels.map fun z => (z.active, z.forced.isSome)))
  | .loopMode l => (r.loop l).map fun x => .loopMode l x.auto x.manual
  | .var n i ident off =>
    (r.task n i).bind fun t => (t.task.vars.find? fun v => v.ident == ident).map fun v =>
      .var n i ident off ((List.range (min 240 (v.size - off))).map fun a => tabGetD t.va (v.addr + off + a) 0)
  | .ledger c k n => some (.ledger c k n)

/-- Every item that goes round in rotation: an increment is sent when it is made, and not again.
DEDUCED, assumption 69: unsafe. -/
def Run.rotationKeys (r : Run) : List MirrorKey :=
  let blocks := (r.trip.gooses.filter fun e => e.2.record.twin).map fun e => MirrorKey.block e.1
  let groups := (r.slc.insts.filter fun e => e.2.graph.isSome).map fun e => MirrorKey.groups e.1
  let loops := r.mlr.loops.map fun e => MirrorKey.loopMode e.1
  let vars := r.cle.insts.flatMap fun e => e.2.tasks.flatMap fun t =>
    (t.2.task.vars.filter (·.mirror)).flatMap fun v => (piecesOf v.size).map fun off => MirrorKey.var e.1 t.1 v.ident off
  .latches :: blocks ++ groups ++ loops ++ vars

/-- An item this twin may send now: in a join that began within 10 s of its PROTECTION it sends none of types 0x03 and 0x04
(R655).
DEDUCED, assumption 69: unsafe. -/
def Trib.maySend (t : Trib) : MirrorKey → Bool
  | .groups _ | .loopMode _ => !(t.joining && t.young)
  | _ => true

/-- Items taken, in their order, while their records fit in `room` bytes: the records, and the keys left.
DEDUCED, assumption 69: unsafe. -/
def Run.fill (r : Run) : List MirrorKey → Nat → List (List Nat) × List MirrorKey
  | [], _ => ([], [])
  | k :: rest, room =>
    match r.mirrorItem k with
    | none => r.fill rest room
    | some m =>
      if room < m.octets.length then ([], k :: rest)
      else
        let (l, left) := r.fill rest (room - m.octets.length)
        (m.octets :: l, left)

/-! ### Sending (R493 to R495, R653) -/

/-- The key of Tributary in a use of its USAGE bit, as the key bus has delivered it to the publisher (R564, R570, R584): an AES key.
DESIGN CHOICE, assumption 18: unsafe. -/
def Run.tribUse (r : Run) (c : TribCfg) (usage : Nat) : Option Key :=
  match r.srm.key c.key with
  | some k =>
    if (k.type = 1 ∨ k.type = 2) ∧ r.srm.serves k 3 usage none then (r.srm.context 3 c.key).map fun m => { k with material := m } else none
  | none => none

/-- A use of a key that R570 does not serve is counted. -/
def Run.tribDenied (r : Run) (c : TribCfg) (usage : Nat) : Run :=
  if (r.srm.key c.key).isSome ∧ (r.tribUse c usage).isNone then { r with srm := { r.srm with stat := tabInc r.srm.stat 1 } } else r

/-- Tributary may send: PROTECTION has risen and HEALTHY has not fallen. -/
def Run.tribRuns (r : Run) : Option TribCfg := if !r.protection ∨ r.flt.cause ≠ 0 then none else r.trip.trib.cfg

/-- The initialisation vector of R494. -/
def tribIv (twin second tick : Nat) : Nat := twin * 2 ^ 88 + second * 2 ^ 32 + tick * 2 ^ 16

/-- The frame of P tick `k`, with the changed items, oldest first, and this tick's part of the rotation. -/
def Run.tribFrame (r : Run) (c : TribCfg) (key : Key) (k : Nat) : Run :=
  let t := r.trip.trib
  let ready := t.queue.filter t.maySend
  let held := t.queue.filter fun k => !t.maySend k
  let (changed, late) := r.fill ready 1400
  let room := 1400 - (changed.map (·.length)).sum
  let keys := r.rotationKeys
  let share := max 1 ((keys.length + 4799) / 4800)
  let at' := t.rotation % keys.length
  let turn := ((keys.drop at' ++ keys.take at').take share)
  let (round, missed) := r.fill (turn.filter t.maySend) room
  let body := (changed ++ round).flatten
  let o := octetsOf
  let head := [1, c.twinId] ++ o 2 c.pairId ++ o 4 t.tseq ++ o 6 (k / 4800) ++ o 2 (k % 4800) ++ o 4 key.keyId ++
    o 2 body.length ++ [0, 0]
  let tag := Config.gmac key.material (tribIv c.twinId (k / 4800) (k % 4800)) (head ++ body)
  let ports := c.portA :: c.portB.toList
  let f : Frame := { da := c.da, sa := Config.deviceMac, vid := if c.vid = 0 then none else some c.vid, pcp := c.pcp, etype := 0x88B5,
                     len := max 64 (14 + (if c.vid = 0 then 0 else 4) + 24 + body.length + 16 + 4),
                     payload := .tributary (k / 4800) (k % 4800) [(head ++ body).map Int.ofNat, [(tag : Int)]] }
  let r := r.modTrib fun t => { t with
    queue := late ++ held, tseq := (t.tseq + 1) % 2 ^ 32, sentTick := some k, rotation := at' + (turn.length - missed.length),
    stat := tabAdd t.stat 3 late.length }
  r.handIn 67 { frame := f, ports := ports, tc := 6 }

/-- At t_k + 100 µs a frame is sent, once for each tick and never for an instant not past the last one sent.
DEDUCED, assumption 69: unsafe. -/
def Run.tribSend (r : Run) : Run :=
  match r.tribRuns with
  | none => r
  | some c =>
    let y := r.nowExact
    let k := ((y - 100000) * 3 / 625000).floor.toNat
    let late := y - (pInstant k + 100000)
    let fresh : Bool := match r.trip.trib.sentTick with | some x => decide (x < k) | none => true
    if 0 ≤ late ∧ late < (r.tsu.inc : Rat) / ((2 ^ 32 : Nat) : Rat) ∧ fresh then
      match r.tribUse c 2 with
      | some key => r.tribFrame c key k
      | none => (r.tribDenied c 2).modTrib fun t => { t with sentTick := some k }
    else r

/-! ### States of the pair (R497) -/

/-- STATE of PUB_TRIB. -/
def Trib.state (t : Trib) : Nat := if t.cfg.isNone then 0 else if t.paired then 2 else 1

/-- Tributary changes state from `old`: EV_TRIB_STATE. -/
def Run.tribState (r : Run) (old : Nat) : Run :=
  let new := r.trip.trib.state
  if new = old then r else r.raise { ev := .tribState, source := 706, data := [old, new] }

/-- A join ends: the twins' copies compare again (R490). -/
def Run.joinEnd (r : Run) : Run :=
  match r.trip.trib.join with
  | none => r
  | some _ =>
    let n := r.trip.trib.adopted
    let r := (r.modTrib fun t => { t with join := none, young := false, joinedOnce := true }).raise
      { ev := .twinJoin, source := 13, data := [2, n] }
    r.trip.gooses.foldl (fun (r : Run) e => r.twinCompare e.1) r

/-- The pair becomes LONE; each twin leads for itself (R491).
DEDUCED, assumption 69: unsafe. -/
def Run.tribLone (r : Run) : Run :=
  let old := r.trip.trib.state
  let now := r.now
  ((r.modTrib fun t => { t with paired := false, rxSeqs := [], since := now, join := none, young := false, restoreFrom := none }).tribState old).twinAlone

/-- The configuration of TRIB_SET comes into force (Table 14.9): a pair that stands ends with the old one.
DEDUCED, assumption 69: unsafe. -/
def Run.tribEnter (r : Run) (cfg : TribCfg) : Run :=
  let old := r.trip.trib.state
  let r := if r.trip.trib.paired then r.tribLone else r
  let now := r.now
  let r := r.modTrib fun t => { t with
    cfg := some cfg, next := none, rxTick := none, rxSeqs := [], since := if old = 0 then now else t.since }
  if old = 0 then r.tribState 0 else r

/-- A configuration whose P tick has begun comes into force. -/
def Run.settleTrib (r : Run) : Run :=
  match r.trip.trib.next with
  | some (cfg, k) => if k ≤ r.pTickNow then r.tribEnter cfg else r
  | none => r

/-- The pair becomes PAIRED and this twin's join begins (R654 to R656). -/
def Run.tribPair (r : Run) : Run :=
  let old := r.trip.trib.state
  let spoke := !r.twinSilent
  let now := r.now
  let k := r.pTickNow
  let r := r.modTrip fun t => { t with gooses := t.gooses.map fun e => (e.1, { e.2 with mirrored := none }) }
  ((r.modTrib fun t => { t with
    paired := true, since := now, join := some k, young := decide (now < t.protectedAt + 10000000000), adopted := 0,
    restoreFrom := if now < t.protectedAt + 10000000000 then some k else none,
    joinedOnce := t.joinedOnce || spoke }).tribState old).raise { ev := .twinJoin, source := 13, data := [1, 0] }

/-! ### Receiving (R490, R494 to R496, R654, R655) -/

/-- A frame that R494 drops: counted, and reported at most once per second with the failures of the last second (Table 14.10). -/
def Run.tribAuthFail (r : Run) : Run :=
  let now := r.now
  let r := r.modTrib fun t => { t with
    stat := tabInc t.stat 2, authFails := now :: t.authFails.filter fun x => decide (now < x + 1000000000) }
  let t := r.trip.trib
  let due : Bool := match t.authAt with | some x => decide (x + 1000000000 ≤ now) | none => true
  if due then
    (r.modTrib fun t => { t with authAt := some now }).raise
      { ev := .tribAuth, source := 707, data := [min t.authFails.length 65535] }
  else r

/-- The first retransmission after an instant, of a new state at P tick `ts`: j, from retransmission `j` on with its instant `t`. -/
def nextRetry (x : GoosePub) (now : Rat) : Nat → Nat → Rat → Nat × Rat
  | 0, j, t =>
    let step : Rat := (x.maxT : Rat) * 1000000
    let more := if now < t then 0 else ((now - t) / step).floor.toNat + 1
    (j + more, t + more * step)
  | n + 1, j, t => if now < t then (j, t) else nextRetry x now n (j + 1) (t + (x.interval j : Nat) * 1000000)

/-- A block adopts the partner's numbers, instant and dataset, and goes on with its schedule (R654). -/
def GooseSt.adopt (x : GooseSt) (now : Rat) (st sq ts crc : Nat) : GooseSt :=
  let (j, t) := nextRetry x.record now 20 1 (x.record.retryAt ts 1)
  { x with stNum := st, sqNum := sq, ts := ts, adopted := some crc, sends := j - 1, nextAt := some t }

/-- An item of type 0x02. -/
def Run.mirrorBlock (r : Run) (dev st sq ts crc : Nat) : Run :=
  match r.goosePub dev with
  | none => r
  | some x =>
    if !x.record.twin then r
    else
      let r := if r.trip.trib.joining && decide (x.stNum < st) then
          let now := r.nowExact
          (r.modGoose dev fun x => x.adopt now st sq ts crc).modTrib fun t => { t with adopted := t.adopted + 1 }
        else r
      (r.modGoose dev fun x => { x with mirrored := some (st, crc) }).twinCompare dev

/-- A selector is told the group and the mode of the twin's. -/
def Selector.follow (z : Selector) (g : Nat) (force : Bool) : Selector :=
  { z with mirror := some g, forced := if force then some g else none }

/-- An item of type 0x03: each selector follows at the next flag, and takes the mode. -/
def Run.mirrorGroups (r : Run) (n : Nat) (l : List (Nat × Bool)) : Run :=
  r.modSlc n fun x => { x with sels := (List.range x.sels.length).filterMap fun s =>
    match x.sels[s]?, l[s]? with
    | some z, some (g, f) => some (z.follow g f)
    | some z, none => some z
    | none, _ => none }

/-- A MIRROR variable takes the bytes of a partner copy that is newer than the task's checkpoint, once since the start (R496).
DEDUCED, assumption 69: unsafe. -/
def Run.partnerTake (r : Run) (p : PartnerVar) : Run :=
  let newer : Bool := match r.cle.newest p.inst p.task with | some c => decide (c.second < p.second) | none => true
  if !newer ∨ r.trip.trib.restored.contains p.key then r
  else
    let r := r.modTrib fun t => { t with restored := p.key :: t.restored }
    r.modTask p.inst p.task fun s =>
      match s.task.vars.find? fun v => v.ident == p.ident && v.mirror with
      | none => s
      | some v => { s with va := (List.range (min p.bytes.length (v.size - p.offset))).foldl (fun (va : Tab Nat) a =>
          tabPut va (v.addr + p.offset + a) (p.bytes.getD a 0) 0) s.va }

/-- At a warm start of a device that was paired, the copies it holds of the partner's variables are restored (R496).
DEDUCED, assumption 69: unsafe. -/
def Run.partnerRestore (r : Run) : Run := r.trip.trib.partner.foldl (fun (r : Run) p => r.partnerTake p) r

/-- An item of type 0x05: kept as the partner copy, and restored by a twin that has paired within 10 s of its start: each variable as it
first crosses, in the 4,800 ticks that the whole mirror takes (R495, R496).
DEDUCED, assumption 69: unsafe. -/
def Run.mirrorVar (r : Run) (n i ident off : Nat) (octets : List Nat) (second : Nat) : Run :=
  let p : PartnerVar := { inst := n, task := i, ident := ident, offset := off, bytes := octets, second := second }
  let r := r.modTrib fun t => { t with partner := p :: t.partner.filter fun q => q.key != p.key }
  match r.trip.trib.restoreFrom with
  | some k => if r.pTickNow ≤ k + 4800 then r.partnerTake p else r
  | none => r

/-- An item of type 0x06: added unless this device has counted it (Table 14.5); one for a counter never assigned is dropped
(R550).
DEDUCED, assumption 69: unsafe. -/
def Run.mirrorLedger (r : Run) (c k n : Nat) : Run :=
  let near := r.trip.trib.counted.any fun e => e.1 == c && decide (e.2 ≤ k + 2) && decide (k ≤ e.2 + 2)
  if (tabGet r.lgr.owner c).isNone then { r with cel := { r.cel with mirrorDrop := (r.cel.mirrorDrop + 1) % 2 ^ 64 } }
  else if near then r
  else (r.ledgerAdd c n).modTrib fun t => { t with counted := (c, k) :: t.counted }

/-- An item is applied, as Table 14.5 says.
DEDUCED, assumption 69: unsafe. -/
def Run.mirrorApply (r : Run) (second : Nat) (m : Mirror) : Run :=
  match r.trip.trib.cfg with
  | none => r
  | some c =>
    let t := r.trip.trib
    match m with
    | .latches l => (List.range 32).foldl (fun (r : Run) i =>
        match l[i]? with | some (set, n) => r.latchMirror i set n (r.trcHolds i) | none => r) r
    | .block d st sq ts crc => if c.twinId = 2 ∨ t.joining then r.mirrorBlock d st sq ts crc else r
    | .groups n l => if c.twinId = 2 ∨ (t.joining && t.young) then r.mirrorGroups n l else r
    | .loopMode d auto v => r.modLoop d fun x => { x with reqs := x.reqs ++ [{ auto := auto, cause := 5, value := some v }] }
    | .var n i ident off b => r.mirrorVar n i ident off b second
    | .ledger c k n => r.mirrorLedger c k n

/-- The frame is the partner's (R494).
DEDUCED, assumption 69: unsafe. -/
def Run.tribGenuine (r : Run) (c : TribCfg) (m : TribMsg) : Bool :=
  m.pairId == c.pairId && m.twinId != c.twinId &&
    match r.tribUse c 3 with
    | some k => k.keyId == m.keyId &&
        Config.gmac k.material (tribIv m.twinId m.second m.tick) m.covered == m.tag
    | none => false

/-- A frame from a port that carries Tributary. -/
def Run.tribTake (r : Run) (m : TribMsg) : Run :=
  match r.trip.trib.cfg with
  | none => r
  | some c =>
    if m.version ≠ 1 then r
    else if !r.tribGenuine c m then (r.tribDenied c 3).tribAuthFail
    else if r.trip.trib.rxSeqs.contains m.tseq then r
    else
      let k := r.pTickNow
      let r := r.modTrib fun t => { t with
        rxSeqs := (m.tseq :: t.rxSeqs).take 64, rxTick := some k, stat := tabInc t.stat 1 }
      let r := if r.trip.trib.paired then r else r.tribPair
      m.items.foldl (fun (r : Run) i => r.mirrorApply m.second i) r

/-- The head frame of IPORT_MIRROR. -/
def Switch.mirrorHead (w : Switch) : Option (Nat × Queued) :=
  ((w.mirrorQ.filter fun e => e.2 != []).getLast?).bind fun e => (e.2.head?).map fun x => (e.1, x)

/-- The head frame of IPORT_MIRROR is taken; one from a port that TRIB_SET does not name is dropped. -/
def Run.tribReceive (r : Run) (m : TribMsg) : Run :=
  match r.sw.mirrorHead with
  | none => r
  | some (q, x) =>
    match r.held x.fid with
    | none => r
    | some h =>
      if !h.complete then r
      else
        let named : Bool := match r.trip.trib.cfg with | some c => h.inPort == c.portA || some h.inPort == c.portB | none => false
        let r := if named then r.tribTake m else r
        (r.modSw fun w => { w with mirrorQ := tabPut w.mirrorQ q ((tabGetD w.mirrorQ q []).drop 1) [] }).release x.fid

end Sys2Proof.Machine
end

