-- ==== Sys2Proof/Machine/InstOps.lean ====
section
/-! DEFINITION. Instances: states, routing, starting, discarding, claims and commits (chapter 3, R323, R330). -/

namespace Sys2Proof.Machine

/-! ### Sources and states (R39, R40, R106) -/

/-- The sources that belong to an instance (Table 1.6, R514). -/
def Run.ownSources (r : Run) (n : Nat) : List Nat :=
  let group (goose : Bool) : List Nat :=
    (((r.ing.table goose).filter fun e => e.2.inst == n).map fun e => subSource goose e.1).eraseDups
  [cflSource n] ++ (List.range 4).map (slcSource n) ++ group false ++ group true ++
    (r.mlr.loops.filter fun e => e.2.inst == n).map (fun e => 640 + e.1) ++
    ((List.range 32).filter fun k => (r.so k).owner == some n).map (736 + ·) ++
    (r.dr.recs.filter fun e => e.2.inst == n).flatMap fun e => [768 + 2 * e.1, 769 + 2 * e.1]

/-- Some sources arrive at another function: masked, with no cause (R39). -/
def Run.maskSources (r : Run) (l : List Nat) : Run := l.foldl (fun (r : Run) s => r.maskSource s) r

/-- The sources of an instance are routed to its VF or to PF0, masked. -/
def Run.routeInst (r : Run) (n : Nat) (vf : Bool) : Run :=
  (r.modInst n fun i => { i with routedVf := vf }).maskSources (r.ownSources n)

/-- An instance takes a state: EV_INST_STATE with the old state, the new state and GEN (R106).
DESIGN CHOICE, assumption 66: unsafe. -/
def Run.instState (r : Run) (n : Nat) (p : InstPhase) : Run :=
  let i := r.inst n
  if i.phase = p then r
  else (r.modInst n fun i => { i with phase := p }).raiseInst n
    { ev := .instState, source := slcSource n 0, owner := some n, data := [i.phase.code, p.code, i.gen] }

/-! ### Entering ACTIVE (Table 3.2) -/

/-- Every engine starts for an instance that has become ACTIVE; `warm` is the kind of start (R120). -/
def Run.openIntake (r : Run) (n : Nat) (warm : Bool) : Run :=
  ((((((r.subsTo n .wait).cflStart n).startGraph n).cleStartInst n warm).mlrStartInst n).drStart n).pubsResume n

/-- The instance becomes ACTIVE. -/
def Run.activate (r : Run) (n : Nat) (warm : Bool) : Run :=
  ((r.modInst n fun i => { i with warmNext := false, wasActive := false }).instState n .active).openIntake n warm

/-! ### Leaving ACTIVE (R103, R116, R123) -/

/-- A command that can no longer be discarded without effect (R72): a replacement of the Strongroom whose COMMIT is written (R579), a
clear that has begun, a transition whose fuses are being programmed.
DEDUCED, assumption 72: unsafe. -/
def Run.pastCommit (r : Run) (fn : Nat) (a : Accepted) : Bool :=
  let me (x : Nat × Word) : Bool := x == (fn, a.entry.cseq)
  (r.srm.replaces.any fun x => me (x.fn, x.cseq) && decide (4 ≤ x.step)) || r.srm.advancing.any me ||
    r.cel.clearing.any fun w => me (w.fn, w.cseq)

/-- A reset or stop whose command is discarded is undone (R72, R622): the instance is as it was, or, where it was ACTIVE, starts again
warm; GEN, which tells its new work from the old, stays.
DEDUCED, assumption 72: unsafe. -/
def Run.undoReset (r : Run) (n : Nat) (w : ResetWait) : Run :=
  let r := (if w.routed then r.routeInst n true else r).modInst n fun i => { i with reset := none, resets := w.resets, warmNext := w.warmNext }
  if w.was = .active then r.activate n true else (r.modInst n fun i => { i with gen := w.gen }).instState n w.was

/-- The uncompleted commands that `p` picks complete with ST_DISCARDED, and what they had begun is undone: a replacement is
abandoned as in Table 17.9 (R581), a reset ends, a task is asked for nothing.
DEDUCED, assumption 72: unsafe. -/
def Run.discardAll (r : Run) (p : Nat → Accepted → Bool) : Run :=
  let hit (fn : Nat) (a : Accepted) : Bool := p fn a && !r.pastCommit fn a
  let doomed (fn : Nat) (cseq : Word) : Bool := match (r.fn fn).find cseq with | some a => hit fn a | none => false
  let keep := r.srm.replaces.filter fun x => !doomed x.fn x.cseq
  let gone (x : SlcInst) : Bool := match x.exchange with | some e => doomed e.wait.1 e.wait.2 | none => false
  let lost := (r.slc.insts.filter fun e => gone e.2).map (·.1)
  let undone := r.srm.replaces.filter fun x => doomed x.fn x.cseq
  let r := undone.foldl (fun (r : Run) (x : Replace) => r.settleSlot x.slot) { r with srm := { r.srm with replaces := keep } }
  let r := lost.foldl (fun (r : Run) n =>
    let g := (r.slcOf n).exchange.bind (·.graph)
    let r := r.modSlc n fun x => { x with exchange := none, staged := if x.staged.isNone then g else x.staged }
    r.modCleInst n fun x => { x with exchange := none, staged := if x.staged.isNone then x.exchange else x.staged }) r
  let resets := (List.range 32).filterMap fun n => ((r.inst n).reset.filter fun w => doomed w.fn w.cseq).map fun w => (n, w)
  let r := (resets.foldl (fun (r : Run) (e : Nat × ResetWait) => r.undoReset e.1 e.2) r).dropWaits doomed
  r.discard hit

/-- GEN advances, and the reset, stop or shedding is counted (R116 step 1). -/
def Run.newGen (r : Run) (n : Nat) : Run :=
  r.modInst n fun i => { i with gen := (i.gen + 1) % 256, resets := (i.resets + 1) % 2 ^ 64, wasActive := false }

/-- The work of an instance in every engine is discarded (R116 steps 1 and 2): its intake is closed, and nodes in ready queues are
removed. -/
def Run.closeIntake (r : Run) (n : Nat) : Run :=
  (((((((r.subsTo n .disabled).cflStop n).clearQueued n).cleReset n).drStop n).canCancelInst n).pubsPause n).soSafeOf n

/-- A command acts for an instance: it names it, or it replaces a key of it (R72, R581).
DEDUCED, assumption 72: unsafe. -/
def Run.actsFor (r : Run) (n fn : Nat) (a : Accepted) : Bool :=
  a.target == some n ||
    r.srm.replaces.any fun x => x.fn == fn && x.cseq == a.entry.cseq && attrInst x.new.attr == some n

/-- An instance begins a reset (R116 steps 1 to 4); `but` is the reset's own command. -/
def Run.beginReset (r : Run) (n : Nat) (but : Nat × Word) : Run :=
  let r := (((r.newGen n).instState n .resetting).closeIntake n).clearOverruns n
  let r := r.discardAll fun fn a => r.actsFor n fn a && !(fn == but.1 && a.entry.cseq == but.2)
  r.routeInst n false

/-- No work of an old GEN remains in an engine (R116 step 5). -/
def Run.instQuiet (r : Run) (n : Nat) : Bool := !r.slc.flights.any fun f => f.inst == n

/-- An instance is shed (R123).
DESIGN CHOICE, assumption 66: unsafe. -/
def Run.shed (r : Run) (n : Nat) : Run :=
  let old := (r.inst n).phase
  let r := ((r.newGen n).instState n .shed).closeIntake n
  let r := r.discardAll (r.actsFor n)
  r.raiseInst n { ev := .instShed, source := slcSource n 0, owner := some n, data := [old.code, 4, (r.inst n).gen] }

/-! ### Shares (R107 to R113) -/

/-- The shares of a resource that all instances but `n` have been granted. -/
def Run.othersShare (r : Run) (n : Nat) (get : Shares → Nat) : Nat :=
  ((List.range 32).map fun k => if k = n ∨ (r.inst k).phase = .free then 0 else get (r.inst k).granted).sum

/-- Shares of an instance keep R111 with those of all others. -/
def Run.sharesFit (r : Run) (n : Nat) (s : Shares) : Bool :=
  decide (r.othersShare n (·.sluice) + s.sluice ≤ 1024) && decide (r.othersShare n (·.cistern) + s.cistern ≤ 1024) &&
    decide (r.othersShare n (·.ingest) + s.ingest ≤ 1024)

/-- The declared rates of an instance exceed the quotas of its ingest share (R112). -/
def Run.ratesOver (r : Run) (n : Nat) : Bool :=
  let s := (r.inst n).granted.ingest
  let (auth, parsed) := r.ing.declared n
  decide (((s * 4900 / 1024 : Nat) : Rat) < auth) || decide (((s * 25000 / 1024 : Nat) : Rat) < parsed)

/-! ### Claims (R124 to R126) -/

/-- A claim on an output: on both channels where it is one of a pair. -/
def Run.soClaims (r : Run) (n : Nat) (kind : ClaimKind) (object : Nat) : List Claim :=
  if 32 ≤ n then [] else (r.channelsOf n).map fun i => { res := 1, index := i, kind := kind, object := object }

/-- What a graph claims: the outputs and latches of its TRC nodes (R407).
DEDUCED, assumption 73: unsafe. -/
def Run.graphClaims (r : Run) (g : Graph) : List Claim :=
  (List.range g.nodes.length).flatMap fun i =>
    match g.nodes[i]? with
    | some x =>
      if x.op ≠ 0x020C ∨ x.cls ≠ 0 then []
      else
        let p (k : Nat) : Nat := ((x.params.getD k []).getD 0 0).floor.toNat
        (r.soClaims (p 5) .graphNode i ++ r.soClaims (p 7) .graphNode i).eraseDups
    | none => []

/-- What a task claims: the outputs and inputs its bindings name (Table 12.7).
DEDUCED, assumption 73: unsafe. -/
def Run.taskClaims (r : Run) (t : CleTask) : List Claim :=
  (t.binds.flatMap fun b =>
    if b.out ∧ b.kind = 7 then r.soClaims (field b.ref 4 0) .cleTask t.index
    else if !b.out ∧ b.kind = 3 then [({ res := 5, index := field b.ref 4 0, kind := .cleTask, object := t.index } : Claim)]
    else []).eraseDups

/-- What a recorder claims: trigger lines and inputs (R522, Table 15.1). -/
def recClaims (i : Nat) (x : DrRec) : List Claim :=
  let c (res index : Nat) : Claim := { res := res, index := index, kind := .recorder, object := i }
  (x.xout.map (c 2) ++ x.xin.map (fun k => c 5 (32 + k)) ++ (x.biRise ++ x.biFall).map (c 5) ++
    x.binary.filterMap fun e => match e.1 with | .bi k => some (c 5 k) | _ => none).eraseDups

/-- The claims of a configuration, in the order of a bundle.
DEDUCED, assumption 73: unsafe. -/
def Run.claimsOf (r : Run) (n : Nat) (g : Option Graph) (image : Option CleImage) : List Claim :=
  (match g with | some g => r.graphClaims g | none => []) ++ (imageTasks image).flatMap r.taskClaims ++
    (r.drView n).flatMap fun e => recClaims e.1 e.2

/-- A resource that has one claimant only. -/
def Claim.exclusive (c : Claim) : Bool := c.res == 1 || c.res == 2 || c.res == 3 || c.res == 4

/-- A conflict record (Table 3.6).
DEDUCED, assumption 73: unsafe. -/
def conflictFields (c : Claim) (a : Nat) (holder : Claim) (b : Nat) : List Int :=
  [c.res, c.index, a, holder.kind.code, holder.object, b, c.kind.code, c.object]

/-- The committed claimant of a resource among the other instances. -/
def Run.holderOf (r : Run) (n : Nat) (c : Claim) : Option (Nat × Claim) :=
  (List.range 32).findSome? fun m =>
    if m = n ∨ (r.inst m).phase = .free then none
    else ((r.inst m).claims.find? fun x => x.res == c.res && x.index == c.index).map fun x => (m, x)

/-- Every conflict of a commit's claims, in their order; the balls of SO_28 to SO_31 are the device configuration's while
BALL_MUX gives them to FB_n_STB (R670).
DEDUCED, assumption 73: unsafe. -/
def Run.conflicts (r : Run) (n ballMux : Nat) (claims : List Claim) : List (List Int) :=
  ((claims.filter (·.exclusive)).foldl (fun (acc : List Claim × List (List Int)) c =>
    let muxed := c.res == 1 && decide (28 ≤ c.index) && ballMux.testBit (c.index - 28)
    let own := acc.1.find? fun x => x.res == c.res && x.index == c.index
    if muxed then
      (acc.1, acc.2 ++ [conflictFields c 0xFFFF { c with kind := .device, object := 0 } n])
    else match r.holderOf n c, own with
      | some (m, x), _ => (acc.1, acc.2 ++ [conflictFields c m x n])
      | none, some x => (acc.1, acc.2 ++ [conflictFields c n x n])
      | none, none => (acc.1 ++ [c], acc.2)) ([], [])).2

/-- The claims of a commit take effect: outputs change owner, and an output without one, or whose owner is not ACTIVE, is safe.
DEDUCED, assumption 73: unsafe. -/
def Run.putClaims (r : Run) (n : Nat) (claims : List Claim) : Run :=
  let r := r.modInst n fun i => { i with claims := claims }
  (List.range 32).foldl (fun (r : Run) k =>
    let mine := claims.any fun c => c.res == 1 && c.index == k
    let was := (r.so k).owner
    if mine ∧ was ≠ some n then
      let r := (r.modSo k fun z => { z with owner := some n }).maskSource (736 + k)
      let r := r.modLatch k fun z => { z with followed := false }
      if (r.inst n).phase = .active then r else r.soSafe k
    else if !mine ∧ was = some n then ((r.modSo k fun z => { z with owner := none }).maskSource (736 + k)).soSafe k
    else r) r

/-! ### Admission runs (R323, R459) -/

/-- The loops of an instance as committed: index and record. -/
def Run.loopsOf (r : Run) (n : Nat) : List (Nat × LoopRec) :=
  (r.mlr.loops.filter fun e => e.2.inst == n).map fun e => (e.2.index, e.2.record)

/-- The covered graphs of a run, each with the chains that admission adds for its loops. -/
def Run.coveredAll (r : Run) (own : Option (Nat × Option Graph)) : List Covered :=
  (r.coverage own).map fun x => { x with graph := { x.graph with chains := x.graph.chains ++ loopChains x.graph (r.loopsOf x.inst) } }

/-- An admission run of the configurations in `r`. -/
def Run.admission (r : Run) (own : Option (Nat × Option Graph)) : Admission :=
  runAdmission (fun c => (r.slc.inService c).length) (fun _ i => r.gooseRate i) (fun n i => cycleTime (r.slcOf n).g i) (r.coveredAll own)

/-- A graph under admission, with the copy cost of each exchanged task in the BUDGET of its node (R451). -/
def Graph.withCopies (g : Graph) (olds : Tab TaskSt) (image : Option CleImage) : Graph :=
  { g with nodes := g.nodes.map fun x =>
      if x.cls ≠ 3 then x
      else match tabGet olds x.op, (imageTasks image).find? fun t => t.index == x.op with
        | some o, some t => if o.task = t then x else { x with budget := x.budget + copyCost (carriedBytes o.task t) }
        | _, _ => x }

/-! ### What is staged -/

/-- Everything an instance has staged but its graph and its CLE image. -/
def Run.stagedOf (r : Run) (n : Nat) : Staged :=
  { sv := r.ing.svStaged.filter (fun e => e.2.1 == n), goose := r.ing.gooseStaged.filter (fun e => e.2.1 == n),
    chans := r.cfl.chanStaged.filter (fun e => e.2.1 == n), streams := r.cfl.streamStaged.filter (fun e => e.2.1 == n),
    horizon := tabGet r.cfl.horizonStaged n,
    goosePubs := r.trip.gooseStaged.filter (fun e => e.1 / 512 == n), svPubs := r.trip.svStaged.filter (fun e => e.1 / 512 == n),
    loops := r.mlr.staged.filter (fun e => e.1 / 64 == n),
    recs := r.dr.staged.filter (fun e => e.1 / 16 == n), masks := r.dr.masksStaged.filter (fun e => e.1 / 128 == n) }

/-- A table with the entries that `mine` picks replaced by others. -/
def tabReplace {α : Type} (t : Tab α) (mine : Nat × α → Bool) (new : Tab α) : Tab α :=
  new.foldl (fun t e => tabSet t e.1 e.2) (t.filter fun e => !mine e)

/-- An instance has exactly this staged. -/
def Run.putStaged (r : Run) (n : Nat) (x : Staged) : Run :=
  let r := r.modIng fun y => { y with svStaged := tabReplace y.svStaged (fun e => e.2.1 == n) x.sv,
                                      gooseStaged := tabReplace y.gooseStaged (fun e => e.2.1 == n) x.goose }
  let r := r.modCfl fun y => { y with chanStaged := tabReplace y.chanStaged (fun e => e.2.1 == n) x.chans,
                                      streamStaged := tabReplace y.streamStaged (fun e => e.2.1 == n) x.streams,
                                      horizonStaged := tabReplace y.horizonStaged (fun e => e.1 == n)
                                        (match x.horizon with | some h => [(n, h)] | none => []) }
  let r := r.modTrip fun y => { y with gooseStaged := tabReplace y.gooseStaged (fun e => e.1 / 512 == n) x.goosePubs,
                                       svStaged := tabReplace y.svStaged (fun e => e.1 / 512 == n) x.svPubs }
  let r := r.modMlr fun y => { y with staged := tabReplace y.staged (fun e => e.1 / 64 == n) x.loops }
  r.modDr fun y => { y with staged := tabReplace y.staged (fun e => e.1 / 16 == n) x.recs,
                            masksStaged := tabReplace y.masksStaged (fun e => e.1 / 128 == n) x.masks }

/-- The entries of a table that another did not hold. -/
def tabSince {α : Type} [DecidableEq α] (t old : Tab α) : Tab α := t.filter fun e => tabGet old e.1 != some e.2

/-- What has been staged since. -/
def Staged.since (x old : Staged) : Staged :=
  { sv := tabSince x.sv old.sv, goose := tabSince x.goose old.goose, chans := tabSince x.chans old.chans,
    streams := tabSince x.streams old.streams, horizon := if x.horizon = old.horizon then none else x.horizon,
    goosePubs := tabSince x.goosePubs old.goosePubs, svPubs := tabSince x.svPubs old.svPubs, loops := tabSince x.loops old.loops,
    recs := tabSince x.recs old.recs, masks := tabSince x.masks old.masks }

/-! ### Commits (R112, R125, R310, R329, R330) -/

/-- The turn of an INST_COMMIT (R125): every commit accepted before it, from any function, has completed.
DEDUCED, assumption 72: unsafe. -/
def Run.commitTurn (r : Run) (fn : Nat) (cseq : Word) : Bool :=
  match (r.fn fn).find cseq with
  | none => true
  | some a => r.fns.all fun f => f.accepted.all fun b => b.entry.opcode != 0x0202 || decide (a.order ≤ b.order)

/-- The graph and image a commit of an instance would leave. -/
def Run.newGraph (r : Run) (n : Nat) : Option Graph := (r.slcOf n).staged'

/-- Every staged change but those of the graph and the CLE takes effect. -/
def Run.commitRest (r : Run) (n : Nat) : Run :=
  let active := (r.inst n).phase == .active
  ((((r.pubCommit n).cflCommit n).commitSubs n active).mlrPut n).drCommit n active

/-- A source that a graph names belongs to its instance; `r` holds the configuration as the commit would leave it (R310, R340,
R480). -/
def Run.graphOwns (r : Run) (n : Nat) (g : Graph) (image : Option CleImage) : Bool :=
  let sub (i : Nat) : Bool := match tabGet r.ing.goose i with | some s => s.inst == n | none => false
  let chan (s : Nat) : Bool := match tabGet r.cfl.chans s with | some c => c.inst == n | none => false
  let binds := g.binds.all fun b =>
    if b.kind = 3 then sub b.index else if b.kind = 4 then (imageTasks image).any (fun t => t.index == b.index) else true
  let node (x : GNode) : Bool :=
    (x.inputs.all fun i => match i with
      | some y => (match y.src with | .chan s => chan s | .member i _ => sub i | _ => true)
      | none => true) &&
    (if x.op = 0x020E ∧ x.cls = 0 then (adpSlots x).all chan else true) &&
    (if x.op = 0x020C ∧ x.cls = 0 then
       let p := ((x.params.getD 6 []).getD 0 0).floor.toNat
       p == 0xFFFF || (r.gooseDev n p).isSome
     else true) &&
    (if x.cls = 4 then (if x.op < 512 then (r.gooseDev n x.op).isSome else (r.svDev n (x.op - 512)).isSome) else true)
  binds && g.nodes.all node

/-- REF and FB of every loop name slots and subscriptions of the instance (R340, R467). -/
def Run.loopsOwn (r : Run) (n : Nat) : Bool :=
  let ok (i : Input) : Bool := match i.src with
    | .chan s => (match tabGet r.cfl.chans s with | some c => c.inst == n | none => false)
    | .member k _ => (match tabGet r.ing.goose k with | some s => s.inst == n | none => false)
    | _ => true
  (r.loopView n).all fun e => ok e.2.fb && match e.2.ref with | some i => ok i | none => true

/-- Every ledger counter that an IIT node names is assigned to the instance (R551). -/
def Run.countersOwned (r : Run) (n : Nat) (g : Graph) : Bool :=
  g.nodes.all fun x =>
    if x.op = 0x0109 ∧ x.cls ≤ 1 then
      ((List.range (x.n 0)).flatMap fun p => [x.n (7 + p), x.n (10 + p), x.n (13 + p)]).all fun c =>
        c == 0xFFFF || tabGet r.lgr.owner c == some n
    else true

/-- Every subscription of the instance names slots that permit the ingest engine, where they hold a key (R570). -/
def Run.subKeysOk (r : Run) (n : Nat) : Bool :=
  let ok (goose : Bool) : Bool := (r.ing.view goose).all fun e =>
    e.2.1 != n || (r.srm.ingestMayUse n e.2.2.keys.1 && r.srm.ingestMayUse n e.2.2.keys.2)
  ok false && ok true

/-- The lowest place for `len` entries in a table of `limit` in which some ranges, each a start and a length, are taken.
DESIGN CHOICE, assumption 96: unsafe. -/
def gapFor (used : List (Nat × Nat)) (len limit : Nat) : Option Nat :=
  let free (s : Nat) : Bool := decide (s + len ≤ limit) && used.all fun u => u.2 == 0 || decide (s + len ≤ u.1) || decide (u.1 + u.2 ≤ s)
  ((0 :: used.map fun u => u.1 + u.2).filter free).foldl (fun (best : Option Nat) s => some (match best with | some b => min b s | none => s)) none

/-- The edge entries a graph takes: its lists start on even indices (R309). -/
def edgeRoom (g : Graph) : Nat := (g.edges.length + 1) / 2 * 2

/-- The graphs whose entries are in the tables beside the one that a commit of `n` brings: those of the other instances, and in ACTIVE
the instance's own (R330). -/
def Run.residents (r : Run) (n : Nat) (active : Bool) : List (Ranges × Graph) :=
  (r.slc.insts.filter fun e => e.1 != n || active).filterMap fun e => e.2.graph.map fun g => (e.2.ranges, g)

/-- The node and edge ranges a commit allocates (R306, R329); none where a table lacks room.
DESIGN CHOICE, assumption 96: unsafe. -/
def Run.rangesFor (r : Run) (n : Nat) (g : Graph) (active : Bool) : Option Ranges :=
  let held := r.residents n active
  match gapFor (held.map fun e => (e.1.node, e.2.nodes.length)) g.nodes.length 65536,
      gapFor (held.map fun e => (e.1.edge, edgeRoom e.2)) (edgeRoom g) 131072 with
  | some i, some k => some { node := i, edge := k }
  | _, _ => none

/-- The bytes a graph's data blocks take in the memory of a class. -/
def dataBytes (g : Graph) (cls : Nat) : Nat := ((g.nodes.filter fun x => x.cls == cls).map fun x => 16 * x.dataLen).sum

/-- The bytes there are for the data blocks of a class: at most the SRAM that Table 1.4 gives its engines (R26).
DESIGN CHOICE, assumption 96: unsafe. -/
def dataRoom (cls : Nat) : Nat :=
  match cls with
  | 0 => min (Config.dataRoom 0) (12 * 2 ^ 20)
  | 3 => min (Config.dataRoom 3) (2 ^ 20)
  | _ => Config.dataRoom cls

/-- Some of the tables or memories have no room for a commit: 65,536 nodes and 131,072 edges in contiguous ranges, 4,608 bindings, and
the data blocks of each class (R305, R306, R329, R330). -/
def Run.tablesFull (r : Run) (n : Nat) (g : Graph) (active : Bool) : Bool :=
  let held := r.residents n active
  (r.rangesFor n g active).isNone || decide (4608 < ((held.map fun e => e.2.binds.length).sum + g.binds.length)) ||
    (List.range 5).any fun c => dataBytes g c != 0 && decide (dataRoom c < (held.map fun e => dataBytes e.2 c).sum + dataBytes g c)

/-- What a commit finds before claims and admission: its refusal, or nothing.
DEDUCED, assumption 72: unsafe. -/
def Run.commitDefect (r : Run) (n region : Nat) : Option Status :=
  let active := (r.inst n).phase == .active
  let g := r.newGraph n
  let gr := g.getD { nodes := [], edges := [], binds := [] }
  let image := (r.cleOf n).newImage
  let changed := (r.slcOf n).staged.isSome
  let cans := (imageTasks image).flatMap fun t => (t.outs.filter fun b => b.kind == 4).map fun b => canRef b.ref
  let trial := r.commitRest n
  if r.ratesOver n then some .shareFloor
  else if !r.subKeysOk n then some .keyAttr
  else (r.cflRefuses n active).or <| (r.pubRefuses n).or <|
    if !trial.graphOwns n gr image ∨ !trial.loopsOwn n then some .denied
    else if !r.countersOwned n gr then some .lgrOwner
    else if changed && r.tablesFull n gr active then some .slcTable
    else (trial.cleRefuses n gr active).or <| (trial.mlrRefuses n gr cans).or ({ trial with dr := r.dr }.drRefuses n gr region)

/-- What the graph of an instance, and the CLE's image, become with a commit that passes; `g` is what was staged for the graph. -/
def Run.commitGraph (r : Run) (n : Nat) (g : Option (Option Graph)) (ranges : Ranges) (image : Option CleImage) (run : Bool) : Run :=
  let r := match g with
    | none => r
    | some g => (r.putGraph n g).modSlc n fun x => { x with ranges := ranges }
  let r := if image = (r.cleOf n).image then r else r.putTasks n image run
  (r.modSlc n fun x => { x with staged := none, exchange := none }).modCleInst n fun x => { x with staged := none, exchange := none }

/-- A commit takes effect (Table 3.2): everything staged, the claims, and the bounds of its admission run; CONFIG_STORE's other bank
becomes the active one (R645).
DEDUCED, assumption 72: unsafe. -/
def Run.applyCommit (r : Run) (n : Nat) (g : Option (Option Graph)) (ranges : Ranges) (image : Option CleImage) (claims : List Claim)
    (bounds : List (Nat × List Nat)) (needs : List (Nat × Nat)) : Run :=
  let before := r.ownSources n
  let r := (r.commitRest n).commitGraph n g ranges image ((r.inst n).phase == .active)
  let r := r.putClaims n claims
  let after := r.ownSources n
  let r := r.maskSources ((before.filter fun s => !after.contains s) ++ after.filter fun s => !before.contains s)
  let r := r.storeBounds bounds needs
  let r := ({ r with store := r.store.commit r.store.dev } : Run).configStore
  if (r.inst n).phase = .idle then r.instState n .ready else r

end Sys2Proof.Machine
end

