-- ==== Sys2Proof/Machine/JobOps.lean ====
section
/-! DEFINITION. What follows the end of a job: acts of operators, members, releases (R318, R406 to R408, R414, R481). -/

namespace Sys2Proof.Machine

/-! ### Acts of operators -/

/-- A TRIP record (Table 16.2) of the TRC node `i`. -/
def Run.tripRecord (r : Run) (n i so first sources : Nat) (pub : Option Nat) (tick : Nat) : Run :=
  r.stage { type := 0x0011, time := r.now, source := slcSource n 0, inst := n,
            data := [i, first, sources, (if so < 32 then so else 0xFF : Nat), (pub.getD 0xFFFF : Nat), (tick % 4800 : Nat)] }

/-- A TRC node has completed: its output is driven to TRIP, and where TRIP has changed its publication is released (R406, R407). -/
def Run.tripAct (r : Run) (f : Flight) (so pub : Nat) (on changed : Bool) (first sources : Nat) : Run :=
  let dev := if pub = 0xFFFF then none else r.gooseDev f.inst pub
  let r := if on && changed then r.tripRecord f.inst f.node so first sources dev f.tick else r
  let r := if so < 32 then (r.soWrite so on).getD r else r
  match dev with
  | some d => if changed then r.gooseRelease d f.tick else r
  | none => r

/-- The additions of an IIT node: counted, and mirrored to the twin (R373, R495). -/
def Run.ledgerAct (r : Run) (adds : List (Nat × Nat × Nat)) : Run :=
  adds.foldl (fun (r : Run) (e : Nat × Nat × Nat) =>
    let r := (r.ledgerAdd e.1 e.2.2).modTrib fun t => { t with counted := (e.1, e.2.1) :: t.counted }
    r.noteMirror (.ledger e.1 e.2.1 e.2.2)) r

/-- What a completed operator does beside its outputs. -/
def Run.act (r : Run) (f : Flight) (a : Act) : Run :=
  let n := f.inst
  match a with
  | .trip so pub on changed first sources => r.tripAct f so pub on changed first sources
  | .latch l => r.latchSet l
  | .record mask _ at' input =>
    r.drTriggerAll (fun _ x => x.inst == n && mask.testBit x.index) { instant := at', cause := 1, index := input }
  | .ledger adds => r.ledgerAct adds
  | .group sel g => r.modSlc n fun x => { x with sels := modAt x.sels sel fun z => z.asks g }
  | .bank slot toB len => (r.bankRequest slot toB len).1

/-! ### Members (R481) -/

/-- The members that a node's elements write through the publication map. -/
def Run.mapWrites (r : Run) (n i : Nat) : Run :=
  let x := r.slcOf n
  match x.nodes[i]? with
  | none => r
  | some s =>
    (x.g.pubs.filter fun p => p.node == i).foldl (fun (r : Run) p =>
      match s.out[p.elem]?, r.gooseDev n p.pub with
      | some e, some d =>
        match (r.goosePub d).bind fun y => y.record.members[p.member]? with
        | some type =>
          let v := e.asInput
          let (free, r) := r.takeFree 64
          (r.gooseWrite d p.member (memberOf free.toNat type v.value v.q)).getD r
        | none => r
      | _, _ => r) r

/-! ### Ends -/

/-- A class PUB node completes: it releases its publication (Table 9.6); an SV stream only where no loop writes it (R487). -/
def Run.pubJob (r : Run) (f : Flight) (op : Nat) : Run :=
  if op < 512 then
    match r.gooseDev f.inst op with
    | some d => r.gooseRelease d f.tick
    | none => r
  else
    match r.svDev f.inst (op - 512) with
    | some d =>
      let looped := r.mlr.loops.any fun e => e.2.inst == f.inst && e.2.record.dests.any fun x =>
        match x with | .sv s _ => s == op - 512 | _ => false
      if looped then r
      else match r.svPub d with
        | some x => r.svRelease d (if x.record.gridQ then f.q else f.tick)
        | none => r
    | none => r

/-- Jobs of loops, pending or queued, that a cancellation has taken out are misses of their ticks (R465, Table 9.7). -/
def Run.cancelledLoops (r : Run) (before : List Flight) : Run :=
  (before.filter fun f => f.cls == 2 && f.phase != .executing &&
      !r.slc.flights.any fun g => g.inst == f.inst && g.node == f.node && g.enq == f.enq).foldl
    (fun (r : Run) f => if f.gen = (r.inst f.inst).gen then r.mlrLost f else r) r

/-- A job ends and what follows it happens; the chains that were late are answered for the caller to judge (R322, R625). -/
def Run.jobEnds (r : Run) (f : Flight) (e : JobEnd) : Run × List (Nat × Nat × Nat) :=
  let live := decide (f.gen = (r.inst f.inst).gen)
  let op := match (r.slcOf f.inst).g.nodes[f.node]? with | some g => g.op | none => 0
  let others := r.slc.flights.filter fun g => !g.is f
  let (r, a) := r.endJob f e
  if !live then (r, [])
  else
    let r := match e with
      | .completed _ =>
        let r := if f.cls ≤ 1 then r.mapWrites f.inst f.node else r
        let r := a.acts.foldl (fun (r : Run) x => r.act f x) r
        if f.cls = 4 then r.pubJob f op else r
      | .aborted | .dropped => r.mlrLost f
    (r.cancelledLoops others, a.late)

end Sys2Proof.Machine
end

