-- ==== Sys2Proof/Machine/Ports.lean ====
section
/-! DEFINITION. The steps of chapter 4: frames received and sent, links, MAC registers, counter snapshots. -/

namespace Sys2Proof.Machine

/-! ### Reception -/

/-- The length/type field after any 802.1Q tags is a length that R138 calls odd. An HSR tag is no 802.1Q tag: its Ethertype
is that field. Behind a second 802.1Q tag the verdict says so. -/
def lengthOdd (f : Frame) (v : RxVerdict) : Bool :=
  if f.etype = 0x8100 ∨ f.etype = 0x88A8 then v.lenOdd
  else match f.red with
    | some t => !t.hsr && lengthField
    | none => lengthField
where
  lengthField : Bool :=
    (decide (1501 ≤ f.etype) && decide (f.etype ≤ 1535)) ||
      (decide (f.etype ≤ 1500) && decide (f.len < f.etype + 18 + (if f.vid.isSome then 4 else 0)))

/-- The counter of Table 4.2 a received frame goes to: the first whose condition holds (R138). The Ethertype of a MAC control frame
(R133) may stand behind tags.
DESIGN CHOICE, assumption 95: unsafe. -/
def classifyRx (maxFrame : Nat) (f : Frame) (v : RxVerdict) : Nat :=
  if f.len ≤ 63 then 3
  else if maxFrame < f.len then 4
  else if v.codeErr then 5
  else if v.fcsErr then 6
  else if lengthOdd f v then 7
  else if isGroup f.sa then 8
  else if f.etype = 0x8808 then 9
  else 0

/-- The outputs that have begun frame `fid`. -/
def Run.sendingPorts (r : Run) (fid : Nat) : List Nat :=
  externalPorts.filter fun n => match (r.port n).sending with | some (_, x) => x.fid == fid | none => false

/-- Every port changed by `f`. -/
def Run.mapPorts (r : Run) (f : Port → Port) : Run := { r with ports := r.ports.map f }

/-- A table of queues without frame `fid`. -/
def dropFrom (fid : Nat) (t : Tab (List Queued)) : Tab (List Queued) :=
  (t.map fun (e : Nat × List Queued) => (e.1, e.2.filter (fun x => x.fid != fid))).filter (fun e => e.2 != [])

/-- The queues of external ports that a frame heads. -/
def Run.headed (r : Run) (fid : Nat) : List (Nat × Nat) :=
  externalPorts.flatMap fun n => (List.range 8).filterMap fun q =>
    if (((r.port n).queue q).head?.map (·.fid)) = some fid then some (n, q) else none

/-- A frame is dropped at every output that has not finished it: each output that has begun it ends it, and counts TX_ABORT
where `bad` (R144); every other queue loses it, and a frame that comes to a head is judged for its age (R153); its cells
and reservation return (R177). -/
def Run.abortFrame (r : Run) (fid : Nat) (bad : Bool := true) : Run :=
  let r := (r.sendingPorts fid).foldl (fun (r : Run) (n : Nat) =>
    match (r.port n).sending with
    | some (_, x) => (if bad then r.sentBad n x 19 else r.release x.fid).modPort n (fun p => { p with sending := none })
    | none => r) r
  let heads := r.headed fid
  let charged := (r.sw.hostQ.filter fun e => e.2.any (fun x => x.fid == fid)).map (·.1)
  let cells := match r.held fid with | some h => h.cells | none => 0
  let r := charged.foldl (fun (r : Run) (m : Nat) => r.uncharge m cells) r
  let r := r.mapPorts fun p => { p with queues := dropFrom fid p.queues }
  let r := r.modSw fun w => { w with
    ingestQ := dropFrom fid w.ingestQ, mirrorQ := dropFrom fid w.mirrorQ, hostQ := dropFrom fid w.hostQ }
  let r := match r.held fid with
    | some h => r.freeFrame fid h
    | none => r
  heads.foldl (fun (r : Run) (e : Nat × Nat) => r.settleHead (((r.port e.1).queue e.2).length + 1) e.1 e.2) r

/-- A frame is dropped for a fault of a cell (R178, R180); where it is still arriving its end is awaited. -/
def Run.dropFrame (r : Run) (fid : Nat) : Run :=
  match r.held fid with
  | none => r
  | some h => (r.abortFrame fid).noteDropped fid h.inPort h.frame h.complete

/-- A frame good at its end: it is complete in Cistern, the cells it did not need are released (R177), and the outputs
that sent it cut-through finish it. -/
def Run.completeFrame (r : Run) (fid : Nat) (f : Frame) (h : Held) : Run :=
  let c := if h.copies = 0 then 0 else cellsOf f.len
  let charged := (r.sw.hostQ.filter fun e => e.2.any (fun x => x.fid == fid)).map (·.1)
  let r := charged.foldl (fun (r : Run) (m : Nat) => r.uncharge m (h.cells - c)) r
  let h' := { h with frame := { f with stamp := h.frame.stamp }, complete := true, taken := c, reserved := 0 }
  let r := r.modSw fun w => { w with frames := tabSet w.frames fid h', free := w.free + h.taken - c }
  let ports := r.sendingPorts fid
  let r := ports.foldl (fun (r : Run) (n : Nat) =>
    match (r.port n).sending with
    | some (_, x) => (r.sentOk n x).modPort n (fun p => { p with sending := none })
    | none => r) r
  if h.copies = 0 then r.modSw fun w => { w with frames := tabDel w.frames fid } else r

/-- A frame ends at port `n` (R138, R139, R150 step 5). -/
def Run.receive (r : Run) (n fid : Nat) (f : Frame) (v : RxVerdict) : Run :=
  let k := classifyRx (r.port n).maxFrame f v
  let r := if k = 0 then
      r.modPort n (fun p => ((p.count 0 1).count 1 f.len).count 2 (if isGroup f.da then 1 else 0))
    else r.modPort n (·.count k 1)
  match r.held fid with
  | some h =>
    if h.inPort ≠ n ∨ h.complete then r
    else if k = 0 then r.completeFrame fid f h else r.abortFrame fid (decide (4 ≤ k) && decide (k ≤ 8))
  | none => if k = 0 then r.modPort n (fun p => { p with received := p.received ++ [(fid, f)] }) else r

/-- MAC_FRAME_RECEIVE (R138, R139, R144, R177): the end of a frame at a port. -/
def execMacFrameReceive (n fid : Nat) (f : Frame) (v : RxVerdict) (dt : Nat) (s : State) :
    Host.Outcome State Fault Refusal :=
  whenRunning s fun _ r =>
    let r := r.pass dt
    if (r.port n).enable && (r.port n).link then r.receive n fid f v else r

/-! ### Transmission -/

/-- An uncorrectable error read from a cell (R180): the frame is dropped at every output that has not finished it, counted
in ECC_DROP of its input port, and EV_CISTERN_ECC is raised; `fault` hands the cell to the fault handling. -/
def Run.eccDrop (fault : Nat → Run → Run) (r : Run) (fid cell : Nat) : Run :=
  match r.held fid with
  | none => r
  | some h =>
    let r := (r.dropFrame fid).swCount h.inPort 10
    fault cell (r.raise { ev := .cisternEcc, source := 130, data := [cell, h.inPort] })

/-- An underrun of the frame in transmission (R142). -/
def Run.underrun (r : Run) (n q : Nat) (x : Queued) : Run :=
  let r := (r.sentBad n x 18).modPort n (fun p => { p with sending := none })
  let old := (r.port n).cur
  let new := min (old + 256) 2048
  let r := r.modPort n (fun p => { p with cur := new })
  let r := if new = old then r else r.raise { ev := .portUnderrun, source := 64 + n, data := [n, new] }
  r.settleHead ((r.port n).queue q).length n q

/-- The MAC serves queue `q` (R146): a complete frame leaves whole; a cut-through one starts. -/
def Run.serve (fault : Nat → Run → Run) (r : Run) (n q : Nat) (t : TxStep) : Run :=
  match (r.port n).queue q with
  | [] => r
  | x :: _ =>
    match r.held x.fid, t.eccCell with
    | some _, some cell =>
      let r := r.popHead n q
      Run.eccDrop fault (r.modPort n (fun p => { p with sending := some (q, x) })) x.fid cell
    | some h, none =>
      let r := r.popHead n q
      let r := r.modPort n (fun p =>
        { p with shapers := p.shapers.map fun (k, s) =>
            (k, if k = q then s.sent (speedKbps p.speed) (islandPeriod n) t.sendCycles else s) })
      if h.complete then r.sentOk n x else r.modPort n (fun p => { p with sending := some (q, { x with startAt := some r.now }) })
    | none, _ => r

/-! ### Links -/

/-- The unit ID of a class and an index (chapter 19). -/
def unitId (cls idx : Nat) : Nat := cls * 2 ^ 24 + idx

/-- A unit is out of service (R613). -/
def Run.unitOut (r : Run) (u : Nat) : Bool :=
  match tabGet r.flt.units u with
  | some x => x.state != .inService
  | none => false

/-- The lane of a port (Table 19.1, class 0x07). -/
def laneOf (n : Nat) : Nat := if n < 48 then n / 4 else 12 + (n - 48)

/-- The port island of a port. -/
def islandOf (n : Nat) : Nat := if n < 48 then n / 4 else if n < 60 then 12 + (n - 48) / 4 else 15

/-- A port is held with its link down by a fault of its lane, its MAC or its island (Tables 19.1 and 19.3). -/
def Run.portHeld (r : Run) (n : Nat) : Bool :=
  r.unitOut (unitId 7 (laneOf n)) || r.unitOut (unitId 8 n) || r.flt.lasting.contains (islandOf n)

/-- The frame a port is receiving when its link goes down ends there, with the loss as its code error (R150 step 5). -/
def Run.endReception (r : Run) (n : Nat) (rx : Option (Nat × Frame)) : Run :=
  match rx with
  | some (fid, f) => r.receive n fid f { codeErr := true }
  | none => r

/-- The frames that port `n` is receiving and that Cistern already holds end as at a loss of link (R150 step 5). -/
def Run.dropIncoming (r : Run) (n : Nat) : Run :=
  (r.sw.frames.filter fun e => e.2.inPort == n && !e.2.complete).foldl (fun (r : Run) (e : Nat × Held) =>
    r.receive n e.1 e.2.frame { codeErr := true }) r

/-- LINK_DOWN (R150, R192): `rx` is the frame being received, if any; one that Cistern already holds need not be named. -/
def execLinkDown (n : Nat) (rx : Option (Nat × Frame)) (dt : Nat) (s : State) : Host.Outcome State Fault Refusal :=
  whenRunning s fun _ r =>
    let r := r.pass dt
    if (r.port n).link then (((r.endReception n rx).dropIncoming n).linkDown n).raisePair (n / 2) 1 else r

/-- The port's speed is refused (R132): half duplex, or a speed not listed for its mode. -/
def speedRefused (mode speed : Nat) (half : Bool) : Bool := half || !(speedsOf mode).contains speed

/-- The hold of a port has elapsed by its present port-island cycle (R151). A HOLD written while it runs counts from the
loss of link.
DESIGN CHOICE, assumption 95: unsafe. -/
def Run.holdOver (r : Run) (n : Nat) : Bool :=
  let p := r.port n
  p.holding && !p.link && decide ((p.holdSince + usTicks (100 * p.hold)) * 400 / islandPeriod n ≤ r.cyclesOf n)

/-- The hold elapses with the link down (R151): what is left in queues 0 to 3 is dropped. -/
def Run.holdExpires (r : Run) (n : Nat) : Run :=
  let p := r.port n
  let dropped := ([0, 1, 2, 3].map fun q => (p.queue q).length).sum
  let r := (r.dropQueues n [0, 1, 2, 3] 22).modPort n (fun p => { p with holding := false })
  r.raise { ev := .portHoldExpired, source := 64 + n, data := [n, dropped] }

/-- LINK_UP (R131, R132, R145, R151, R152, R192): the speed and the duplex the partner reports. In 1000BASE-X the partner
reports its duplex only; in 10GBASE-R and 25GBASE-R it reports nothing, and the speed is that of MODE. A refused link raises
no event.
DESIGN CHOICE, assumption 95: unsafe. -/
def execLinkUp (n speed : Nat) (half : Bool) (dt : Nat) (s : State) : Host.Outcome State Fault Refusal :=
  whenRunning s fun _ r =>
    let r := r.pass dt
    let r := if r.holdOver n then r.holdExpires n else r
    let p := r.port n
    let speed := match p.mode with | 1 => 2 | 3 => 5 | 4 => 6 | _ => speed
    let half := half && p.mode != 3 && p.mode != 4
    if 64 ≤ n || !p.enable || p.link || r.portHeld n then r
    else if speedRefused p.mode speed half then r.modPort n (fun p => { p with speedUnsup := true })
    else
      let r := r.settlePort n
      ((r.modPort n (fun p =>
        { p with link := true, speed := speed, speedUnsup := false, pcsSync := true, fecLock := decide (p.fec ≠ 0),
                 holding := false, cur := p.base })).raisePortLink n).raisePair (n / 2) 1

/-- LINK_HOLD_EXPIRY (R151). -/
def execLinkHoldExpiry (n dt : Nat) (s : State) : Host.Outcome State Fault Refusal :=
  whenRunning s fun _ r =>
    let r := r.pass dt
    if r.holdOver n then r.holdExpires n else r

/-- ENABLE falls (R136): what a loss of link does to the frames; the lane idles and the link is down. Where it was down before, the
hold of the queues starts all the same.
DESIGN CHOICE, assumption 95: unsafe. -/
def Run.portDisable (r : Run) (n : Nat) : Run :=
  let r := r.dropIncoming n
  let r := if (r.port n).link then (r.linkDown n).raisePair (n / 2) 1 else r.lossOfQueues n
  r.modPort n (fun p => { p with enable := false, speedUnsup := false })

/-- PORT_ENABLE_FALL (R136). -/
def execPortEnableFall (n dt : Nat) (s : State) : Host.Outcome State Fault Refusal :=
  whenRunning s fun _ r =>
    let r := r.pass dt
    if (r.port n).enable then r.portDisable n else r

/-! ### MAC registers -/

/-- EV_LOCKED_WRITE, at most once per function per DEV_COMMIT (R80): `item` is the offset or parameter ID written. -/
def Run.lockedWrite (r : Run) (fn item : Nat) : Run :=
  if (r.fn fn).lockedRaised then r
  else (r.modFn fn (fun f => { f with lockedRaised := true })).raise
    { ev := .lockedWrite, source := ringSource fn, data := [item] }

/-- MAC_CFG[n] as it reads. -/
def Port.cfgWord (p : Port) : Nat :=
  (if p.enable then 2 ^ 31 else 0) + p.maxFrame * 2 ^ 16 + p.fec * 2 ^ 10 + p.mode * 2 ^ 4 +
    (if p.tsEn then 8 else 0) + (if p.loopback then 4 else 0)

/-- A write that R135 refuses: an unlisted MODE, FEC 3, or MAX_FRAME outside 1,518 to 2,000. -/
def macCfgBad (n value : Nat) : Bool :=
  !(modesOf n).contains (field value 7 4) || (decide (60 ≤ n) && field value 11 10 == 3) ||
    decide (field value 27 16 < 1518) || decide (2000 < field value 27 16)

/-- MAC_CFG_WRITE (R135, R80): MAX_FRAME, FEC and MODE are RWL; a fall of ENABLE acts as R136 says. Only PF0 reaches the
device window (Table 2.2). -/
def execMacCfgWrite (n : Nat) (value : Word) (s : State) : Host.Outcome State Fault Refusal :=
  whenUp s fun sys r =>
    let v := value.toNat
    let p := r.port n
    if 64 ≤ n || macCfgBad n v then r
    else
      let fec := if 60 ≤ n then field v 11 10 else 0
      let same := decide (p.maxFrame = field v 27 16 ∧ p.fec = fec ∧ p.mode = field v 7 4)
      let r := if sys.locked && !same then r.lockedWrite 0 (0x00160000 + 0x400 * n) else r
      let r := if sys.locked then r
        else r.modPort n (fun p => { p with maxFrame := field v 27 16, fec := fec, mode := field v 7 4 })
      let r := r.modPort n (fun p => { p with tsEn := v.testBit 3, loopback := v.testBit 2 })
      if v.testBit 31 then r.modPort n (fun p => { p with enable := true })
      else if p.enable then r.portDisable n else r

/-- A start threshold BASE may take: 64 to 2,048 in steps of 64 (MAC_TX_THRESH). -/
def threshOk (base : Nat) : Bool := decide (64 ≤ base) && decide (base ≤ 2048) && base % 64 == 0

/-- TX_THRESH_BASE_WRITE (R145): a value that sets BASE also restores CUR; another leaves both. -/
def execTxThreshBaseWrite (n base : Nat) (s : State) : Host.Outcome State Fault Refusal :=
  whenUp s fun _ r => if threshOk base then r.modPort n (fun p => { p with base := base, cur := base }) else r

/-- TX_THRESH_RESTORE (R145). -/
def execTxThreshRestore (n : Nat) (s : State) : Host.Outcome State Fault Refusal :=
  whenUp s fun _ r => r.modPort n (fun p => { p with cur := p.base })

/-! ### Snapshots -/

/-- The snapshot instant of a request now: 2 µs ahead (R155). -/
def Run.takeSnap (r : Run) : Run := r.modSw fun w => { w with snapAt := some (r.now + 2000) }

/-- SNAP_TAKE (R155): ignored while BUSY. -/
def execSnapTake (s : State) : Host.Outcome State Fault Refusal :=
  whenUp s fun _ r => if r.sw.snapAt.isSome then r else r.takeSnap

/-- The reply of PORT_SNAPSHOT (Table 4.5): T, then 32 counters per masked port in ascending order. -/
def Run.snapReply (r : Run) (ports : List Nat) : Reply :=
  { buffer := [(secOf r.sw.snapT : Int), nsOf r.sw.snapT] ++
      ports.flatMap (fun n => (List.range 32).map fun k => ((tabGetD (r.port n).snap k 0 : Nat) : Int)),
    bufLen := 16 + 256 * ports.length }

/-- SNAPSHOT_LATCH (R156, R157): at T every port copies its counters and BUSY falls. -/
def execSnapshotLatch (dt : Nat) (s : State) : Host.Outcome State Fault Refusal :=
  whenUp s fun _ r =>
    let r := r.pass dt
    match r.sw.snapAt with
    | none => r
    | some t =>
      if r.now < t then r
      else
        let waits := r.sw.snapWait
        let r := r.mapPorts fun p => { p with snap := p.stat }
        let r := r.modSw fun w => { w with snapAt := none, snapT := t, snapWait := [] }
        waits.foldl (fun (r : Run) (w : Nat × Word × List Nat) => r.finish w.1 w.2.1 (r.snapReply w.2.2)) r

/-- PORT_SNAPSHOT (R159): the completion comes with the latch. A snapshot under way is judged before the buffer.
DESIGN CHOICE, assumption 95: unsafe. -/
def execPortSnapshot (c : Cmd) (mask : Nat) (s : State) : Host.Outcome State Fault Refusal :=
  runCmd { op := 0x0300, pf0 := true } c s fun a r =>
    let ports := bitsOf 64 mask
    if r.sw.snapAt.isSome then (r, .status .busy)
    else if a.entry.bufLen < 16 + 256 * ports.length ∨ c.bufErr then
      (r, .done { status := .buf, result := [((16 + 256 * ports.length : Nat) : Int)] })
    else (r.takeSnap.modSw fun w => { w with snapWait := w.snapWait ++ [(c.fn, c.cseq, ports)] }, .wait)

/-- PORT_THRESH_RESTORE (R145, R159). -/
def execPortThreshRestore (c : Cmd) (mask : Nat) (s : State) : Host.Outcome State Fault Refusal :=
  runCmd { op := 0x0301, pf0 := true } c s fun _ r =>
    ((bitsOf 64 mask).foldl (fun (r : Run) (n : Nat) => r.modPort n (fun p => { p with cur := p.base })) r, .ok)

end Sys2Proof.Machine
end

