-- ==== Sys2Proof/Machine/Sdram.lean ====
section
/-! DEFINITION. The SDRAM region plan (Table 1.5, R32, R33) and the units of 8 KiB that errors are counted against (R36). -/

namespace Sys2Proof.Machine

/-- The regions of Table 1.5. -/
inductive Region where
  | firmware | sigdb | publish | engine | snapshot | config | keyblob | reserved | dr | pool
  deriving DecidableEq, Repr

/-- A fixed region: its channel (false MEMA, true MEMB), offset and size. -/
structure Extent where
  region : Region
  memB : Bool
  offset : Nat
  size : Nat
  deriving DecidableEq, Repr

/-- One MiB. -/
def mib : Nat := 2 ^ 20

/-- The fixed regions in the first GiB of each channel (Table 1.5). -/
def fixedRegions : List Extent :=
  [{ region := .firmware, memB := false, offset := 0x00000000, size := 256 * mib },
   { region := .sigdb, memB := false, offset := 0x10000000, size := 128 * mib },
   { region := .publish, memB := false, offset := 0x18000000, size := 32 * mib },
   { region := .engine, memB := false, offset := 0x1A000000, size := 64 * mib },
   { region := .snapshot, memB := false, offset := 0x1E000000, size := 256 * mib },
   { region := .reserved, memB := false, offset := 0x2E000000, size := 288 * mib },
   { region := .config, memB := true, offset := 0x00000000, size := 512 * mib },
   { region := .keyblob, memB := true, offset := 0x20000000, size := 16 * mib },
   { region := .reserved, memB := true, offset := 0x21000000, size := 496 * mib }]

/-- The offset in each channel at which the DR region begins. -/
def drBase : Nat := 2 ^ 30

/-- The channel and the offset of byte `a` of the DR region: it is striped in units of 4 KiB, starting with MEMA (R32). -/
def drPlace (a : Nat) : Bool × Nat := ((a / 4096) % 2 == 1, drBase + a / 8192 * 4096 + a % 4096)

/-- The offset in each channel at which the instance pool begins, above a DR region of `gib` GiB. -/
def poolBase (gib : Nat) : Nat := drBase + gib * 2 ^ 29

/-- Bytes of the instance pool in each channel: the remainder of the channel (R32). -/
def Sys.poolSize (s : Sys) : Nat := s.capacity * 2 ^ 30 - poolBase s.drLaid

/-- The region of a byte of a channel under a DR region of `gib` GiB. -/
def regionAt (gib : Nat) (memB : Bool) (at' : Nat) : Region :=
  match fixedRegions.find? fun e => e.memB == memB && decide (e.offset ≤ at') && decide (at' < e.offset + e.size) with
  | some e => e.region
  | none => if at' < poolBase gib then .dr else .pool

/-- A region whose loss makes HEALTHY fall (R618). -/
def Region.critical : Region → Bool
  | .firmware | .sigdb | .publish | .config | .keyblob => true
  | _ => false

/-- What the HKP rewrites a remapped row of a region from (R618); a row of any other region comes back zeroed. -/
inductive RowSource where
  | fla | config | strongroomStore | zeros
  deriving DecidableEq, Repr

/-- The source of a region's rows (R618). -/
def Region.source : Region → RowSource
  | .firmware => .fla
  | .publish | .sigdb => .config
  | .keyblob => .strongroomStore
  | _ => .zeros

end Sys2Proof.Machine
end

