-- ==== Sys2Proof/Machine/FaultOps.lean ====
section
/-! DEFINITION. Error reports, targeted self-tests, islands, the HKP, and admission after a fault (chapter 19). -/

namespace Sys2Proof.Machine

/-! ### Units (Tables 19.1 and 19.2) -/

/-- The class of a unit ID. -/
def unitClass (u : Nat) : Nat := u / 2 ^ 24

/-- The index of a unit ID. -/
def unitIndex (u : Nat) : Nat := u % 2 ^ 24

/-- Banks of each SRAM store (Table 19.2). -/
def storeBanks : List Nat := [64, 32, 8, 16, 4, 2, 1, 1, 8, 20, 19, 1]

/-- A store that Table 19.2 calls critical. -/
def storeCritical (s : Nat) : Bool := [1, 2, 3, 4, 6, 8, 9, 10].contains s

/-- The store of an SRAM bank. -/
def storeOf (u : Nat) : Nat := field u 11 8

/-- SDRAM rows of a channel of `gib` GiB (R618). -/
def rowsOf (gib : Nat) : Nat := gib * 131072

/-- A unit ID names a unit (Table 19.1); `rows` is the number of SDRAM rows of a channel. -/
def unitExists (rows u : Nat) : Bool :=
  let i := unitIndex u
  match unitClass u with
  | 1 => decide (i < 4096) && decide (i % 256 < storeBanks.getD (i / 256) 0)
  | 2 => decide (i < 16)
  | 3 => decide (i < 8)
  | 4 => decide (i < 4)
  | 5 => i == 0
  | 6 => i == 0
  | 7 => decide (i < 28)
  | 8 => decide (i < 64)
  | 9 => decide (i % 2 ^ 23 < rows)
  | 10 => decide (i < 31)
  | 11 => i == 0
  | _ => false

/-- A kind of FLT_INJECT applies to a class (R614): 1 corrected, 2 uncorrectable, 3 lockstep or parity, 4 loss of lock.
DEDUCED, assumption 62: unsafe. -/
def kindApplies (cls kind : Nat) : Bool :=
  match kind with
  | 1 => cls == 1 || cls == 2 || cls == 9
  | 2 => cls == 1 || cls == 2 || cls == 8 || cls == 9
  | 3 => (decide (2 ≤ cls) && decide (cls ≤ 6)) || cls == 11
  | 4 => cls == 7 || cls == 10
  | _ => false

/-- The dispatch class of Table 9.6 that a unit class serves. -/
def dispatchClass : Nat → Option Nat
  | 2 => some 0 | 3 => some 1 | 4 => some 3 | 5 => some 2 | 6 => some 4 | _ => none

/-- The ports of a lane, a MAC or a port island. -/
def portsOf (u : Nat) : List Nat :=
  match unitClass u with
  | 7 => (List.range 64).filter fun n => laneOf n == unitIndex u
  | 8 => [unitIndex u]
  | 10 => (List.range 64).filter fun n => islandOf n == unitIndex u
  | _ => []

/-- The length of a self-test in ticks (Table 19.1); for Millrace and the publisher, of its idle cycles at the least. -/
def testTicks (cls : Nat) : Nat :=
  match cls with
  | 1 => msTicks 2 | 7 => msTicks 10 | 8 => msTicks 1 | 9 => usTicks 100 | _ => msTicks 4

/-- The fault handling changed by `f`. -/
def Run.modFlt (r : Run) (f : Faults → Faults) : Run := { r with flt := f r.flt }

/-- A counter of FLT_STAT. -/
def Run.fltCount (r : Run) (k : Nat) : Run := r.modFlt fun x => { x with stat := tabInc x.stat k }

/-- What the device knows of a unit. -/
def Run.unit (r : Run) (u : Nat) : UnitRec := tabGetD r.flt.units u {}

/-- A unit's record changed by `f`. -/
def Run.modUnit (r : Run) (u : Nat) (f : UnitRec → UnitRec) : Run :=
  r.modFlt fun x => { x with units := tabPut x.units u (f (tabGetD x.units u {})) {} }

/-- 24 h in ns. -/
def dayNs : Nat := 86400000000000

/-- The instants of a history that lie within 24 h. -/
def within24h (now : Instant) (l : List Instant) : List Instant := l.filter fun t => decide (now < t + dayNs)

/-! ### Reports (R614, R632) -/

/-- A report is counted, and EV_FLT_REPORT raised at most once per unit in 100 ms. -/
def Run.noteReport (r : Run) (u kind : Nat) : Run :=
  let at' := r.now
  let x := r.unit u
  let n := x.reports + 1
  let quiet : Bool := match x.reportedAt with | some t => decide (at' < t + 100000000) | none => false
  let r := (r.fltCount 0).modUnit u fun x => { x with
    lastReport := at', reports := if quiet then n else 0, reportedAt := if quiet then x.reportedAt else some at' }
  if quiet then r else r.raise { ev := .fltReport, source := 1, data := [u, kind, n % 65536] }

/-- EV_FLT_UNIT. -/
def Run.unitEvent (r : Run) (u : Nat) (st : UnitState) : Run :=
  r.raise { ev := .fltUnit, source := 3, data := [u, st.code] }

/-! ### Leaving and returning to service (Table 19.1, R617, R626) -/

/-- Jobs in execution are dropped (R321, R626); a dropped release is taken again at once. -/
def Run.dropWhere (r : Run) (p : Flight → Bool) : Run :=
  (r.slc.flights.filter fun f => f.phase == .executing && p f).foldl (fun (r : Run) f =>
    let cls := f.cls
    let op := match (r.slcOf f.inst).g.nodes[f.node]? with | some g => g.op | none => 0
    let live := decide (f.gen = (r.inst f.inst).gen)
    let step : Option (Nat × Word) := if cls = 3 ∧ live then (r.task f.inst op).bind (·.step) else none
    let r := if cls = 3 ∧ live then r.modTask f.inst op fun t => { t with image := none, step := none } else r
    let r := (r.jobEnds f .dropped).1
    let r := match step with | some (fn, cseq) => r.finish fn cseq { status := .discarded } | none => r
    if cls = 4 ∧ live then (r.pubJob f op).fltCount 7 else r) r

/-- The jobs that a unit of a dispatch class executes are dropped. -/
def Run.dropJobs (r : Run) (cls unit : Nat) : Run := r.dropWhere fun f => f.cls == cls && f.unit == unit

/-- A unit of a dispatch class is taken from SLC_UNITS. -/
def Run.unitDown (r : Run) (cls unit : Nat) : Run :=
  r.modSluice fun x => { x with down := if x.down.contains (cls, unit) then x.down else x.down ++ [(cls, unit)] }

/-- A unit of a dispatch class is put back into SLC_UNITS. -/
def Run.unitUp (r : Run) (cls unit : Nat) : Run :=
  r.modSluice fun x => { x with down := x.down.filter (· != (cls, unit)) }

/-- A port loses its link to a fault (R150): what it was receiving ends, and its frames are lost. -/
def Run.portFault (r : Run) (n : Nat) : Run :=
  let r := r.dropIncoming n
  if (r.port n).link then (r.linkDown n).raisePair (n / 2) 1 else r

/-- What follows when a unit leaves service. -/
def Run.leaveService (r : Run) (u : Nat) : Run :=
  let i := unitIndex u
  match unitClass u with
  | 2 => (r.unitDown 0 i).dropJobs 0 i
  | 3 => (r.unitDown 1 i).dropJobs 1 i
  | 4 => (r.unitDown 3 i).dropJobs 3 i
  | 5 => r.dropJobs 2 0
  | 6 => r.dropJobs 4 0
  | 7 => (portsOf u).foldl (fun (r : Run) n => r.portFault n) r
  | 8 => (portsOf u).foldl (fun (r : Run) n => r.portFault n) r
  | _ => r

/-- The cells of a Cistern bank are back. -/
def Run.restoreCells (r : Run) : Run :=
  let d := min 1024 r.flt.withdrawDue
  (r.modFlt fun x => { x with withdrawn := x.withdrawn - (1024 - d), withdrawDue := x.withdrawDue - d }).modSw fun w =>
    { w with free := w.free + (1024 - d) }

/-- A unit returns to service. -/
def Run.returnUnit (r : Run) (u : Nat) (was : UnitState) : Run :=
  let r := ((r.modUnit u fun x => { x with state := .inService }).fltCount 5).devState
  let r := match dispatchClass (unitClass u) with | some c => r.unitUp c (unitIndex u) | none => r
  if unitClass u = 1 ∧ storeOf u = 0 ∧ was = .retired then
    r.restoreCells
  else r

/-! ### Admission after a fault (R623) -/

/-- An event of R623: a run starts, or starts again; a commit or a resume in execution is discarded. -/
def Run.startAdmission (r : Run) : Run :=
  let at' := r.ticks
  (r.modFlt fun x => { x with admission := some at' }).discardAll fun _ a =>
    a.started && (a.entry.opcode == 0x0202 || a.entry.opcode == 0x0208)

/-- A class whose loss admission must judge. -/
def judged (cls : Nat) : Bool := decide (2 ≤ cls) && decide (cls ≤ 6)

/-! ### Retirement (R615 to R618, R620) -/

/-- A unit takes a lasting condition: counted and reported, and admission judges what is left. -/
def Run.markUnit (r : Run) (u : Nat) (st : UnitState) : Run :=
  let r := ((r.modUnit u fun x => { x with state := st }).fltCount (if st = .suspect then 4 else 3)).devState
  let r := r.unitEvent u st
  let r := match dispatchClass (unitClass u) with | some c => r.unitDown c (unitIndex u) | none => r
  if judged (unitClass u) then r.startAdmission else r

/-- An SDRAM row lies in FIRMWARE, SIGDB, PUBLISH, CONFIG or KEYBLOB (Table 1.5). -/
def rowCritical (u : Nat) : Bool := (regionAt 0 ((unitIndex u).testBit 23) (unitIndex u % 2 ^ 23 * 8192)).critical

/-- What the HKP rewrites in a remapped row (R618): the eight data points of a SIGDB row, which CONFIG holds with no value yet. The
data of the engines that a row of another region held are those the report names (`Reader`).
DEDUCED, assumption 62: unsafe. -/
def Run.rewriteRow (r : Run) (u : Nat) : Run :=
  let at' := unitIndex u % 2 ^ 23 * 8192
  if !(unitIndex u).testBit 23 && regionAt 0 false at' == .sigdb then
    let first := (at' - 0x10000000) / 1024
    r.modIng fun e => { e with points := e.points.filter fun x => decide (x.1 < first) || decide (first + 8 ≤ x.1) }
  else r

/-- A retired row is remapped into a spare row of its channel (R618); without one, a critical row makes HEALTHY fall and any
other is withdrawn from use. -/
def Run.remapRow (r : Run) (u : Nat) : Run :=
  let ch := if (unitIndex u).testBit 23 then 1 else 0
  let used := r.flt.rowsUsed.getD ch 0
  if used < 4096 then
    let r := ((r.modFlt fun x => { x with rowsUsed := modAt x.rowsUsed ch (· + 1) }).modUnit u fun x => { x with replaced := true }).devState.rewriteRow u
    if used + 1 = 4096 then r.raise { ev := .fltSpares, source := 4, data := [0x80 + ch] } else r
  else if rowCritical u then r.healthyFall 3 u
  else r

/-- The field bus stops: every channel is bus-off and held in INIT, where its counters are 0. -/
def Run.fieldBusDown (r : Run) : Run :=
  (List.range 4).foldl (fun (r : Run) n =>
    let old := (r.can n).state
    let r := r.modBus n fun c => { (if c.state = 2 then c else c.enterBusOff none) with
      state := 2, tec := 0, rec' := 0, init := true, recovering := false }
    (r.endCancelled n).canStateEvent n old) r

/-- The 1,024 cells of a Cistern bank leave the free list: those that are free at once, the others as they come free (R616). -/
def Run.withdrawCells (r : Run) : Run :=
  let n := min 1024 r.sw.f
  (r.modFlt fun x => { x with withdrawn := x.withdrawn + n, withdrawDue := x.withdrawDue + (1024 - n) }).modSw fun w =>
    { w with free := w.free - n }

/-- What the Cellar stage held is lost with its bank, and counted. -/
def Run.loseStaged (r : Run) : Run :=
  let n := r.cel.stage.length
  { r with cel := { r.cel with stage := [], lostNow := r.cel.lostNow + n, stageLost := (r.cel.stageLost + n) % 2 ^ 64 } }

/-- A bank that fails while its store's spare is in use (R616): its block loses the bank's function, the Cellar stage and the field bus
what their one bank held.
DEDUCED, assumption 63: unsafe. -/
def Run.retireBank (r : Run) (u : Nat) : Run :=
  let s := storeOf u
  if storeCritical s then r.healthyFall 3 u
  else if s = 0 then r.withdrawCells
  else
    let r := if s = 7 then r.loseStaged else if s = 11 then r.fieldBusDown else r
    r.raise { ev := .fltSpares, source := 4, data := [s] }

/-- A unit is retired. `slot` is the test it failed, or none where the bank had no spare to be tested on. -/
def Run.retire (r : Run) (u : Nat) (slot : Option TestSlot) : Run :=
  let already : Bool := match slot with | some x => x.was == .retired | none => false
  let r := r.markUnit u .retired
  match unitClass u, slot with
  | 1, some x => if x.spare then r.modUnit u fun x => { x with replaced := true } else if already then r else r.retireBank u
  | 1, none => r.retireBank u
  | 9, _ => if already then r else r.remapRow u
  | _, _ => r

/-! ### Self-tests (R615, R620) -/

/-- A class is in recovery (R620). -/
def Faults.inRecovery (x : Faults) (cls : Nat) : Bool := (tabGet x.slots cls).isSome

/-- The spare bank of a store stands in for one of its banks (Table 19.1, R616).
DEDUCED, assumption 41: unsafe. -/
def Run.takeSpare (r : Run) (u : Nat) : Run := r.modFlt fun x => { x with sparesUsed := setIns x.sparesUsed (storeOf u) }

/-- A unit's self-test starts in its class's slot. A SUSPECT bank has had its store's spare since it left service.
DEDUCED, assumption 41: unsafe. -/
def Run.startTest (r : Run) (u : Nat) (retest : Option (Nat × Word)) : Run :=
  let was := (r.unit u).state
  let at' := r.ticks
  let spare := unitClass u == 1 && (was == .suspect || !r.flt.sparesUsed.contains (storeOf u))
  let slot : TestSlot := { unit := u, since := at', was := was, spare := spare, retest := retest }
  let r := (if spare then r.takeSpare u else r).modFlt fun x => { x with slots := tabSet x.slots (unitClass u) slot }
  let r := (r.modUnit u fun x => { x with state := .underTest }).fltCount 1
  if was = .inService then r.leaveService u else r

/-- The outcome of a unit's test (R615, R616): EV_FLT_TEST, what becomes of the unit, and the end of the retest. -/
def Run.endTest (r : Run) (s : TestSlot) (pass : Bool) : Run :=
  let u := s.unit
  let at' := r.now
  let hist := if pass then at' :: within24h at' (r.unit u).transients else (r.unit u).transients
  let third := decide (3 ≤ hist.length)
  let r := r.modUnit u fun x => { x with transients := hist }
  let r := if pass then r.fltCount 2 else r
  let r := r.raise { ev := .fltTest, source := 2, data := [u, if !pass then 1 else if third then 2 else 0] }
  let back := pass && !third
  let r := if back then r.returnUnit u s.was else r.retire u (some s)
  let r := if s.spare ∧ back then r.modFlt fun x => { x with sparesUsed := setDel x.sparesUsed (storeOf u) } else r
  let r := r.modFlt fun x => { x with
    slots := if !back && judged (unitClass u) then tabSet x.slots (unitClass u) { s with busy := false, retest := none }
             else tabDel x.slots (unitClass u) }
  match s.retest with
  | some (fn, cseq) => r.finish fn cseq { result := [if pass then 0 else 1] }
  | none => r

/-! ### The HKP (R622) -/

/-- The unit ID of the HKP. -/
def hkpUnit : Nat := unitId 11 0

/-- An error report takes the HKP away: its pair is reset and tested. -/
def Run.hkpDown (r : Run) : Run :=
  let at' := r.now
  let r := r.startTest hkpUnit none
  r.modFlt fun x => { x with hkpAway := true, hkpRestarts := at' :: within24h at' x.hkpRestarts }

/-- The HKP has a lasting fault: HEALTHY falls, and no command is taken until the next device restart. -/
def Run.hkpLost (r : Run) (u : Nat) : Run :=
  (r.modFlt fun x => { x with hkpAway := false, hkpDead := true }).healthyFall 5 u

/-- Commands accepted and not completed. -/
def Run.uncompleted (r : Run) : Nat := (r.fns.map fun f => f.accepted.length).sum

/-- The HKP returns: what was left uncompleted is discarded, or its fault is lasting. -/
def Run.hkpReturn (r : Run) (pass : Bool) : Run :=
  let n := r.flt.hkpRestarts.length
  let r := r.raise { ev := .fltTest, source := 2, data := [hkpUnit, if pass then 0 else 1] }
  let r := r.modFlt fun x => { x with slots := tabDel x.slots 11 }
  if pass && decide (n < 3) then
    let r := r.returnUnit hkpUnit .inService
    let before := r.uncompleted
    let r := (r.modFlt fun x => { x with hkpAway := false }).discardAll fun _ _ => true
    r.raise { ev := .hkpRestart, source := 5, data := [n, (before - r.uncompleted) % 65536] }
  else (r.markUnit hkpUnit .retired).hkpLost hkpUnit

/-! ### Islands (R619, Table 19.3) -/

/-- The safety I/O stops: its balls and HEALTHY are high-impedance (R510). -/
def Run.safetyDown (r : Run) : Run :=
  let r := (List.range 32).foldl (fun (r : Run) n =>
    let r := if (r.so n).enabled then r.emit (.ball (.so n) .z) else r
    r.modSo n fun z => { z with enabled := false }) r
  r.emit (.ball .healthy .z)

/-- What a lasting fault of an island does. -/
def Run.islandDown (r : Run) (i : Nat) : Run :=
  let u := unitId 10 i
  if r.flt.lasting.contains i then r
  else
    let r := r.modFlt fun x => { x with lasting := setIns x.lasting i, unlocked := tabDel x.unlocked i }
    if i < 16 then (portsOf u).foldl (fun (r : Run) n => r.portFault n) r
    else match i with
      | 22 => if (r.unit (unitId 5 0)).state = .retired then r else (r.dropJobs 2 0).retire (unitId 5 0) none
      | 24 => (r.healthyFall 2 u).safetyDown
      | 25 => r.fieldBusDown
      | 26 => r.unitEvent u .retired
      | 28 => r.flrAll r.ownSources
      | 29 => r.hkpLost u
      | _ => r.healthyFall 2 u

/-- An island event is transient: counted with its instant. -/
def Run.islandTransient (r : Run) (i : Nat) : Run :=
  let at' := r.now
  (r.fltCount 2).modUnit (unitId 10 i) fun x => { x with transients := at' :: within24h at' x.transients }

/-- An island event (R619); the third within 24 h is a lasting fault. `lossOfLock` is an event of R17 that still stands; `trng`
a failure of the TRNG alone, which is no lasting fault.
DESIGN CHOICE, assumption 58: safe. -/
def Run.islandEvent (r : Run) (i kind : Nat) (lossOfLock : Bool := false) (trng : Bool := false) : Run :=
  let r := r.noteReport (unitId 10 i) kind
  if r.flt.lasting.contains i ∨ (lossOfLock ∧ (tabGet r.flt.unlocked i).isSome) then r
  else
    let at' := r.now
    let events := at' :: within24h at' (tabGetD r.flt.islandEvents i [])
    let since := r.ticks
    let r := r.modFlt fun x => { x with islandEvents := tabSet x.islandEvents i events }
    if 3 ≤ events.length ∧ !trng then r.islandDown i
    else if lossOfLock then r.modFlt fun x => { x with unlocked := tabSet x.unlocked i since }
    else r.islandTransient i

/-- An island event other than a loss of lock, whose kind in EV_FLT_REPORT the spec leaves open: a free value. -/
def Run.islandOther (r : Run) (i : Nat) (trng : Bool := false) : Run :=
  let (k, r) := r.takeFree 8
  r.islandEvent i k.toNat false trng

/-- A chain excess is not an island event while a unit's loss may explain it (R625). -/
def Run.chainExcused (r : Run) : Bool :=
  [2, 3, 4].any (fun c => (tabGet r.flt.slots c).isSome) || r.flt.admission.isSome || r.flt.cause == 1

/-- The chains that a job's end finds late are events of the Sluice island, outside R625 (R322). -/
def Run.chainsLate (r : Run) (late : List (Nat × Nat × Nat)) : Run :=
  late.foldl (fun (r : Run) _ => if r.chainExcused then r else r.islandOther 19) r

/-! ### An error report (R614 to R620) -/

/-- A report against a unit that is in service, by its class and the slots in use.
DEDUCED, assumption 41: unsafe. -/
def Run.handleReport (r : Run) (u : Nat) : Run :=
  let c := unitClass u
  if c = 11 then r.hkpDown
  else if c = 1 ∧ r.flt.sparesUsed.contains (storeOf u) then (r.leaveService u).retire u none
  else if r.flt.inRecovery c then ((if c = 1 then r.takeSpare u else r).leaveService u).markUnit u .suspect
  else r.startTest u none

/-- Sixteen corrected errors of a bank or row within 1 s are one report (R614); fewer are only counted (R27, R36). True when
a report is due. -/
def Run.correctedError (r : Run) (u : Nat) : Run × Bool :=
  let at' := r.now
  let x := r.unit u
  let recent := at' :: x.recent.filter fun t => decide (at' < t + 1000000000)
  let due := decide (16 ≤ recent.length)
  (r.modUnit u fun x => { x with corrected := (x.corrected + 1) % 2 ^ 64, recent := if due then [] else recent }, due)

/-- One error report of a kind against a unit.
DEDUCED, assumption 59: unsafe. DEDUCED, assumption 62: unsafe. -/
def Run.errorReport (r : Run) (u kind : Nat) : Run :=
  let (r, due) := if kind = 1 then r.correctedError u else (r, true)
  if !due then r
  else if unitClass u = 10 then r.islandEvent (unitIndex u) kind true
  else
    let r := r.noteReport u kind
    if (r.unit u).state ≠ .inService then r else r.handleReport u

/-- An uncorrectable error in a cell of Cistern is a fault of its bank (R180). -/
def Run.cellFault (cell : Nat) (r : Run) : Run := r.errorReport (unitId 1 (cell / 1024 % 64)) 2

/-! ### The admission run (R623, R624) -/

/-- The ACTIVE instance to shed: the highest rank above 0, and the highest number among equals (R121). -/
def Run.shedNext (r : Run) : Option Nat :=
  ((List.range 32).filter fun n => (r.inst n).phase == .active && decide (0 < (r.inst n).rank)).foldl (fun (best : Option Nat) n =>
    match best with
    | none => some n
    | some b => if (r.inst b).rank ≤ (r.inst n).rank then some n else some b) none

/-- Runs until one passes or only RANK 0 instances are left. True when the last one passed. -/
def Run.shedLoop : Nat → Run → Run × Bool
  | 0, r => (r, false)
  | fuel + 1, r =>
    let a := r.admission none
    let r := r.storeBounds a.bounds a.needs
    if a.refusals.isEmpty then (r, true)
    else match r.shedNext with
      | some n => Run.shedLoop fuel (r.shed n)
      | none => (r, false)

/-- The run that a fault started completes. -/
def Run.admissionDone (r : Run) : Run :=
  let r := r.fltCount 6
  let (r, ok) := r.shedLoop 33
  let r := if ok then r else r.healthyFall 1 0
  r.modFlt fun x => { x with admission := none, slots := x.slots.filter fun e => e.2.busy }

end Sys2Proof.Machine
end

