-- ==== Sys2Proof/Machine/Switch.lean ====
section
/-! DEFINITION. The steps of chapter 5: forwarding, ageing, supervision, the census and the switch commands. -/

namespace Sys2Proof.Machine

/-- FRAME_FORWARD (R169 to R188): the frame numbered `fid` that entered at switch port `inp`. For an external port `f` is
the header just arrived, unless the frame was received whole before; for an internal port the frame waiting there is
taken. -/
def execFrameForward (inp fid : Nat) (f : Frame) (dt : Nat) (s : State) : Host.Outcome State Fault Refusal :=
  whenRunning s fun _ r =>
    let r := r.pass dt
    if inp < 64 then r.forwardExternal inp fid f
    else if inp ≤ 67 then r.forwardInternal inp fid
    else r

/-- FDB_ENTRY_AGE (R164).
DEDUCED, assumption 82: unsafe. -/
def execFdbEntryAge (mac vid dt : Nat) (s : State) : Host.Outcome State Fault Refusal :=
  whenRunning s fun _ r =>
    let r := r.pass dt
    match r.sw.fdb.find? (fun e => e.mac == mac && e.vid == vid) with
    | some e => if r.sw.live r.now e then r else r.modSw fun w => { w with fdb := w.fdbDrop mac vid }
    | none => r

/-- NODE_ENTRY_FORGET (R189). -/
def execNodeEntryForget (pair mac dt : Nat) (s : State) : Host.Outcome State Fault Refusal :=
  whenRunning s fun _ r =>
    let r := r.pass dt
    r.modSw fun w => { w with nodes := w.nodes.filter fun n =>
      !(n.pair == pair && n.mac == mac && decide (n.refreshed + w.nodeForget * 1000000000 ≤ r.now)) }

/-! ### Census (R179) -/

/-- What a census adds up to when no cell is lost or held twice: 65,536 less the cells withdrawn (R616). -/
def Run.censusTotal (r : Run) : Nat := 65536 - r.flt.withdrawn

/-- F_free + Q_all + I (R179): the cells on the free list, and those that frames have taken. -/
def Switch.cellSum (w : Switch) : Nat := w.free + (w.frames.map fun e => e.2.taken).sum

/-- A census (R179). `skew` is by how much an undetected error has changed the free list since the last one. A wrong sum starts a
walk; one that falls in a walk is skipped.
DEDUCED, assumption 63: unsafe. -/
def Run.census (r : Run) (skew : Int) : Run :=
  let r := r.modSw fun w => { w with free := ((w.free : Int) + skew).toNat }
  let sum := r.sw.cellSum
  if r.sw.walking then r.modSw fun w => { w with skipped := (w.skipped + 1) % 65536 }
  else r.modSw fun w => { w with censusSum := sum, walking := decide (sum ≠ r.censusTotal) }

/-- CISTERN_CENSUS (R179): at each TAI instant whose nanoseconds are a multiple of 100,000,000. -/
def execCisternCensus (skew : Int) (dt : Nat) (s : State) : Host.Outcome State Fault Refusal :=
  whenRunning s fun _ r =>
    let r := r.pass dt
    let k := r.now / 100000000
    if k = r.sw.censusAt then r else (r.modSw fun w => { w with censusAt := k }).census skew

/-- SW_CENSUS_NOW (R194): ST_BUSY while a walk runs; with a walk of its own the completion waits for it. -/
def execSwCensusNow (c : Cmd) (skew : Int) (s : State) : Host.Outcome State Fault Refusal :=
  runCmd { op := 0x030A, pf0 := true } c s fun _ r =>
    if r.sw.walking then (r, .status .busy)
    else
      let r := r.census skew
      if r.sw.walking then (r.modSw fun w => { w with walkWait := w.walkWait ++ [(c.fn, c.cseq)] }, .wait)
      else (r, .done { result := [(r.sw.censusSum : Int), 0, r.sw.double] })

/-! ### Supervision (R190 to R192) -/

/-- A frame number no frame in Cistern has. -/
def Run.freshFid (r : Run) : Nat := (r.sw.frames.map fun e => e.1 + 1).foldl max 0

/-- One supervision frame naming `node` goes out on both ports of a pair in traffic class 7 (R190), with the RedBox TLV for a
proxied source.
DESIGN CHOICE, assumption 8: safe. -/
def Run.sendSupervision (r : Run) (pair node : Nat) (redBox : Option Nat := none) : Run :=
  let f : Frame := { da := 0x01154E000100, sa := Config.deviceMac, etype := 0x88FB, len := 64, stamp := r.now,
                     payload := .supervision node redBox }
  r.deliver r.freshFid 65 { frame := f, tc := 7 } true 1
    { vid := 0, pcp := 0, tc := 7, dests := [.port (2 * pair), .port (2 * pair + 1)] }

/-- SUPERVISION_SEND (R190): once per LIFE_CHECK; in modes 2, 4 and 5 also one frame per proxied source. -/
def execSupervisionSend (pair dt : Nat) (s : State) : Host.Outcome State Fault Refusal :=
  whenRunning s fun _ r =>
    let r := r.pass dt
    let m := r.sw.mode pair
    let due := match tabGet r.sw.supSentAt pair with
      | none => true
      | some t => decide (t + r.sw.lifeCheck * 1000000 ≤ r.now)
    if m = 0 ∨ !due then r
    else
      let r := (r.sendSupervision pair Config.deviceMac).modSw fun w => { w with supSentAt := tabSet w.supSentAt pair r.now }
      if m = 2 ∨ m = 4 ∨ m = 5 then
        (r.sw.proxies.filter (fun x => x.pair == pair)).foldl (fun (r : Run) (x : Proxy) => r.sendSupervision pair x.mac (some Config.deviceMac)) r
      else r

/-- SUPERVISION_SILENCE (R192): nothing from a node on side `b` for 3 × LIFE_CHECK, from the making of its entry at the least,
while the other side hears it. -/
def execSupervisionSilence (pair mac : Nat) (b : Bool) (dt : Nat) (s : State) : Host.Outcome State Fault Refusal :=
  whenRunning s fun _ r =>
    let r := r.pass dt
    let span := 3 * r.sw.lifeCheck * 1000000
    match r.sw.node pair mac with
    | none => r
    | some n =>
      let here := if b then n.supB else n.supA
      let there := if b then n.supA else n.supB
      let silent := decide (here.getD n.since + span ≤ r.now)
      let heard := match there with | none => false | some t => decide (r.now < t + span)
      if silent && heard then r.raisePair pair 2 [mac] else r

/-! ### Commands (R194) -/

/-- A VID a VLAN may have: 1 to 4,094. -/
def vidOk (vid : Nat) : Bool := decide (1 ≤ vid) && decide (vid ≤ 4094)

/-- SW_VLAN_SET: the member and untagged sets of a VID, as masks of the 68 switch ports. -/
def execSwVlanSet (c : Cmd) (vid members untagged : Nat) (s : State) : Host.Outcome State Fault Refusal :=
  runCmd { op := 0x0302, pf0 := true } c s fun _ r =>
    if !vidOk vid then (r, .status .range)
    else (r.modSw fun w => { w with vlans := tabSet w.vlans vid { members := bitsOf 68 members, untagged := bitsOf 68 untagged } }, .ok)

/-- The learned entry of a bucket refreshed least recently. -/
def oldestLearned (b : List FdbEntry) : Option FdbEntry :=
  (b.filter (fun e => !e.static)).foldl (fun (best : Option FdbEntry) e =>
    match best with
    | none => some e
    | some x => if e.refreshed < x.refreshed then some e else some x) none

/-- SW_FDB_ADD (R163). -/
def execSwFdbAdd (c : Cmd) (mac vid ports fns : Nat) (s : State) : Host.Outcome State Fault Refusal :=
  runCmd { op := 0x0303, pf0 := true } c s fun _ r =>
    let e : FdbEntry := { mac := mac, vid := vid, static := true, ports := bitsOf 68 ports,
                          fns := bitsOf 33 fns, refreshed := r.now }
    let w := r.sw
    if !vidOk vid then (r, .status .range)
    else if w.fdb.any (fun x => x.mac == mac && x.vid == vid) ∨ (w.bucket mac vid).length < 8 then
      (r.modSw fun w => { w with fdb := w.fdbDrop mac vid ++ [e] }, .ok)
    else match oldestLearned (w.bucket mac vid) with
      | some old => (r.modSw fun w => { w with fdb := w.fdbDrop old.mac old.vid ++ [e] }, .ok)
      | none => (r, .status .fdbFull)

/-- SW_FDB_DEL (R194): ST_RANGE where the entry is absent. -/
def execSwFdbDel (c : Cmd) (mac vid : Nat) (s : State) : Host.Outcome State Fault Refusal :=
  runCmd { op := 0x0304, pf0 := true } c s fun _ r =>
    if (r.sw.fdb.any fun x => x.mac == mac && x.vid == vid && r.sw.live r.now x) then
      (r.modSw fun w => { w with fdb := w.fdbDrop mac vid }, .ok)
    else (r, .status .range)

/-- SW_FDB_FLUSH (R194): the entries of a VID, or of all with 0; static ones where asked. -/
def execSwFdbFlush (c : Cmd) (vid : Nat) (static : Bool) (s : State) : Host.Outcome State Fault Refusal :=
  runCmd { op := 0x0305, pf0 := true } c s fun _ r =>
    let goes (e : FdbEntry) : Bool := (vid == 0 || e.vid == vid) && (static || !e.static)
    if 4095 ≤ vid then (r, .status .range)
    else (r.modSw fun w => { w with fdb := w.fdb.filter (fun e => !goes e) },
          .done { result := [((r.sw.fdb.filter goes).length : Int)] })

/-- The mask of a set of numbers. -/
def maskOfSet (l : List Nat) : Nat := l.foldl (fun m i => m ||| 2 ^ i) 0

/-- SW_FDB_READ (R194): MAC, VID, port mask, function mask and age of every entry.
DEDUCED, assumption 82: unsafe. -/
def execSwFdbRead (c : Cmd) (s : State) : Host.Outcome State Fault Refusal :=
  runQuery { op := 0x0306, pf0 := true } c s fun _ _ r =>
    let l := r.sw.fdb.filter (r.sw.live r.now)
    .done { buffer := l.flatMap fun e =>
              [(e.mac : Int), e.vid, maskOfSet e.ports, maskOfSet e.fns, ((r.now - e.refreshed) / 1000000000 : Nat)],
            bufLen := 24 * l.length }

/-- SW_HOST_VLAN (R168): a function's permitted VIDs (at most 64), default VID and MAX_PCP. -/
def execSwHostVlan (c : Cmd) (m maxPcp defVid : Nat) (vids : List Nat) (s : State) : Host.Outcome State Fault Refusal :=
  runCmd { op := 0x0307, pf0 := true, buf := true, need := some (2 * vids.length) } c s fun _ r =>
    if 33 ≤ m ∨ 8 ≤ maxPcp ∨ !vidOk defVid ∨ 64 < vids.length ∨ !vids.all vidOk then (r, .status .range)
    else (r.modSw fun w => { w with hostVlans := tabSet w.hostVlans m { maxPcp := maxPcp, defVid := defVid, vids := vids } }, .ok)

/-- The mode of a pair set; clearing it frees the pair's node entries (R189). -/
def Switch.setMode (w : Switch) (j mode : Nat) : Switch :=
  let w := { w with redMode := tabPut w.redMode j mode 0 }
  if mode = 0 then
    { w with nodes := w.nodes.filter (fun n => n.pair != j), proxies := w.proxies.filter (fun x => x.pair != j) }
  else w

/-- SW_RED_SET (R182). MODE is an RWL item: a change while the configuration is locked meets ST_LOCKED (assumption 11, DESIGN CHOICE). -/
def execSwRedSet (c : Cmd) (j mode : Nat) (s : State) : Host.Outcome State Fault Refusal :=
  runCommand { op := 0x0308, pf0 := true } c s fun _ sys r =>
    let a := r.port (2 * j)
    let b := r.port (2 * j + 1)
    if 32 ≤ j ∨ 6 ≤ mode then (sys, r, .status .range)
    else if sys.locked ∧ mode ≠ r.sw.mode j then (sys, r.lockedWrite c.fn (0x00144100 + 4 * j), .status .locked)
    else if a.mode ≠ b.mode ∨ a.maxFrame ≠ b.maxFrame then (sys, r, .status .pairMismatch)
    else if mode = 5 ∧ r.sw.mode (j ^^^ 1) ≠ 5 then (sys, r, .status .redConflict)
    else if (r.sw.port (2 * j)).trib || (r.sw.port (2 * j + 1)).trib then (sys, r, .status .redConflict)
    else (sys, r.modSw (·.setMode j mode), .ok)

/-- SW_NODE_READ (R194): MAC, NEWEST, LAST[A], LAST[B], flags and age of every entry of a pair. The manual does not say
what the flags are: one free value (assumption 1, DESIGN CHOICE).
DEDUCED, assumption 82: unsafe. -/
def execSwNodeRead (c : Cmd) (j : Nat) (s : State) : Host.Outcome State Fault Refusal :=
  runCmd { op := 0x0309, pf0 := true } c s fun _ r =>
    let l := r.sw.nodes.filter (fun n => n.pair == j)
    let (flags, r) := r.takeFree 32
    if 32 ≤ j then (r, .status .range)
    else (r, .done {
      buffer := l.flatMap fun n => [(n.mac : Int), n.newest, n.a.last, n.b.last, flags.toNat, ((r.now - n.refreshed) / 1000000 : Nat)],
      bufLen := 32 * l.length })

end Sys2Proof.Machine
end

