-- ==== Sys2Proof/Machine/Faults.lean ====
section
/-! DEFINITION. The steps of chapter 19, and those that report to it: transmission, the cell walk, the TRNG, the scrubber. -/

namespace Sys2Proof.Machine

/-! ### Transmission, which can meet a bad cell -/

/-- MAC_FRAME_TRANSMIT (R140 to R142, R146, R147, R153, R180). -/
def execMacFrameTransmit (n : Nat) (t : TxStep) (dt : Nat) (s : State) : Host.Outcome State Fault Refusal :=
  whenRunning s fun _ r =>
    let r := ((r.pass dt).settlePort n).takeCells t.present
    if !((r.port n).link && (r.port n).enable) then r
    else match (r.port n).sending with
      | some (q, x) =>
        match t.eccCell with
        | some cell => Run.eccDrop Run.cellFault r x.fid cell
        | none => if t.underrun then r.underrun n q x else r
      | none =>
        let r := (List.range 8).foldl (fun (r : Run) (q : Nat) => r.dropLong ((r.port n).queue q).length n q) r
        match r.pickQueue n t.present with
        | some q => Run.serve Run.cellFault r n q t
        | none => r

/-! ### Reports -/

/-- The frame that a reserved cell is not supplied to is dropped at every output, counted in ADMIT_DROP at each (R178). -/
def Run.cellMissing (r : Run) (fid : Nat) : Run :=
  match r.held fid with
  | none => r
  | some h =>
    if h.complete then r
    else
      let has (l : List Queued) : Bool := l.any fun x => x.fid == fid
      let sends (n : Nat) : Bool := match (r.port n).sending with | some (_, x) => x.fid == fid | none => false
      let inside (t : Tab (List Queued)) : Bool := t.any fun e => has e.2
      let outs := ((List.range 64).filter fun n => sends n || (List.range 8).any fun q => has ((r.port n).queue q)) ++
        (if inside r.sw.ingestQ then [64] else []) ++ (if inside r.sw.hostQ then [66] else []) ++
        (if inside r.sw.mirrorQ then [67] else [])
      let r := outs.foldl (fun (r : Run) p => r.swCount p 0) r
      (r.dropFrame fid).islandOther 16

/-- A row whose data are lost: it reads as zeros (R618). -/
def DrRow.lost (x : DrRow) : DrRow :=
  { x with values := x.values.map fun _ => (0, 0), quals := x.quals.map fun _ => 0, bits := x.bits.map fun _ => false }

/-- Rows whose Q ticks lie within `count` of `first` are lost.
DEDUCED, assumption 62: unsafe. -/
def loseRows (first count : Nat) (l : List DrRow) : List DrRow :=
  l.map fun x => if first ≤ x.q ∧ x.q < first + count then x.lost else x

/-- Work in flight that has read an uncorrectable error is discarded whole (R626): a frame (R180), a job (R321), the frame in the
ingest engine, a sample (missing under R280), or a command; and the data read are never used (R27, R618): recorded rows and the points of a
capture read as zeros, a staged record is lost, the frame of a message buffer is not sent, a retransmission is taken again.
DEDUCED, assumption 62: unsafe. -/
def Run.discardReader (r : Run) : Reader → Run
  | .nothing => r
  | .frame fid _ => r.dropFrame fid
  | .job n node => r.dropWhere fun f => f.inst == n && f.node == node
  | .ingest =>
    match r.sw.ingestHead with
    | some (q, x) => (r.modSw fun w => { w with ingestQ := tabPut w.ingestQ q ((tabGetD w.ingestQ q []).drop 1) [] }).release x.fid
    | none => r
  | .command fn cseq => r.discardAll fun m a => m == fn && a.entry.cseq == cseq
  | .sample slot index => r.modChan slot fun c => { c with ring := c.ring.filter fun x => x.index != index }
  | .rows d first count => r.modRec d fun x => { x with
      due := loseRows first count x.due, ring := loseRows first count x.ring,
      held := x.held.map fun y => { y with rows := loseRows first count y.rows } }
  | .capture k => r.modMlr fun m => { m with caps := modAt m.caps k fun c => { c with
      points := c.points.map fun _ => { a := 0, b := 0, tick := 0, flags := 0, w := 0 } } }
  | .flush seq =>
    if r.cel.stage.any fun x => x.seq == seq then
      r.modCel fun c => { c with
        stage := c.stage.filter fun x => x.seq != seq, lostNow := c.lostNow + 1, stageLost := (c.stageLost + 1) % 2 ^ 64 }
    else r
  | .canBuffer n b => r.modBuf n b fun x => { x with content := none, pending := false }
  | .retransmission d => (r.gooseRetry d).fltCount 7

/-- ERROR_REPORT (R614): an error of a kind of Table 19.6 in a unit, and what read the word where it is uncorrectable (R27, R36,
R618, R626). Kind 0 in the switch island is a reserved cell not supplied to a frame (R178). The other island events of Table
19.3 come with the steps that find them.
DEDUCED, assumption 63: unsafe.
DEDUCED, assumption 62: unsafe. -/
def execErrorReport (unit kind : Nat) (by' : Reader) (dt : Nat) (s : State) : Host.Outcome State Fault Refusal :=
  whenRunning s fun sys r =>
    let r := r.pass dt
    match by' with
    | .frame fid cell =>
      if unit = unitId 10 16 ∧ kind = 0 then r.cellMissing fid
      else if unit = unitId 1 (cell / 1024 % 64) ∧ kind = 2 ∧ (r.held fid).isSome then Run.eccDrop Run.cellFault r fid cell
      else if unitExists (rowsOf sys.capacity) unit && kindApplies (unitClass unit) kind then
        (if kind = 2 then r.discardReader by' else r).errorReport unit kind
      else r
    | _ =>
      if unitExists (rowsOf sys.capacity) unit && kindApplies (unitClass unit) kind then
        (if kind = 2 then r.discardReader by' else r).errorReport unit kind
      else r

/-- SRAM_SCRUB (R27, R28): the scrubber reads a word of an SRAM bank, or of the TCM of a core pair (Table 19.2); `found` is 1 for
a single-bit error, which it corrects and counts, 2 for an uncorrectable one, 0 for none.
DEDUCED, assumption 62: unsafe. -/
def execSramScrub (bank found dt : Nat) (s : State) : Host.Outcome State Fault Refusal :=
  whenRunning s fun _ r =>
    let r := r.pass dt
    if (unitClass bank = 1 ∨ unitClass bank = 2) ∧ unitExists 0 bank ∧ (found = 1 ∨ found = 2) then r.errorReport bank found else r

/-- SELF_TEST_DONE (R615): the test of a unit ends once its length has passed.
DESIGN CHOICE, assumption 61: unsafe. -/
def execSelfTestDone (unit : Nat) (pass : Bool) (dt : Nat) (s : State) : Host.Outcome State Fault Refusal :=
  whenRunning s fun _ r =>
    let r := r.pass dt
    match tabGet r.flt.slots (unitClass unit) with
    | some t =>
      if t.unit = unit ∧ t.busy ∧ unitClass unit ≠ 11 ∧ t.since + testTicks (unitClass unit) ≤ r.ticks then r.endTest t pass else r
    | none => r

/-- ISLAND_PLL_RELOCK (R619): transient when it comes within 1 ms, lasting when it comes after 10 ms; one that comes between is
neither counted nor lasting.
DEDUCED, assumption 60: unsafe. -/
def execIslandPllRelock (i dt : Nat) (s : State) : Host.Outcome State Fault Refusal :=
  whenRunning s fun _ r =>
    let r := r.pass dt
    match tabGet r.flt.unlocked i with
    | none => r
    | some t =>
      if t + msTicks 10 < r.ticks then r.islandDown i
      else
        let r := r.modFlt fun x => { x with unlocked := tabDel x.unlocked i }
        if r.ticks ≤ t + msTicks 1 then r.islandTransient i else r

/-- ISLAND_RELOCK_TIMEOUT (R619).
DEDUCED, assumption 60: unsafe. -/
def execIslandRelockTimeout (i dt : Nat) (s : State) : Host.Outcome State Fault Refusal :=
  whenRunning s fun _ r =>
    let r := r.pass dt
    match tabGet r.flt.unlocked i with
    | none => r
    | some t => if t + msTicks 10 ≤ r.ticks then r.islandDown i else r

/-- HKP_RETURN (R622): the HKP has tested itself and loaded its firmware. -/
def execHkpReturn (pass : Bool) (dt : Nat) (s : State) : Host.Outcome State Fault Refusal :=
  whenRunning s fun _ r =>
    let r := r.pass dt
    match tabGet r.flt.slots 11 with
    | some t => if r.flt.hkpAway ∧ t.since + testTicks 11 ≤ r.ticks then r.hkpReturn pass else r
    | none => r

/-- ADMISSION_RUN (R623, R624).
DEDUCED, assumption 63: unsafe. -/
def execAdmissionRun (dt : Nat) (s : State) : Host.Outcome State Fault Refusal :=
  whenRunning s fun _ r =>
    let r := r.pass dt
    if r.flt.admission.isSome then r.admissionDone else r

/-- TRNG_HEALTH_FAIL (R565): `test` is 1 for the repetition count, 2 for the adaptive proportion.
DEDUCED, assumption 63: unsafe. -/
def execTrngHealthFail (test dt : Nat) (s : State) : Host.Outcome State Fault Refusal :=
  whenRunning s fun _ r =>
    let r := r.pass dt
    if r.srm.trngFail then r
    else
      let r := ({ r with srm := { r.srm with trngFail := true } } : Run).srmCount 6
      (r.raise { ev := .srmTrng, source := 835, data := [test] }).islandOther 30 true

/-- CISTERN_WALK_DONE (R179): the walk returns `orphans` cells to the free list and takes from it the cells it finds held twice,
each named with the input port of its frame.
DEDUCED, assumption 63: unsafe. -/
def execCisternWalkDone (orphans : Nat) (doubles : List (Nat × Nat)) (dt : Nat) (s : State) : Host.Outcome State Fault Refusal :=
  whenRunning s fun _ r =>
    let r := r.pass dt
    if !r.sw.walking then r
    else
      let sum := r.sw.censusSum
      let waits := r.sw.walkWait
      let r := r.modSw fun w => { w with walking := false, walkWait := [], reclaimed := (w.reclaimed + orphans) % 2 ^ 64,
                                         free := w.free + orphans - doubles.length }
      let r := if orphans = 0 then r else r.raise { ev := .cisternLeak, source := 128, data := [orphans % 2 ^ 32, sum] }
      let r := doubles.foldl (fun (r : Run) (e : Nat × Nat) =>
        ((r.modSw fun w => { w with double := (w.double + 1) % 65536 }).raise
          { ev := .cisternDouble, source := 129, data := [e.1, e.2] }).islandOther 16) r
      waits.foldl (fun (r : Run) (w : Nat × Word) =>
        r.finish w.1 w.2 { result := [(sum : Int), orphans, r.sw.double] }) r

/-! ### Commands (R629) -/

/-- A fault command is entered in the Cellar as an EVENT record; its event code is a free value.
DESIGN CHOICE, assumption 58: safe. -/
def Run.faultRecord (r : Run) : Run :=
  let (code, r) := r.takeFree 16
  r.stage { type := 0x0010, time := r.now, data := [code.toNat] }

/-- An entry of FLT_LIST. -/
def unitEntry (now : Instant) (e : Nat × UnitRec) : Option (List Int) :=
  let n := (within24h now e.2.transients).length
  if e.2.state = .suspect ∨ e.2.state = .retired ∨ 0 < n then
    some [e.1, e.2.state.code, (min n 255 : Nat), secOf e.2.lastReport, nsOf e.2.lastReport]
  else none

/-- FLT_LIST (R629). -/
def execFltList (c : Cmd) (s : State) : Host.Outcome State Fault Refusal :=
  runCmd { op := 0x0F00, pf0 := true } c s fun _ r =>
    let r := r.faultRecord
    let l := r.flt.units.filterMap (unitEntry r.now)
    (r, .done { buffer := l.flatten, bufLen := 24 * l.length })

/-- FLT_UNIT_RETEST (R621): of a SUSPECT or RETIRED unit; it completes with the test.
DESIGN CHOICE, assumption 61: unsafe. -/
def execFltUnitRetest (c : Cmd) (unit : Nat) (s : State) : Host.Outcome State Fault Refusal :=
  runCommand { op := 0x0F01, pf0 := true } c s fun _ sys r =>
    let r := r.faultRecord
    let st := (r.unit unit).state
    if !unitExists (rowsOf sys.capacity) unit || decide (10 ≤ unitClass unit) || (r.unit unit).replaced then (sys, r, .status .fltUnit)
    else if r.flt.inRecovery (unitClass unit) then (sys, r, .status .busy)
    else if st ≠ .suspect ∧ st ≠ .retired then (sys, r, .status .state)
    else (sys, r.startTest unit (some (c.fn, c.cseq)), .wait)

/-- FLT_INJECT (R629): one error report to the unit; a loss of lock injected in an island relocks at once.
DEDUCED, assumption 60: unsafe. -/
def execFltInject (c : Cmd) (unit kind : Nat) (s : State) : Host.Outcome State Fault Refusal :=
  runCommand { op := 0x0F02, pf0 := true } c s fun _ sys r =>
    let r := r.faultRecord
    if !unitExists (rowsOf sys.capacity) unit || !kindApplies (unitClass unit) kind then (sys, r, .status .fltUnit)
    else if unitClass unit = 10 then (sys, r.islandEvent (unitIndex unit) kind, .ok)
    else (sys, r.errorReport unit kind, .ok)

end Sys2Proof.Machine
end

