-- ==== Sys2Proof/Machine/FieldBusOps.lean ====
section
/-! DEFINITION. The steps of chapter 18: frames, slots, supervision, and the field bus commands. -/

namespace Sys2Proof.Machine

/-- CAN_FRAME_RECEIVE (R593, R598, R599): a frame whose SOF the TSU saw at `sof`; `locked` tells that a read holds the
buffer that takes it; `tec` and `rec'` are the counters ISO 11898-1 leaves.
DEDUCED, assumption 90: unsafe. -/
def execCanFrameReceive (n : Nat) (f : CanFrame) (sof : Nat) (locked : Bool) (tec rec' dt : Nat) (s : State) :
    Host.Outcome State Fault Refusal :=
  whenRunning s fun _ r =>
    let r := r.pass dt
    let c := r.can n
    if 4 ≤ n ∨ !c.onBus then r
    else if f.fdf && !c.fdEn then r.canCount n 7
    else (r.canReceive n f sof locked).canErrors n tec rec'

/-- CAN_FRAME_END (R601, R605, R606, R608): the frame of buffer `b` ends on the wire.
DEDUCED, assumption 90: unsafe. -/
def execCanFrameEnd (n b : Nat) (e : CanEnd) (tec rec' : Nat) (tdcv : Option Nat) (dt : Nat) (s : State) :
    Host.Outcome State Fault Refusal :=
  whenRunning s fun _ r =>
    let r := r.pass dt
    let c := r.can n
    match tabGet c.bufs b with
    | some x =>
      if 4 ≤ n ∨ !c.onBus ∨ c.listen ∨ !x.pending ∨ !c.offered.contains b then r
      else (r.canFrameEnd n b e tdcv).canErrors n tec rec' (some b)
    | none => r

/-- CAN_SLOT_INSTANT (R602 to R604, R606). -/
def execCanSlotInstant (n cycle slot dt : Nat) (s : State) : Host.Outcome State Fault Refusal :=
  whenRunning s fun _ r => (r.pass dt).canSlot n cycle slot

/-- CAN_SLOT_WINDOW_EXPIRY (R603). -/
def execCanSlotWindowExpiry (n cycle slot dt : Nat) (s : State) : Host.Outcome State Fault Refusal :=
  whenRunning s fun _ r => (r.pass dt).canSlotEnd n cycle slot

/-- CAN_SUPERVISION_EXPIRY (R600). -/
def execCanSupervisionExpiry (n b dt : Nat) (s : State) : Host.Outcome State Fault Refusal :=
  whenRunning s fun _ r => (r.pass dt).canExpire n b

/-- CAN_RECOVERY_DONE (R607). -/
def execCanRecoveryDone (n dt : Nat) (s : State) : Host.Outcome State Fault Refusal :=
  whenRunning s fun _ r =>
    let r := r.pass dt
    let c := r.can n
    if n < 4 ∧ c.state = 2 ∧ c.recovering ∧ !c.init then
      (r.modCan n fun c =>
        CanChan.noteOffer { c with tec := 0, rec' := 0, state := 0, recov := 0, recovering := false, held := none }).canStateEvent n 2
    else r

/-! ### Commands (R609) -/

/-- A committed task binding or loop destination names the buffer, or a schedule slot does (R597). -/
def Run.bufNamed (r : Run) (n b : Nat) : Bool :=
  (r.cle.insts.any fun e => e.2.tasks.any fun t => t.2.task.binds.any fun x =>
    x.kind == 4 && field x.ref 1 0 == n && field x.ref 8 2 == b) ||
  (r.mlr.loops.any fun e => e.2.record.dests.any fun d =>
    match d with | .can f => f.chan == n && f.buffer == b | _ => false) ||
  ((r.can n).matrix.any fun l => l.any fun s => match s with | some (x, _) => x == b | none => false)

end Sys2Proof.Machine

namespace Sys2Proof

/-- Every field of a buffer record in its range. -/
def CanRec.ok (x : CanRec) : Bool :=
  (decide (x.inst < 32) || x.inst == 0xFF) && decide (x.dlc < 16) && decide (x.ident < if x.ide then 2 ^ 29 else 2 ^ 11) &&
    decide (x.mask < 2 ^ 29) && decide (x.supervise ≤ 60000)

end Sys2Proof

namespace Sys2Proof.Machine

/-- FB_BUF_SET (R597). A frame that the buffer still has PENDING is withdrawn.
DESIGN CHOICE, assumption 90: unsafe. -/
def execFbBufSet (c : Cmd) (n b : Nat) (x : CanRec) (s : State) : Host.Outcome State Fault Refusal :=
  runCmd { op := 0x0E00, pf0 := true, buf := true, need := some 16 } c s fun _ r =>
    if 4 ≤ n then (r, .status .range)
    else if 128 ≤ b ∨ !x.ok then (r, .status .fbBuf)
    else if r.bufNamed n b then (r, .status .state)
    else
      let pending := match r.canBuf n b with | some y => y.pending | none => false
      let r := if pending then r.canEnd n b 1 else r
      (r.modCan n fun c => { c with bufs := tabSet c.bufs b { record := x } }, .ok)

/-- A schedule matrix meets R602. -/
def schedOk (cycles : List (List CanSlot)) (len : Nat) : Bool :=
  decide (1 ≤ cycles.length) && decide (cycles.length ≤ 64) && decide (100000 ≤ len) && decide (len ≤ 1000000000) &&
    1000000000 % (cycles.length * len) == 0 && cycles.all fun l => decide (l.length ≤ 32) && l.all fun s =>
      match s with | some (b, offset) => decide (b < 128) && decide (offset * 1000 < len) | none => true

/-- FB_SCHED_SET (R602).
DEDUCED, assumption 90: unsafe. -/
def execFbSchedSet (c : Cmd) (n len window : Nat) (cycles : List (List CanSlot)) (s : State) :
    Host.Outcome State Fault Refusal :=
  runCmd { op := 0x0E01, pf0 := true, buf := true, need := some (128 * cycles.length) } c s fun _ r =>
    if 4 ≤ n then (r, .status .range)
    else if (r.can n).schedEn then (r, .status .state)
    else if !schedOk cycles len then (r, .status .fbSched)
    else (r.modCan n fun c => { c with matrix := cycles, cycleLen := len, window := window }, .ok)

/-- A command on a buffer that has a record: a VF only on one of its own instance. -/
def onBuf (c : Cmd) (n b : Nat) (r : Run) (f : CanBuf → Run × Answer) : Run × Answer :=
  if 4 ≤ n ∨ 128 ≤ b then (r, .status .range)
  else match r.canBuf n b with
    | some x => if c.fn ≠ 0 ∧ x.record.inst + 1 ≠ c.fn then (r, .status .denied) else f x
    | none => (r, .status (if c.fn = 0 then .range else .denied))

/-- FB_TX (R601).
DEDUCED, assumption 90: unsafe. -/
def execFbTx (c : Cmd) (n b : Nat) (data : List Nat) (s : State) : Host.Outcome State Fault Refusal :=
  runCmd { op := 0x0E02, pf0 := false, buf := true, need := some data.length } c s fun _ r =>
    onBuf c n b r fun x =>
      if !x.record.tx ∨ dlcLength x.record.fdf x.record.dlc < data.length then (r, .status .range)
      else if x.pending then (r, .status .busy)
      else if (r.can n).state = 2 then (r, .status .state)
      else
        let whole := (data ++ List.replicate (dlcLength x.record.fdf x.record.dlc) 0).take (dlcLength x.record.fdf x.record.dlc)
        let r := r.modBuf n b fun x => { x with content := some { x.txStore with data := whole } }
        (r.canRequest n b true, .ok)

/-- FB_CANCEL (R608); `onWire` tells that the frame has had its SOF.
DEDUCED, assumption 90: unsafe. -/
def execFbCancel (c : Cmd) (n b : Nat) (onWire : Bool) (s : State) : Host.Outcome State Fault Refusal :=
  runCmd { op := 0x0E03, pf0 := false } c s fun _ r =>
    onBuf c n b r fun x =>
      if !x.pending then (r, .done { result := [((r.can n).statusOf b x : Nat)] })
      else if onWire && (r.can n).state != 2 && (r.can n).offered.contains b then (r.canCancel n b true (some (c.fn, c.cseq)), .wait)
      else (r.canCancel n b false none, .done { result := [1] })

/-- FB_BUF_READ (R599, R600).
DEDUCED, assumption 90: unsafe. -/
def execFbBufRead (c : Cmd) (n b : Nat) (s : State) : Host.Outcome State Fault Refusal :=
  runCmd { op := 0x0E04, pf0 := false } c s fun _ r =>
    onBuf c n b r fun _ =>
      let r := r.modBuf n b CanBuf.settle
      match r.canBuf n b with
      | none => (r, .status .range)
      | some x =>
        match x.content with
        | some d =>
          let result : List Int := [d.dlc, d.flags, (r.can n).statusOf b x, d.ident, secOf d.time, nsOf d.time]
          (r, .done { result := result, buffer := d.data.map Int.ofNat, bufLen := d.data.length })
        | none =>
          let flags := storeFlags x.record.tx x.record.ide x.record.fdf x.record.brs
          (r, .done { result := [0, (flags : Int), (r.can n).statusOf b x, x.record.ident, 0, 0] })

/-- FB_RECOVER (R607). -/
def execFbRecover (c : Cmd) (n : Nat) (s : State) : Host.Outcome State Fault Refusal :=
  runCmd { op := 0x0E05, pf0 := true } c s fun _ r =>
    if 4 ≤ n then (r, .status .range)
    else if (r.can n).state ≠ 2 then (r, .status .state)
    else (r.modCan n fun c => { c with recovering := true }, .ok)

end Sys2Proof.Machine
end

