-- ==== Sys2Proof/Machine/Sluice.lean ====
section
/-! DEFINITION. The steps of chapter 9: dispatch, ends of jobs, exchanges, and the Sluice and group commands. -/

namespace Sys2Proof.Machine

/-! ### Dispatch and ends (R315 to R318) -/

/-- NODE_DISPATCH (R315 step 5): Millrace and a logic engine read their inputs as they take the job (R424, R467). -/
def execNodeDispatch (dt : Nat) (s : State) : Host.Outcome State Fault Refusal :=
  whenRunning s fun _ r =>
    let r := r.pass dt
    match r.pick with
    | none => r
    | some (f, u, deferred) =>
      let op := match (r.slcOf f.inst).g.nodes[f.node]? with | some g => g.op | none => 0
      let r := r.dispatch f u deferred
      if f.cls = 2 then (match r.loopDev f.inst op with | some l => r.mlrStart l f.tick | none => r)
      else if f.cls = 3 then r.cleImage f.inst op
      else r

/-- A job whose instance still has the GEN it was taken in with (R101).
DEDUCED, assumption 65: unsafe. -/
def Run.liveJob (r : Run) (f : Flight) : Bool := decide (f.gen = (r.inst f.inst).gen)

/-- How a finished job ends: as its engine reported it (Table 9.8, R440, R443); none while the engine still works. -/
def Run.jobEndOf (r : Run) (f : Flight) (cancelOut : Bool) : Option JobEnd :=
  if f.cls ≠ 2 ∧ f.cls ≠ 3 then some (.completed cancelOut)
  else if !r.liveJob f then some (.completed false)
  else match f.engine with
    | none => none
    | some .faulted => some .aborted
    | some _ => some (.completed cancelOut)

/-- JOB_FINISH (R318): the unit of node `i` of instance `n` reports the end of its job of generation `gen`, within its budget;
`cancelOut` is CANCEL_OUT of the report. An empty job of the CLE leaves HELD set (R443).
DEDUCED, assumption 68: unsafe. -/
def execJobFinish (n i gen : Nat) (cancelOut : Bool) (dt : Nat) (s : State) : Host.Outcome State Fault Refusal :=
  whenRunning s fun _ r =>
    let r := r.pass dt
    match r.slc.flights.find? fun f => f.inst == n && f.node == i && f.gen == gen && f.phase == .executing with
    | none => r
    | some f =>
      match r.jobEndOf f cancelOut with
      | none => r
      | some e =>
        if f.cls ≠ 3 ∧ f.engine.isNone ∧ r.budgetEnd f true < r.ticks then r
        else
          let live := r.liveJob f
          let (r, late) := r.jobEnds f e
          let r := if live ∧ f.engine = some .empty then r.modNode n i fun s => { s with held := true } else r
          r.chainsLate late

/-- BUDGET_ABORT (R317, R319): the budget of a job has run out; a logic engine reports its overruns by itself. -/
def execBudgetAbort (n i gen dt : Nat) (s : State) : Host.Outcome State Fault Refusal :=
  whenRunning s fun _ r =>
    let r := r.pass dt
    match r.slc.flights.find? fun f => f.inst == n && f.node == i && f.gen == gen && f.phase == .executing with
    | none => r
    | some f =>
      if f.cls = 3 ∨ f.engine.isSome ∨ r.ticks < r.budgetEnd f false then r
      else
        let (r, late) := r.jobEnds f .aborted
        r.chainsLate late

/-! ### Exchanges (R330) -/

/-- The exchange point of an instance: everything the commit holds takes effect and the command completes; what has been staged since
stays staged.
DEDUCED, assumption 72: unsafe. -/
def Run.exchange (r : Run) (n : Nat) : Run :=
  match (r.slcOf n).exchange with
  | none => r
  | some e =>
    let image := match (r.cleOf n).exchange with | some i => i | none => (r.cleOf n).image
    let later := (r.stagedOf n).since e.staged
    let r := (r.putStaged n e.staged).applyCommit n e.graph e.ranges image e.claims e.bounds e.needs
    (r.putStaged n later).finish e.wait.1 e.wait.2 {}

/-- No exchange point has come: the old graph stays, what was committed is staged again, and the command meets ST_BUSY. -/
def Run.exchangeFails (r : Run) (n : Nat) : Run :=
  match (r.slcOf n).exchange with
  | none => r
  | some e =>
    let r := r.modSlc n fun x => { x with
      exchange := none, staged := if x.staged.isNone then e.graph else x.staged }
    let r := r.modCleInst n fun x => { x with exchange := none, staged := if x.staged.isNone then x.exchange else x.staged }
    r.finish e.wait.1 e.wait.2 { status := .busy }

/-- What a P-tick flag does to an exchange that waits, before any binding fires.
DEDUCED, assumption 68: unsafe. -/
def Run.exchangeAt (r : Run) (n : Nat) : Run :=
  match (r.slcOf n).exchange with
  | none => r
  | some e =>
    if 96 ≤ e.ticks then r.exchangeFails n
    else if r.graphQuiet n then r.exchange n
    else r.modSlc n fun x => { x with exchange := some { e with ticks := e.ticks + 1 } }

/-- The next tick of an instance is a P tick and its instant t + H has come (R265). -/
def Run.flagDue (r : Run) (n : Nat) : Bool :=
  match tabGet r.cfl.next n with
  | some q => q % 3 == 0 && decide (dueCounter q (r.cfl.h n) ≤ r.tsu.counter)
  | none => false

/-- GRAPH_EXCHANGE (R330): at a P-tick flag of the instance with no node in flight, before the flag's bindings fire. -/
def execGraphExchange (n dt : Nat) (s : State) : Host.Outcome State Fault Refusal :=
  whenRunning s fun _ r =>
    let r := r.pass dt
    if (r.inst n).phase = .active ∧ r.flagDue n ∧ r.graphQuiet n then r.exchangeAt n else r

/-- EXCHANGE_TIMEOUT (R330): 96 P ticks have been flagged without an exchange point. -/
def execExchangeTimeout (n dt : Nat) (s : State) : Host.Outcome State Fault Refusal :=
  whenRunning s fun _ r =>
    let r := r.pass dt
    match (r.slcOf n).exchange with
    | some e => if 96 ≤ e.ticks then r.exchangeFails n else r
    | none => r

/-! ### Grid ticks (R265, R20) -/

/-- An instance's flag is late: EV_CFL_TICK_LATE, and an event of the Confluence island (Table 19.3).
DESIGN CHOICE, assumption 67: unsafe. -/
def Run.tickLate (r : Run) (n tick ns : Nat) : Run :=
  (r.raise { ev := .cflTickLate, source := 384, data := [n, tick, ns] }).islandOther 18

/-- The last P tick flagged for every ACTIVE instance (CFL_TICK). -/
def Run.tickOfAll (r : Run) : Nat :=
  let l := (List.range 32).filterMap fun n => if (r.inst n).phase = .active then some (tabGetD r.cfl.flagged n 0) else none
  match l with
  | [] => r.cfl.tick
  | x :: t => t.foldl min x

/-- The P-tick flag of tick `p`, `ns` after t + H: the instance's tick, its exchange, its selectors, CFL_TICK and CFL_LOAD. -/
def Run.pFlag (r : Run) (n p ns : Nat) : Run :=
  let r := r.modCfl fun x =>
    let now := secOf r.now
    let fresh := x.loadSecond != now
    { x with
      flagged := tabSet x.flagged n p, lastNs := min ns 65535, loadSecond := now,
      maxNs := if fresh then (if x.loadSecond + 1 = now then x.maxNow else 0) else x.maxNs,
      maxNow := max (if fresh then 0 else x.maxNow) (min ns 65535) }
  let r := r.modCfl fun x => { x with tick := r.tickOfAll }
  let r := r.exchangeAt n
  (r.modSlc n fun x => { x with tick := p }).selectGroups n

/-- A binding that tick `q` of the Q grid fires (Table 9.5): of kind 0x02, or of kind 0x01 where the tick is a P tick. -/
def bindOnTick (b : GBind) (q : Nat) : Bool :=
  b.param != 0 && ((b.kind == 2 && q % b.param == 0) || (b.kind == 1 && q % 3 == 0 && q / 3 % b.param == 0))

/-- TICK_PROCESS (R265, R687): the next tick of an ACTIVE instance, once t + H has come. Every tick is a Q tick; each third is
a P tick. The flags of both grids are set in one cycle of Sluice. -/
def execTickProcess (n dt : Nat) (s : State) : Host.Outcome State Fault Refusal :=
  whenRunning s fun _ r =>
    let r := (r.pass dt).settleDecSync
    match tabGet r.cfl.next n with
    | none => r
    | some q =>
      let h := r.cfl.h n
      if (r.inst n).phase ≠ .active ∨ r.tsu.counter < dueCounter q h then r
      else
        let after := r.nowExact - qInstant q - (h : Rat) * 1000
        let ns := after.floor.toNat
        let late := decide (20000 < after)
        let r := r.applyDecSync n q
        let slots := (r.cfl.chansOf n).map (·.1)
        let r := slots.foldl (fun (r : Run) c =>
          match tabGet r.cfl.chans c with | some x => if x.onQ then r.qTick c q h else r | none => r) r
        let outs := slots.filter fun c => match tabGet r.cfl.chans c with | some x => x.record.drEn && x.drPhase == 0 | none => false
        let r := if q % 3 = 0 then slots.foldl (fun (r : Run) c => r.pTick c (q / 3) h) r else r
        let r := r.drTick n q outs.contains
        let r := r.modCfl fun x => { x with next := tabSet x.next n (q + 1), done := tabSet x.done n (q + 1) }
        let r := if late then r.tickLate n (if q % 3 = 0 then q / 3 % 4800 else q % 14400) ns else r
        let r := if q % 3 = 0 then r.pFlag n (q / 3) ns else r
        r.fire n fun _ b => bindOnTick b q

/-! ### Commands (R332, R416) -/

/-- SLC_GRAPH_LOAD (R328): the section's octets and signature; `data` supplies what its data area spells.
DEDUCED, assumption 88: unsafe. -/
def execSlcGraphLoad (c : Cmd) (octets : List Nat) (sig : Nat) (data : Graph) (s : State) : Host.Outcome State Fault Refusal :=
  runCmd { op := 0x0700, pf0 := false, buf := true, need := some octets.length } c s fun a r =>
    onSubs a r fun n =>
      let (r, ok) := r.verifyBundle n octets sig
      let image := readImage octets data
      if !ok then (r, .status .auth)
      else match imageDefect image with
        | some st => (r, .status st)
        | none => (r.modSlc n fun x => { x with staged := some (some image) },
            .done { result := [(image.nodes.length : Int), image.edges.length] })

/-- SLC_GRAPH_UNLOAD (R332). -/
def execSlcGraphUnload (c : Cmd) (s : State) : Host.Outcome State Fault Refusal :=
  runCmd { op := 0x0701, pf0 := false } c s fun a r =>
    onSubs a r fun n => (r.modSlc n fun x => { x with staged := some none }, .ok)

/-- The configuration that a commit of an instance would leave, as its admission run sees it. -/
def Run.trialOf (r : Run) (n : Nat) : Run × Option Graph :=
  let g := r.newGraph n
  let image := (r.cleOf n).newImage
  let olds := (r.cleOf n).tasks
  let copies := (r.inst n).phase == .active
  ((r.commitRest n).commitGraph n (r.slcOf n).staged (r.slcOf n).ranges image false, g.map fun x => if copies then Graph.withCopies x olds image else x)

/-- SLC_ADMIT_CHECK (R323, R332). -/
def execSlcAdmitCheck (c : Cmd) (s : State) : Host.Outcome State Fault Refusal :=
  runCmd { op := 0x0702, pf0 := false } c s fun a r =>
    onSubs a r fun n =>
      let (t, g) := r.trialOf n
      let x := t.admission (some (n, g))
      let bounds := x.bounds.flatMap (·.2)
      let ids := (t.coveredAll (some (n, g))).flatMap fun y => y.graph.chains.map fun z => chainObject z.ident
      let rows := (ids.zip bounds).flatMap fun e => [(e.1 : Int), e.2]
      (r, .done { status := x.status, result := match x.refusals with | y :: _ => y.fields | [] => [],
                  buffer := x.refusals.flatMap (·.fields) ++ rows, bufLen := 24 * x.refusals.length + 16 * bounds.length })

/-- SLC_CANCEL (R316): the state found before it acts.
DEDUCED, assumption 68: unsafe. -/
def execSlcCancel (c : Cmd) (node : Nat) (s : State) : Host.Outcome State Fault Refusal :=
  runCmd { op := 0x0703, pf0 := false } c s fun a r =>
    onSubs a r fun n =>
      match (r.slcOf n).nodes[node]? with
      | none => (r, .status .range)
      | some x =>
        let before := r.slc.flights
        ((r.sluiceCycle [] [(n, node)]).cancelledLoops before, .done { result := [(x.phase.code : Int)] })

/-- SLC_TRIGGER (R311): `bind` is a binding of kind 0x05.
DEDUCED, assumption 68: unsafe. -/
def execSlcTrigger (c : Cmd) (bind : Nat) (s : State) : Host.Outcome State Fault Refusal :=
  runCmd { op := 0x0704, pf0 := false } c s fun a r =>
    onSubs a r fun n =>
      if (r.inst n).phase ≠ .active then (r, .status .state)
      else match (r.slcOf n).g.binds[bind]? with
      | none => (r, .status .range)
      | some b =>
        if b.kind ≠ 5 then (r, .status .range)
        else
          let at' := r.now
          let soon : Bool := match tabGet (r.slcOf n).triggers bind with | some t => decide (at' < t + b.param * 10000) | none => false
          if soon then (r, .status .busy)
          else ((r.modSlc n fun x => { x with triggers := tabSet x.triggers bind at' }).fire n fun k _ => k == bind, .ok)

/-- NSTAT (R320).
DEDUCED, assumption 88: unsafe. -/
def NodeSt.nstat (x : NodeSt) : Nat :=
  let b (v : Bool) (k : Nat) : Nat := if v then k else 0
  b x.held 1 + b x.nOverrun 2 + b x.incomplete 4 + b x.cancelled 8 + b x.inputSubst 16

/-- The status byte of a node (R308). -/
def NodeSt.status (x : NodeSt) : Nat :=
  let b (v : Bool) (k : Nat) : Nat := if v then k else 0
  x.phase.code + b x.overrun 4 + b x.held 8 + b x.cancelled 16 + b x.incomplete 32

/-- The index of a node in the node table (R306). -/
def SlcInst.index (x : SlcInst) (i : Nat) : Nat := x.ranges.node + i

/-- The instance a node table index belongs to, and the node's number in it (R306). -/
def Sluice.nodeAt (x : Sluice) (index : Nat) : Option (Nat × Nat) :=
  (x.insts.find? fun e => decide (e.2.ranges.node ≤ index) && decide (index < e.2.ranges.node + e.2.g.nodes.length)).map fun e =>
    (e.1, index - e.2.ranges.node)

/-- NEXT of a node (R307): the table index of the node behind it in its ready queue; 0 where there is none, and outside a queue.
DESIGN CHOICE, assumption 96: unsafe. -/
def Sluice.next (x : Sluice) (n i : Nat) : Nat :=
  match x.flightIn n i .queued with
  | none => 0
  | some f =>
    let behind := x.flights.filter fun g => g.phase == .queued && g.prio == f.prio && g.cls == f.cls && g.unit == f.unit && olderFlight f g
    match firstFlight behind with
    | some g => (tabGetD x.insts g.inst {}).index g.node
    | none => 0

/-- OP of a node as relocated: a loop's node names the device loop, a class PUB node the publication's device number (R457, R480). -/
def Run.deviceOp (r : Run) (n : Nat) (g : GNode) : Nat :=
  if g.cls = 2 then (r.loopDev n g.op).getD g.op
  else if g.cls = 4 then
    (if g.op < 512 then (r.gooseDev n g.op).getD g.op else ((r.svDev n (g.op - 512)).map (512 + ·)).getD g.op)
  else g.op

/-- The node table entry of a node (Table 9.2), NODE numbers relocated to the table: its 20 octets as fields of 2, 1, 1, 4, 4, 3, 1, 2
and 2 bytes. -/
def Run.nodeEntry (r : Run) (n i : Nat) : Option (List Nat) :=
  let x := r.slcOf n
  match x.g.nodes[i]?, x.nodes[i]? with
  | some g, some s => some [r.slc.next n i, g.prio, if g.any then 1 else 0, s.flags.toNat, g.mask.toNat, g.budget,
      g.cls * 32 + g.unit, r.deviceOp n g, if g.edges = 0xFFFF then 0xFFFF else g.edges + x.ranges.edge / 2]
  | _, _ => none

/-- SLC_NODE_READ (R332).
DEDUCED, assumption 68: unsafe. -/
def execSlcNodeRead (c : Cmd) (node : Nat) (s : State) : Host.Outcome State Fault Refusal :=
  runCmd { op := 0x0705, pf0 := false } c s fun a r =>
    onSubs a r fun n =>
      match (r.slcOf n).nodes[node]? with
      | none => (r, .status .range)
      | some x => (r, .done { result := [(x.status : Int), x.nstat, x.flags.toNat, x.jobs, x.overruns] })

/-- SLC_CHAIN_READ (R688).
DEDUCED, assumption 68: unsafe. -/
def execSlcChainRead (c : Cmd) (ident : Nat) (s : State) : Host.Outcome State Fault Refusal :=
  runCmd { op := 0x0706, pf0 := false } c s fun a r =>
    onSubs a r fun n =>
      let x := r.slcOf n
      match x.g.chains.findIdx? fun z => z.ident == ident with
      | none => (r, .status .range)
      | some k => match x.chains[k]? with
        | some z => (r, .done { result := [(z.bound : Int), z.largest, z.measured] })
        | none => (r, .status .range)

/-- A selector named by a command. -/
def onSelector (a : Accepted) (sel : Nat) (r : Run) (f : Nat → Selector → Run × Answer) : Run × Answer :=
  onSubs a r fun n =>
    match (r.slcOf n).sels[sel]? with
    | some z => f n z
    | none => (r, .status .range)

/-- GRP_FORCE (R410, R416).
DESIGN CHOICE, assumption 67: unsafe. -/
def execGrpForce (c : Cmd) (sel group : Nat) (s : State) : Host.Outcome State Fault Refusal :=
  runCmd { op := 0x0707, pf0 := false } c s fun a r =>
    onSelector a sel r fun n _ =>
      let d := ((r.slcOf n).g.sels[sel]?).getD {}
      if 8 ≤ group ∨ !d.allowed.testBit group then (r, .status .grpAllowed)
      else ((r.modSlc n fun x => { x with sels := modAt x.sels sel fun z => { z with forced := some group, released := false } }).noteMirror (.groups n), .ok)

/-- GRP_RELEASE (R416). -/
def execGrpRelease (c : Cmd) (sel : Nat) (s : State) : Host.Outcome State Fault Refusal :=
  runCmd { op := 0x0708, pf0 := false } c s fun a r =>
    onSelector a sel r fun n _ =>
      ((r.modSlc n fun x => { x with sels := modAt x.sels sel (·.letGo) }).noteMirror (.groups n), .ok)

/-- GRP_QUERY (R416). The seconds since a change that has not been are a free value.
DESIGN CHOICE, assumption 67: unsafe. -/
def execGrpQuery (c : Cmd) (s : State) : Host.Outcome State Fault Refusal :=
  runCmd { op := 0x0709, pf0 := false } c s fun a r =>
    onSubs a r fun n =>
      let (none', r) := r.takeFree 32
      (r, .done { result := (r.slcOf n).sels.flatMap fun z =>
        [(z.active : Int), if z.forced.isSome then 1 else 0, (z.request.getD 0xFF : Nat),
         match z.changedAt with | some t => (min ((r.now - t) / 1000000000) (2 ^ 32 - 1) : Nat) | none => (none'.toNat : Int)] })

end Sys2Proof.Machine
end

