-- ==== Sys2Proof/Machine/Insts.lean ====
section
/-! DEFINITION. The steps of chapter 3: the instance commands, the end of a reset, and the accounting period. -/

namespace Sys2Proof.Machine

/-- An instance command that the state of its target allows (R102, Table 3.2).
DESIGN CHOICE, assumption 66: unsafe. -/
def onInst (a : Accepted) (run : Run) (ok : InstPhase → Bool) (f : Nat → Run × Answer) : Run × Answer :=
  onTarget a run fun n => if ok (run.inst n).phase then f n else (run, .status .state)

/-- INST_CREATE (R111, R128): shares, RANK, and the instance's sources at its VF.
DESIGN CHOICE, assumption 66: unsafe. -/
def execInstCreate (c : Cmd) (sluice cistern ingest rank : Nat) (s : State) : Host.Outcome State Fault Refusal :=
  runCmd { op := 0x0200, pf0 := true } c s fun a r =>
    onInst a r (· == .free) fun n =>
      let x : Shares := { sluice := sluice, cistern := cistern, ingest := ingest }
      if 1024 < sluice ∨ 1024 < cistern ∨ 1024 < ingest ∨ 255 < rank then (r, .status .range)
      else if !r.sharesFit n x then (r, .status .shareSum)
      else
        let r := r.modInst n fun i => { rank := rank, granted := x, inEffect := x, cells := i.cells }
        ((r.routeInst n true).instState n .idle, .ok)

/-- The jobs an instance leaves behind in a unit belong to no generation that a new instance can have. -/
def Run.orphanJobs (r : Run) (n : Nat) : Run :=
  r.modSluice fun x => { x with flights := x.flights.map fun f => if f.inst = n then { f with gen := 256 } else f }

/-- What an instance held is released (Table 3.2, R100). -/
def Run.destroyInst (r : Run) (n : Nat) : Run :=
  let r := (r.putClaims n []).unloadInstance n
  let r := (((((r.cflDestroy n).drDestroy n).cleDestroy n).mlrDestroy n).pubDestroy n).orphanJobs n
  let r := { r with ing := { r.ing with
    sv := r.ing.sv.filter fun e => e.2.inst != n, goose := r.ing.goose.filter fun e => e.2.inst != n,
    svStaged := r.ing.svStaged.filter fun e => e.2.1 != n, gooseStaged := r.ing.gooseStaged.filter fun e => e.2.1 != n } }
  r.modSluice fun x => { x with insts := tabDel x.insts n }

/-- A lockout latch of the instance is set (R104). -/
def Run.latchHeld (r : Run) (n : Nat) : Bool :=
  (List.range 32).any fun l => (r.so l).owner == some n && (r.latch l).set

/-- INST_DESTROY (R102, R104). Frames of its function that Cistern still holds stay charged until they leave (R107).
DEDUCED, assumption 65: unsafe. -/
def execInstDestroy (c : Cmd) (s : State) : Host.Outcome State Fault Refusal :=
  runCmd { op := 0x0201, pf0 := true } c s fun a r =>
    onInst a r (fun p => p == .idle || p == .ready || p == .shed) fun n =>
      if r.latchHeld n then (r, .status .state)
      else
        let r := r.routeInst n false
        let r := (r.destroyInst n).instState n .free
        (r.modInst n fun i => { cells := i.cells }, .ok)

/-- A refusal with its records (R126, R326): the first in RESULT, all of them in the buffer where one is given. -/
def refusal (a : Accepted) (status : Status) (size : Nat) (records : List (List Int)) : Answer :=
  let used := a.entry.bufAddr != 0
  .done { status := status, result := records.headD [], buffer := if used then records.flatten else [],
          bufLen := if used then size * records.length else 0 }

/-- What a refused admission run answers (R326). -/
def Admission.refused (x : Admission) (a : Accepted) : Answer := refusal a x.status 24 (x.refusals.map (·.fields))

/-- The ranges the graph of an instance has after a commit: new ones where a graph is staged, else its own. -/
def Run.newRanges (r : Run) (n : Nat) : Ranges :=
  match (r.slcOf n).staged with
  | some (some g) => (r.rangesFor n g ((r.inst n).phase == .active)).getD {}
  | some none => {}
  | none => (r.slcOf n).ranges

/-- A commit of an ACTIVE instance waits for its exchange point (R330): the graph and the CLE image leave the staged ones, and what else
is staged is noted. -/
def Run.beginExchange (r : Run) (n : Nat) (wait : Nat × Word) (claims : List Claim) (x : Admission) : Run :=
  let e : Exchange := { graph := (r.slcOf n).staged, ranges := r.newRanges n, staged := r.stagedOf n, wait := wait, ticks := 0,
                        claims := claims, bounds := x.bounds, needs := x.needs }
  let image := (r.cleOf n).newImage
  (r.modSlc n fun y => { y with exchange := some e, staged := none }).modCleInst n fun y => { y with exchange := some image, staged := none }

/-- What an INST_COMMIT does for instance `n` (R102, R112, R329, R330): the checks of each block, the claims, then admission. In ACTIVE a
graph that is staged or a changed CLE image waits for its exchange point, and everything else of the commit with it.
DEDUCED, assumption 72: unsafe. -/
def Run.instCommit (r : Run) (a : Accepted) (wait : Nat × Word) (n region : Nat) : Run × Answer :=
  match r.commitDefect n region with
  | some st => (r, .status st)
  | none =>
    let image := (r.cleOf n).newImage
    let claims := r.claimsOf n (r.newGraph n) image
    let clashes := r.conflicts n r.trip.ballMux claims
    if !clashes.isEmpty then (r, refusal a .conflict 32 clashes)
    else
      let (t, tg) := r.trialOf n
      let x := t.admission (some (n, tg))
      if !x.refusals.isEmpty then (r, x.refused a)
      else if (r.inst n).phase = .active ∧ ((r.slcOf n).staged.isSome ∨ image ≠ (r.cleOf n).image) then (r.beginExchange n wait claims x, .wait)
      else (r.applyCommit n (r.slcOf n).staged (r.newRanges n) image claims x.bounds x.needs, .ok)

/-- INST_COMMIT. Commits run one at a time, in the order accepted (R125): before its turn the row has no effect.
DEDUCED, assumption 72: unsafe. -/
def execInstCommit (c : Cmd) (s : State) : Host.Outcome State Fault Refusal :=
  if !s.run.commitTurn c.fn c.cseq then .next s
  else runCommand { op := 0x0202, pf0 := false } c s fun a sys r =>
    let (r, ans) := onInst a r (fun p => p == .idle || p == .ready || p == .active) fun n =>
      r.instCommit a (c.fn, c.cseq) n (sys.drLaid * 2 ^ 30)
    (sys, r, ans)

/-- No instance starts: the life-cycle state does not let protection run (R561), or debug has been unlocked (R588).
DEDUCED, assumption 80: unsafe. -/
def Strong.startRefused (s : Strong) : Bool := !s.mayRun

/-- INST_START (R102, R331, R561). -/
def execInstStart (c : Cmd) (s : State) : Host.Outcome State Fault Refusal :=
  runCmd { op := 0x0203, pf0 := true } c s fun a r =>
    onInst a r (· == .ready) fun n =>
      if r.srm.startRefused then (r, .status .srmState)
      else
        let r := r.routeInst n true
        (r.activate n (r.inst n).warmNext, .ok)

/-- A reset or a stop: the command completes when the instance is READY. -/
def Run.resetInst (r : Run) (c : Cmd) (n : Nat) (warm : Bool) : Run × Answer :=
  let i := r.inst n
  let w : ResetWait := { fn := c.fn, cseq := c.cseq, warm := warm, was := i.phase, gen := i.gen, resets := i.resets,
                         warmNext := i.warmNext, routed := i.routedVf }
  ((r.beginReset n (c.fn, c.cseq)).modInst n fun i => { i with reset := some w }, .wait)

/-- A reset has ended (R116 step 5, R120): the kind of the next start stands, and with WARM = 0 everything is initialised. -/
def Run.resetEnds (r : Run) (n : Nat) (w : ResetWait) : Run :=
  let r := r.modInst n fun i => { i with reset := none, warmNext := w.warm }
  if w.warm then r else (r.modSlc n (·.initialised)).cleInitial n

/-- INST_STOP (R120). -/
def execInstStop (c : Cmd) (s : State) : Host.Outcome State Fault Refusal :=
  runCmd { op := 0x0204, pf0 := false } c s fun a r =>
    onInst a r (· == .active) fun n => r.resetInst c n true

/-- INST_RESET (R116). -/
def execInstReset (c : Cmd) (warm : Bool) (s : State) : Host.Outcome State Fault Refusal :=
  runCmd { op := 0x0205, pf0 := true } c s fun a r =>
    onInst a r (fun p => p == .ready || p == .active || p == .shed) fun n => r.resetInst c n warm

/-- INST_RESET_DONE (R116 step 5). -/
def execInstResetDone (n dt : Nat) (s : State) : Host.Outcome State Fault Refusal :=
  whenRunning s fun _ r =>
    let r := r.pass dt
    if (r.inst n).phase = .resetting ∧ r.instQuiet n then
      match (r.inst n).reset with
      | some w => ((r.resetEnds n w).instState n .ready).finish w.fn w.cseq {}
      | none => r.instState n .ready
    else r

/-- One share of three. -/
def Shares.put (x : Shares) (resource share : Nat) : Shares :=
  match resource with
  | 0 => { x with sluice := share }
  | 1 => { x with cistern := share }
  | _ => { x with ingest := share }

/-- INST_SET_SHARE (R111, R113): granted now, in effect from the next period boundary. -/
def execInstSetShare (c : Cmd) (resource share : Nat) (s : State) : Host.Outcome State Fault Refusal :=
  runCmd { op := 0x0206, pf0 := true } c s fun a r =>
    onInst a r (· != .free) fun n =>
      let x := (r.inst n).granted.put resource share
      if 2 < resource ∨ 1024 < share then (r, .status .range)
      else if !r.sharesFit n x then (r, .status .shareSum)
      else (r.modInst n fun i => { i with granted := x }, .ok)

/-- INST_SET_RANK (R121). -/
def execInstSetRank (c : Cmd) (rank : Nat) (s : State) : Host.Outcome State Fault Refusal :=
  runCmd { op := 0x0207, pf0 := true } c s fun a r =>
    onInst a r (· != .free) fun n =>
      if 255 < rank then (r, .status .range) else (r.modInst n fun i => { i with rank := rank }, .ok)

/-- INST_RESUME (R115): a SHED instance becomes ACTIVE when admission passes with it; its committed configuration runs.
DESIGN CHOICE, assumption 66: unsafe. -/
def execInstResume (c : Cmd) (s : State) : Host.Outcome State Fault Refusal :=
  runCmd { op := 0x0208, pf0 := true } c s fun a r =>
    onInst a r (· == .shed) fun n =>
      let x := r.admission (some (n, (r.slcOf n).graph))
      if r.srm.startRefused then (r, .status .srmState)
      else if !x.refusals.isEmpty then (r, x.refused a)
      else ((r.storeBounds x.bounds x.needs).activate n true, .ok)

/-- INST_QUERY (R127); the shares are those in effect.
DESIGN CHOICE, assumption 66: unsafe. -/
def execInstQuery (c : Cmd) (s : State) : Host.Outcome State Fault Refusal :=
  runQuery { op := 0x0209, pf0 := false } c s fun a _ r =>
    match a.target with
    | none => .status .range
    | some n =>
      let i := r.inst n
      .done { result := [i.phase.code, i.gen, i.rank, i.inEffect.sluice, i.inEffect.cistern, i.inEffect.ingest,
                         i.inFlight, i.dispatches, i.cells, i.authFrames, i.parsedFrames] }

/-- A period boundary (R108, R113): rate counters restart, shares take effect, the registers of the last period are set, and nodes
that a larger share has room for enter their queues (R314). -/
def Run.newPeriod (r : Run) : Run :=
  let restart (i : InstState) : InstState := { i with dispatches := 0, authFrames := 0, parsedFrames := 0, inEffect := i.granted }
  let r := { r with insts := r.insts.map restart }
  let r := r.modSluice fun x => { x with peakLast := x.peakNow, peakNow := x.inFlight, dispatchLast := x.dispatchNow, dispatchNow := 0 }
  let r := { r with ing := { r.ing with verifiedLast := r.ing.verified, parsedLast := r.ing.parsed, verified := 0, parsed := 0 } }
  r.admitPending 65536

/-- ACCOUNTING_PERIOD (R108): the counter has passed a TAI millisecond. -/
def execAccountingPeriod (dt : Nat) (s : State) : Host.Outcome State Fault Refusal :=
  whenRunning s fun _ r =>
    let r := r.pass dt
    if r.passed 1000000 0 then r.newPeriod else r

end Sys2Proof.Machine
end

