-- ==== Sys2Proof/Machine/Millrace.lean ====
section
/-! DEFINITION. The steps of chapter 13: evaluations and the Millrace commands. -/

namespace Sys2Proof.Machine

/-- LOOP_EVALUATION (R460, R465): Millrace ends the job of a loop of instance `n`, whose cost has passed. -/
def execLoopEvaluation (n index dt : Nat) (s : State) : Host.Outcome State Fault Refusal :=
  whenRunning s fun _ r =>
    let r := r.pass dt
    let at' := r.slc.flights.find? fun f => f.inst == n && f.cls == 2 && f.phase == .executing && f.engine.isNone &&
      f.gen == (r.inst n).gen && match (r.slcOf n).g.nodes[f.node]? with | some x => x.op == index | none => false
    match at', (r.loopDev n index).bind fun l => (r.loop l).map fun x => (l, x) with
    | some f, some (l, x) =>
      let cost := loopCost x.record
      let budget := match (r.slcOf n).g.nodes[f.node]? with | some y => y.budget | none => 0
      if budget < cost ∨ r.ticks * 4000 < f.start * 4000 + clsDispatch 2 + cost * clsPeriod 2 then r
      else (r.mlrEvaluate l (x.tickOf f)).modFlight f fun f => { f with engine := some .done }
    | _, _ => r

/-- MLR_LOOP_SET (R474): staged. -/
def execMlrLoopSet (c : Cmd) (index : Nat) (x : LoopRec) (s : State) : Host.Outcome State Fault Refusal :=
  runCmd { op := 0x0900, pf0 := false, buf := true, need := some 320 } c s fun a r =>
    onSubs a r fun n =>
      if 64 ≤ index then (r, .status .range)
      else match loopDefect x with
        | some st => (r, .status st)
        | none => (r.modMlr fun y => { y with staged := tabSet y.staged (64 * n + index) (some x) }, .ok)

/-- MLR_LOOP_DELETE (R476): staged. -/
def execMlrLoopDelete (c : Cmd) (index : Nat) (s : State) : Host.Outcome State Fault Refusal :=
  runCmd { op := 0x0901, pf0 := false } c s fun a r =>
    onSubs a r fun n =>
      if (r.loopView n).any fun e => e.1 == index then
        (r.modMlr fun y => { y with staged := tabSet y.staged (64 * n + index) none }, .ok)
      else (r, .status .range)

/-- A command on a committed loop of the target instance: its device number and the loop. -/
def onLoop (a : Accepted) (index : Nat) (r : Run) (f : Nat → LoopSt → Run × Answer) : Run × Answer :=
  onSubs a r fun n =>
    match (r.loopDev n index).bind fun l => (r.loop l).map fun x => (l, x) with
    | some (l, x) => f l x
    | none => (r, .status .range)

/-- MLR_MODE (R471): a request for the next evaluation. -/
def execMlrMode (c : Cmd) (index mode : Nat) (value : Option Word) (s : State) : Host.Outcome State Fault Refusal :=
  runCmd { op := 0x0902, pf0 := false } c s fun a r =>
    onLoop a index r fun l _ =>
      if 1 < mode then (r, .status .range)
      else (r.modLoop l fun x => { x with reqs := x.reqs ++ [{ auto := mode == 1, cause := 1, value := value }] }, .ok)

/-- The arguments of MLR_INJECT in their ranges (R472). -/
def injectOk (x : LoopRec) (i : Inject) (tick : Nat) : Bool :=
  let rate := if x.gridQ then 14400 else 4800
  let freq (w : Word) : Bool := within w (1 / 100) (45 / 100 * rate)
  (i.stage == 8 || decide (i.stage < x.stages.length)) && decide (1 ≤ i.len) && decide (i.len ≤ 1048576) && decide (tick < rate) &&
    match i.kind with
    | 0 => true
    | 1 => freq i.fStart && freq i.fEnd
    | 2 => decide (7 ≤ i.order) && decide (i.order ≤ 15) && decide (1 ≤ i.hold) && decide (i.hold ≤ 256)
    | _ => false

/-- MLR_INJECT (R472). -/
def execMlrInject (c : Cmd) (index stage kind order : Nat) (a fStart fEnd : Word) (len hold seconds tick : Nat) (s : State) :
    Host.Outcome State Fault Refusal :=
  runCmd { op := 0x0903, pf0 := false } c s fun acc r =>
    onLoop acc index r fun l x =>
      let i : Inject := { stage := stage, kind := kind, order := order, a := a, fStart := fStart, fEnd := fEnd, len := len, hold := hold,
                          tick := seconds * (if x.record.gridQ then 14400 else 4800) + tick, lfsr := 2 ^ order - 1 }
      if !injectOk x.record i tick then (r, .status .range)
      else if x.inject.isSome then (r, .status .busy)
      else if stage < 8 ∧ !x.auto ∧ x.record.preset ≤ stage then (r, .status .state)
      else (r.modLoop l fun x => { x with inject := some i }, .ok)

/-- MLR_INJECT_STOP (R472, R476). -/
def execMlrInjectStop (c : Cmd) (index : Nat) (s : State) : Host.Outcome State Fault Refusal :=
  runCmd { op := 0x0904, pf0 := false } c s fun a r =>
    onLoop a index r fun l x =>
      if x.inject.isNone then (r, .ok)
      else ((r.modLoop l fun x => { x with inject := none }).mlrEvent l .mlrCapture [0xFF, 2], .ok)

/-- MLR_CAPTURE (R473). -/
def execMlrCapture (c : Cmd) (slot index sigA sigB points seconds tick : Nat) (s : State) : Host.Outcome State Fault Refusal :=
  runCmd { op := 0x0905, pf0 := false } c s fun a r =>
    onLoop a index r fun l x =>
      let rate := if x.record.gridQ then 14400 else 4800
      if 4 ≤ slot ∨ 18 < sigA ∨ 18 < sigB ∨ points = 0 ∨ 4096 < points ∨ rate ≤ tick then (r, .status .range)
      else if (r.mlr.caps.getD slot {}).busy then (r, .status .busy)
      else
        let z : Capture := { busy := true, loop := l, inst := x.inst, sigA := sigA, sigB := sigB, len := points, tick := seconds * rate + tick }
        (r.modMlr fun y => { y with caps := modAt y.caps slot fun _ => z }, .ok)

/-- A captured point in the order of R473. -/
def pointFields (p : CapPoint) : List Int := [(p.a.toNat : Int), p.b.toNat, p.tick, p.flags, p.w.toNat]

/-- A function may read a capture: PF0, the VF of the instance whose loop was captured, and any while it is empty (R476). -/
def Capture.readableBy (z : Capture) (fn : Nat) : Bool := fn == 0 || z.inst + 1 == fn || (!z.busy && z.points.isEmpty)

/-- MLR_CAPTURE_READ (R476): a VF reads captures of its own instance's loops. -/
def execMlrCaptureRead (c : Cmd) (slot : Nat) (s : State) : Host.Outcome State Fault Refusal :=
  runCmd { op := 0x0906, pf0 := false } c s fun _ r =>
    if 4 ≤ slot then (r, .status .range)
    else
      let z := r.mlr.caps.getD slot {}
      if !z.readableBy c.fn then (r, .status .denied)
      else if z.busy then (r, .status .state)
      else
        (r.modMlr fun y => { y with caps := modAt y.caps slot fun z => { z with done := false } },
         .done { buffer := z.points.flatMap pointFields, bufLen := 16 * z.points.length })

/-- MLR_LOOP_READ (R476). -/
def execMlrLoopRead (c : Cmd) (index : Nat) (s : State) : Host.Outcome State Fault Refusal :=
  runCmd { op := 0x0907, pf0 := false } c s fun a r =>
    onLoop a index r fun l x =>
      let b (v : Bool) : Int := if v then 1 else 0
      (r, .done { result := [b x.auto, b x.missed, (x.sat : Int), x.limited + 1, (x.out.toNat : Int), (x.manual.toNat : Int), (l : Int)] })

end Sys2Proof.Machine
end

