-- ==== Sys2Proof/Machine/Rings.lean ====
section
/-! DEFINITION. Chapter 2: rings, command intake, event posting, replay, snapshot and dirty-page logging. -/

namespace Sys2Proof.Machine

/-! ### Rings -/

/-- The entries a ring holds, 2^LOG2 (Table 2.4). -/
def Ring.size (g : Ring) : Nat := 2 ^ g.log2

/-- LOG2 lies in 4 to 12 (R50). -/
def Ring.sizeOk (g : Ring) : Bool := 4 ≤ g.log2 && g.log2 ≤ 12

/-- A ring whose enable rises: both counts 0; stopped where LOG2 is out of range (R50). -/
def Ring.enabled (g : Ring) : Ring := { g with host := 0, dev := 0, err := !g.sizeOk }

/-- A ring whose enable falls: RING_ERR clears for it (MBX_STATUS). -/
def Ring.disabled (g : Ring) : Ring := { g with err := false }

/-- Entries given to the device and not yet taken (rings 0, 2, 3). -/
def Ring.waiting (g : Ring) : Nat := (g.host - g.dev).toNat

/-- Free entries of the event ring. -/
def Ring.space (g : Ring) : Nat := g.size - (g.dev - g.host).toNat

/-- The slot and the phase bit of the next entry the device writes (R49, R56). -/
def Ring.slot (g : Ring) : Nat := g.dev.toNat % g.size

/-- The phase of entry DEV: 1 while ⌊n / 2^LOG2⌋ is even (R56). -/
def Ring.phase (g : Ring) : Bool := (g.dev.toNat / g.size) % 2 == 0

/-- Ring `i` of a function. -/
def FnState.ring (f : FnState) : Nat → Ring
  | 0 => f.ring0 | 1 => f.ring1 | 2 => f.ring2 | _ => f.ring3

/-- Ring `i` of a function replaced. -/
def FnState.setRing (f : FnState) (i : Nat) (g : Ring) : FnState :=
  match i with
  | 0 => { f with ring0 := g } | 1 => { f with ring1 := g } | 2 => { f with ring2 := g } | _ => { f with ring3 := g }

/-- Whether a doorbell write is invalid (R53). -/
def Ring.badCount (g : Ring) (ring : Nat) (new : Word) : Bool :=
  if ring = 1 then (g.dev - g.host).toNat < (new - g.host).toNat
  else g.size < (new - g.dev).toNat

/-- RING_HOST_WRITE (R53): the count is taken, or the write is ignored with RING_ERR and EV_RING_ERROR. -/
def execRingHostWrite (fn ring : Nat) (count : Word) (s : State) : Host.Outcome State Fault Refusal :=
  whenHost fn s fun _ r =>
    let r := r.hostAccess fn
    let f := r.fn fn
    let g := f.ring ring
    if 33 ≤ fn ∨ 4 ≤ ring then r
    else if g.badCount ring count then
      (r.modFn fn (fun f => f.setRing ring { g with err := true })).raise
        { ev := .ringError, source := ringSource fn, data := [ring, count.toNat] }
    else r.modFn fn (fun f => f.setRing ring { g with host := count })

/-- CMD_ENABLE_RISE (R50): ring 0 starts at slot 0. -/
def execCmdEnableRise (fn : Nat) (s : State) : Host.Outcome State Fault Refusal :=
  whenHost fn s fun _ r => (r.hostAccess fn).modFn fn fun f =>
    if f.cmdEn then f else { f with cmdEn := true, ring0 := f.ring0.enabled }

/-- CMD_ENABLE_FALL (R51): no further entry is taken; SEQ_STALL and ring 0's error clear. -/
def execCmdEnableFall (fn : Nat) (s : State) : Host.Outcome State Fault Refusal :=
  whenUp s fun _ r => r.modFn fn fun f =>
    { f with cmdEn := false, seqStall := false, ring0 := f.ring0.disabled }

/-- EVT_ENABLE_RISE (R52): the event ring restarts at slot 0; held entries are posted in their order. -/
def execEvtEnableRise (fn : Nat) (s : State) : Host.Outcome State Fault Refusal :=
  whenHost fn s fun _ r => (r.hostAccess fn).modFn fn fun f =>
    if f.evtEn then f else { f with evtEn := true, ring1 := f.ring1.enabled }

/-- EVT_ENABLE_FALL (R52): posting stops; what is not posted is held. -/
def execEvtEnableFall (fn : Nat) (s : State) : Host.Outcome State Fault Refusal :=
  whenUp s fun _ r => r.modFn fn fun f => { f with evtEn := false, ring1 := f.ring1.disabled }

/-! ### Command intake -/

/-- Commands accepted device-wide whose completions have not been posted (R66). -/
def Run.outstanding (r : Run) : Nat := (r.fns.map FnState.outstanding).sum

/-- The function's command ring may give an entry now: READY, enabled, not stopped, an entry waits, and both
limits of R66 leave room; not while the function is frozen (R99), the HKP is away (R622) or power fails (R646). -/
def Run.canFetch (sys : Sys) (r : Run) (fn : Nat) : Bool :=
  let f := r.fn fn
  r.ready && f.cmdEn && !f.frozen && !f.seqStall && !f.ring0.err && decide (0 < f.ring0.waiting) &&
    decide (f.outstanding < 256) && decide (r.outstanding < 4096) &&
    !r.flt.hkpAway && !r.flt.hkpDead && sys.pwrfailAt.isNone

/-- The function's turn of the round robin (R66): no other function that may give an entry stands between the function served last
and this one. -/
def Run.fetchTurn (sys : Sys) (r : Run) (fn : Nat) : Bool :=
  (List.range 33).all fun m => m == fn || !r.canFetch sys m ||
    decide ((fn + 32 - r.lastFetched) % 33 < (m + 32 - r.lastFetched) % 33)

/-- The function's command ring gives the next entry. -/
def Run.mayFetch (sys : Sys) (r : Run) (fn : Nat) : Bool := r.canFetch sys fn && r.fetchTurn sys fn

/-- The instance a command targets: its own for a VF; for PF0 the INSTANCE field, where it names one (Table 2.5). -/
def targetOf (fn : Nat) (e : CmdEntry) : Option Nat :=
  if fn ≠ 0 then some (fn - 1) else if e.inst < 32 then some e.inst else none

/-- COMMAND_FETCH (R65, R66): the entry is taken; a poisoned one stops ring 0 with RING_ERR and is reported through
AER (R58); one with another CSEQ than MBX_SEQ[0] + 1 is not accepted and stalls the ring (R65); any other is
accepted. An entry not accepted counts as taken in MBX_RING_DEV[0].
DESIGN CHOICE, assumption 94: unsafe.
DEDUCED, assumption 33: safe. -/
def execCommandFetch (fn : Nat) (octets : List Nat) (poisoned : Bool) (s : State) : Host.Outcome State Fault Refusal :=
  let entry := entryOf octets
  whenUp s fun sys r =>
    if 33 ≤ fn ∨ !r.mayFetch sys fn then r
    else
      let r := { r with lastFetched := fn }
      let r := r.modFn fn (fun f => { f with ring0 := { f.ring0 with dev := f.ring0.dev + 1 } })
      let expected := (r.fn fn).cseqAccepted + 1
      if poisoned then
        (r.modFn fn (fun f => { f with ring0 := { f.ring0 with err := true } })).emit (.aer fn)
      else if entry.cseq ≠ expected then
        let c : Completion := { status := .seq, cseq := entry.cseq, opcode := entry.opcode, epoch := r.epoch, quiet := entry.quiet }
        (r.modFn fn (fun f => { f with seqStall := true, post := f.post ++ [Post.rejected c] })).raise
          { ev := .seqStall, source := ringSource fn, data := [entry.cseq.toNat, expected.toNat] }
      else
        let target := targetOf fn entry
        let gen := match target with | some n => (r.inst n).gen | none => 0
        let order := r.acceptances
        (({ r with acceptances := order + 1 } : Run).modFn fn (fun f =>
          { f with cseqAccepted := entry.cseq,
                   accepted := f.accepted ++ [{ entry := entry, target := target, gen := gen, order := order }] })).sweep 256 fn

/-! ### Posting -/

/-- The event ring of a function takes an entry now (R52, R70, R99, R622). -/
def Run.mayPost (r : Run) (fn : Nat) : Bool :=
  let f := r.fn fn
  f.evtEn && !f.frozen && !f.ring1.err && decide (0 < f.ring1.space) && !r.flt.hkpAway && !r.flt.hkpDead

/-- Result bytes that waited for the end of a freeze are written before their completion is posted (R60, R99).
DESIGN CHOICE, assumption 94: unsafe. -/
def Run.writeLate (r : Run) (fn : Nat) (c : Completion) : Run :=
  match c.unwritten with
  | some addr => (r.emit (.hostBuffer fn addr c)).dma fn addr c.resultLen
  | none => r

/-- EVENT_RING_POST (R56, R61, R63, R70): the oldest entry is written to the ring in one write. -/
def execEventRingPost (fn : Nat) (s : State) : Host.Outcome State Fault Refusal :=
  whenUp s fun _ r =>
    match (r.fn fn).post with
    | [] => r
    | p :: rest =>
      if !r.mayPost fn then r
      else
        let g := (r.fn fn).ring1
        let r := match p with | .completion c false => r.writeLate fn c | _ => r
        let r := r.modFn fn fun f => { f with
          post := rest,
          ring1 := { g with dev := g.dev + 1 },
          eseqPosted := match p with | .event e false => e.eseq | _ => f.eseqPosted }
        let r := (r.emit (.ringEntry fn g.slot g.phase p)).dma fn (g.base + 64 * g.slot) 64
        match p with
        | .completion c _ | .rejected c => if c.quiet then r else r.raiseSource fn (compSource fn)
        | _ => r

/-! ### Device commands -/

/-- DEV_NOP (R76). -/
def execDevNop (c : Cmd) (s : State) : Host.Outcome State Fault Refusal :=
  runQuery { op := 0x0100, pf0 := false, recovery := true } c s fun _ _ _ => .ok

/-- The part number OXZ6401 in ASCII, as the number its eight bytes spell (Table 2.10). -/
def partNumber : Nat := 0x0031_3034_365A_584F

/-- MBX_ID of a function: firmware 3.1, stepping 0xB0 (R1). -/
def mbxId (fn : Nat) : Nat := 0x0301B000 + fn

/-- DEV_IDENTIFY (R76): part number, MBX_ID, EPOCH and serial number. -/
def execDevIdentify (c : Cmd) (s : State) : Host.Outcome State Fault Refusal :=
  runQuery { op := 0x0101, pf0 := false, recovery := true } c s fun _ sys r =>
    .done { result := [partNumber, mbxId c.fn, r.epoch.toNat, sys.serial] }

/-- The completed commands with the `n` CSEQs from `from` on, in CSEQ order (R84). -/
def FnState.replayable (f : FnState) (start : Word) (n : Nat) : List Completion :=
  (List.range n).filterMap fun i => f.completed.find? (fun x => x.cseq == start + BitVec.ofNat 32 i)

/-- DEV_REPLAY_COMPLETIONS (R84). -/
def execDevReplayCompletions (c : Cmd) (fromCseq : Word) (s : State) : Host.Outcome State Fault Refusal :=
  runCmd { op := 0x0102, pf0 := false } c s fun _ r =>
    let f := r.fn c.fn
    let n := (f.cseqAccepted + 1 - fromCseq).toNat
    if 256 < n then (r, .status .window)
    else
      let l := f.replayable fromCseq n
      (r.modFn c.fn (fun f => { f with post := f.post ++ l.map (fun x => Post.completion x true) }),
       .done { result := [(l.length : Int)] })

/-- The held events with an ESEQ from `from` up to MBX_SEQ[3], where `n` is the number of ESEQs up to the last
raised (R85). -/
def FnState.replayEvents (f : FnState) (start : Word) (n : Nat) : List Event :=
  let u := (f.eseqRaised - f.eseqPosted).toNat
  f.events.filter fun e => decide ((e.eseq - start).toNat < n - u)

/-- DEV_REPLAY_EVENTS (R85). Where nothing is replayed, the "last ESEQ replayed" is a free value (assumption 1, DESIGN CHOICE). -/
def execDevReplayEvents (c : Cmd) (fromEseq : Word) (s : State) : Host.Outcome State Fault Refusal :=
  runCmd { op := 0x0103, pf0 := false } c s fun _ r =>
    let f := r.fn c.fn
    let n := (f.eseqRaised + 1 - fromEseq).toNat
    if 4096 < n then (r, .status .window)
    else
      let l := f.replayEvents fromEseq n
      let (none', r) := r.takeFree 32
      let last := match l.getLast? with | some e => e.eseq | none => none'
      (r.modFn c.fn (fun f => { f with post := f.post ++ l.map (fun x => Post.event x true) }),
       .done { result := [(l.length : Int), last.toNat] })

/-- The octets of a section of a snapshot: SECTION_ID with a block code in its high byte, reserved, LEN and data, padded to 8 bytes (Table 2.11). -/
def snapshotSection (x : Nat × List Nat) : List Int :=
  let data := x.2.map (· % 256)
  let pad := (8 - data.length % 8) % 8
  (leOctets 2 ((x.1 / 256 % 18 + 1) * 256 + x.1 % 256) ++ [0, 0] ++ leOctets 4 data.length ++ data ++ List.replicate pad 0).map Int.ofNat

/-- The bytes a section takes. -/
def snapshotBytes (x : Nat × List Nat) : Nat := 8 + (x.2.length + 7) / 8 * 8

/-- DEV_SNAPSHOT (R86, Table 2.11). No chapter gives its sections: they are an unknown function of the state captured, in the form
of the table (assumption 6, DESIGN CHOICE). -/
def execDevSnapshot (c : Cmd) (s : State) : Host.Outcome State Fault Refusal :=
  runCommand { op := 0x0104, pf0 := false } c s fun _ sys r =>
    let f := r.fn c.fn
    let sections := Config.snapshotSections c.fn (sys, r)
    let total := 64 + (sections.map snapshotBytes).sum
    (sys, r, .done {
      buffer := [(1 : Int), c.fn, r.epoch.toNat, f.cseqAccepted.toNat, f.cseqCompleted.toNat, f.eseqRaised.toNat,
                 sections.length, secOf r.now, nsOf r.now, total] ++ sections.flatMap snapshotSection,
      bufLen := total })

/-! ### Dirty-page logging -/

/-- The range and the bitmaps of R96. -/
def dirtyArgsOk (m base length bitmapA bitmapB : Nat) : Bool :=
  1 ≤ m && m ≤ 32 && base % 4096 == 0 && length % 32768 == 0 && bitmapA % 8 == 0 && bitmapB % 8 == 0

/-- DIRTY_LOG_START (R95, R96, R98); ST_RANGE is judged before ST_BUSY.
DESIGN CHOICE, assumption 94: unsafe. -/
def execDirtyLogStart (c : Cmd) (m base length bitmapA bitmapB : Nat) (s : State) : Host.Outcome State Fault Refusal :=
  runCmd { op := 0x0108, pf0 := true } c s fun _ r =>
    if !dirtyArgsOk m base length bitmapA bitmapB then (r, .status .range)
    else if (r.fn m).dirty.isSome then (r, .status .busy)
    else (r.modFn m (fun f => { f with
            dirty := some { base := base, length := length, bitmapA := bitmapA, bitmapB := bitmapB } }), .ok)

/-- The active bitmap is closed and the other one, which the host has cleared (R97), becomes active (R98). -/
def DirtyLog.switch (d : DirtyLog) : DirtyLog :=
  if d.activeB then { d with activeB := false, bitsA := [], outside := 0 }
  else { d with activeB := true, bitsB := [], outside := 0 }

/-- The bitmap that a switch closes, as it then stands in host memory (R98). -/
def DirtyLog.closed (d : DirtyLog) : Out :=
  if d.activeB then .dirtyBitmap d.bitmapB d.bitsB else .dirtyBitmap d.bitmapA d.bitsA

/-- DIRTY_LOG_SYNC (R98). A VF that is not logging meets ST_STATE (assumption 7, DESIGN CHOICE). -/
def execDirtyLogSync (c : Cmd) (m : Nat) (s : State) : Host.Outcome State Fault Refusal :=
  runCmd { op := 0x0109, pf0 := true } c s fun _ r =>
    if m < 1 ∨ 32 < m then (r, .status .range)
    else match (r.fn m).dirty with
      | none => (r, .status .state)
      | some d =>
        let d' := d.switch
        ((r.modFn m (fun f => { f with dirty := some d' })).emit d.closed,
         .done { result := [if d'.activeB then 1 else 0, d.outside] })

/-- DIRTY_LOG_STOP (R99): with FREEZE every DMA write for the VF stops first; then the bitmap closes and logging ends.
DESIGN CHOICE, assumption 7: unsafe. DEDUCED, assumption 92: unsafe. -/
def execDirtyLogStop (c : Cmd) (m : Nat) (freeze : Bool) (s : State) : Host.Outcome State Fault Refusal :=
  runCmd { op := 0x010A, pf0 := true } c s fun _ r =>
    if m < 1 ∨ 32 < m then (r, .status .range)
    else match (r.fn m).dirty with
      | none => (r, .status .state)
      | some d =>
        let d' := d.switch
        let r := r.modFn m fun f => { f with dirty := none, frozen := f.frozen || freeze }
        ((if freeze then r.dropHost m else r).emit d.closed,
         .done { result := [if d'.activeB then 1 else 0, d.outside] })

end Sys2Proof.Machine
end

