-- ==== Sys2Proof/Machine/RegOps.lean ====
section
/-! DEFINITION. Register writes (R7, R8, R47, R48, R80) and the 64-bit registers (R11), chapter by chapter. A reserved code in
a field that lists its codes leaves the field unchanged. -/

namespace Sys2Proof.Machine

/-- Bit `b` of a written word. -/
def wbit (v b : Nat) : Bool := v.testBit b

/-- A field takes a value that its range admits, and keeps its own otherwise.
DESIGN CHOICE, assumption 50: unsafe. -/
def takeIf {α : Type} (ok : Bool) (new old : α) : α := if ok then new else old

/-- A write to a register with an RWL part (Table 0.2, R80): while locked a changed part stays and is reported. -/
def Run.rwl (r : Run) (locked : Bool) (off : Nat) (same : Bool) (f : Run → Run) : Run :=
  if same then r else if locked then r.lockedWrite 0 off else f r

/-! ### Ports (chapter 4) -/

/-- A shaper changed by `f`, its credit first brought up to now (R147). -/
def Run.modShaper (r : Run) (n q : Nat) (f : Shaper → Shaper) : Run :=
  let now := r.cyclesOf n
  let r := r.settlePort n
  r.modPort n fun p => { p with shapers := tabSet p.shapers q (f (tabGetD p.shapers q { since := now })) }

/-- EN: the credit is 0 when it rises (R148). -/
def Shaper.setEn (s : Shaper) (b : Bool) : Shaper := { s with en := b, credit := if b && !s.en then 0 else s.credit }

/-- MAC registers without a row of their own, at offset `o` in the block of port `n`. -/
def Run.writeMac (r : Run) (n o v : Nat) : Run :=
  let q := (o - 0x40) / 0x10
  if 64 ≤ n then r
  else if o = 0x0C then r.modPort n fun p => { p with hold := v % 65536 }
  else if o = 0x10 then r.modPort n fun p => { p with ageQ := (List.range 4).map fun i => field v (8 * i + 7) (8 * i) }
  else if o < 0x40 ∨ 0xC0 ≤ o then r
  else if o % 0x10 = 0 then r.modShaper n q (·.setEn (wbit v 0))
  else if o % 0x10 = 4 then r.modShaper n q fun s => { s with slope := v }
  else if o % 0x10 = 8 then r.modShaper n q fun s => { s with hi := field v 22 0 }
  else if o % 0x10 = 12 then
    let z := signedOf 32 v
    if 0 < z then r else r.modShaper n q fun s => { s with lo := z }
  else r

/-! ### Switch (chapter 5) -/

/-- SWC_PORT_CFG as it reads. -/
def SwPort.word (x : SwPort) : Nat :=
  (if x.learn then 2 ^ 31 else 0) + (if x.ingressFilter then 2 ^ 30 else 0) + x.accept * 2 ^ 28 +
    (if x.unkMcBlock then 2 ^ 27 else 0) + (if x.ingestEn then 2 ^ 26 else 0) + (if x.trib then 2 ^ 25 else 0) +
    (if x.supToHost then 2 ^ 24 else 0) + x.defPcp * 2 ^ 13 + x.pvid

/-- SWC_PORT_CFG as a write leaves it, TRIB aside.
DESIGN CHOICE, assumption 50: unsafe. -/
def SwPort.written (x : SwPort) (v : Nat) : SwPort :=
  { x with learn := wbit v 31, ingressFilter := wbit v 30, accept := takeIf (field v 29 28 != 3) (field v 29 28) x.accept,
           unkMcBlock := wbit v 27, ingestEn := wbit v 26, supToHost := wbit v 24, defPcp := field v 15 13,
           pvid := takeIf (decide (1 ≤ field v 11 0) && decide (field v 11 0 ≤ 4094)) (field v 11 0) x.pvid }

/-- SWC_PORT_CFG of a port changed. -/
def Run.modSwPort (r : Run) (p : Nat) (f : SwPort → SwPort) : Run :=
  r.modSw fun w => { w with ports := tabSet w.ports p (f (w.port p)) }

/-- K_t takes a value (SWC_ALPHA). -/
def Run.setAlpha (r : Run) (t : Nat) (k : Int) : Run := r.modSw fun w => { w with alpha := modAt w.alpha t fun _ => k }

/-- SWC registers, at offset `o` in the window.
DESIGN CHOICE, assumption 50: unsafe. DEDUCED, assumption 51: unsafe. -/
def Run.writeSwc (r : Run) (locked : Bool) (o v : Nat) : Run :=
  let p := o / 0x40
  if o < 0x1100 then
    if o % 0x40 = 0 ∧ p < 64 then
      let r := r.rwl locked (0x140000 + o) (wbit v 25 == (r.sw.port p).trib) fun r => r.modSwPort p fun x => { x with trib := wbit v 25 }
      r.modSwPort p (·.written v)
    else if o % 0x40 = 4 then r.modSw fun w => { w with pcpMap := tabPut w.pcpMap p (field v 23 0) 0xFAC688 }
    else r
  else if o = 0x4000 then
    (List.range 8).foldl (fun (r : Run) t =>
      let k := signedOf 4 (field v (4 * t + 3) (4 * t))
      if -4 ≤ k ∧ k ≤ 3 then r.setAlpha t k else r) r
  else if o = 0x4004 then if field v 12 0 ≤ 4096 then r.modSw fun w => { w with headroom := field v 12 0 } else r
  else if 0x4100 ≤ o ∧ o < 0x4180 then
    let j := (o - 0x4100) / 4
    let mode := field v 31 28
    if 6 ≤ mode then r else r.rwl locked (0x140000 + o) (mode == r.sw.mode j) fun r => r.modSw (·.setMode j mode)
  else r

/-! ### Time (chapter 6) -/

/-- The registers of the time unit changed. -/
def Run.modTsuRegs (r : Run) (f : TsuRegs → TsuRegs) : Run := r.modTsu fun t => { t with regs := f t.regs }

/-- TSU_INC (R199): under host control while SERVO_EN is 0, within the clamp; y is the rate it stands for.
DEDUCED, assumption 49: unsafe. DEDUCED, assumption 77: unsafe. -/
def Run.setInc (r : Run) (v : Nat) : Run :=
  if r.tsu.regs.servoEn || decide (v < incOf (-500000)) || decide (incOf 500000 < v) then r
  else
    let y : Rat := ((v : Rat) / ((2 ^ 34 : Nat) : Rat) - 1) * 1000000000
    r.modTsu fun t => { t with inc := v, servo := { t.servo with y := y } }

/-- SERVO_EN takes a value.
DEDUCED, assumption 49: unsafe. -/
def Run.setServoEn (r : Run) (b : Bool) : Run :=
  if b = r.tsu.regs.servoEn then r else if b then r.servoOn else r.servoOff

/-- UTC_OFFSET: ignored while FROM_PTP is 1. -/
def Run.setUtcOffset (r : Run) (z : Int) : Run :=
  if r.tsu.regs.fromPtp then r else r.modTsuRegs fun g => { g with utcOffset := z, utcConfig := z }

/-- TSU_IRIG takes a value. -/
def Run.setIrig (r : Run) (v : Nat) : Run :=
  r.modTsu fun t => t.changeSource fun g => { g with
    irigLocal := wbit v 5, irigCfExt := wbit v 4, irigAuto := wbit v 3, irigFormat := field v 2 0 }

/-- OUT_GATE takes a code. -/
def Run.setOutGate (r : Run) (k : Nat) : Run := (r.modTsuRegs fun g => { g with outGate := k }).gatePps

/-- RX_LAT and TX_LAT of a port. -/
def Run.setRxLat (r : Run) (n : Nat) (z : Int) : Run := r.modTsuRegs fun g => { g with rxLat := tabPut g.rxLat n z 0 }

/-- See `Run.setRxLat`. -/
def Run.setTxLat (r : Run) (n : Nat) (z : Int) : Run := r.modTsuRegs fun g => { g with txLat := tabPut g.txLat n z 0 }

/-- The RWL part of TSU_CTRL in a written word: GM_EN, ROLE, PROFILE, SRC. -/
def TsuRegs.rwlPart (g : TsuRegs) (v : Nat) : TsuRegs :=
  { g with gmEn := wbit v 7, role := takeIf (field v 5 4 != 3) (field v 5 4) g.role,
           profile := takeIf (decide (field v 3 2 < 2)) (field v 3 2) g.profile, src := field v 1 0 }

/-- TSU registers, at offset `o` in the window.
DEDUCED, assumption 49: unsafe. DESIGN CHOICE, assumption 50: unsafe. -/
def Run.writeTsu (r : Run) (locked : Bool) (o v : Nat) : Run :=
  if o = 0x00 then
    let g := r.tsu.regs
    let r := r.rwl locked 0x180000 (g.rwlPart v == g) fun r => r.modTsu (·.changeSource (·.rwlPart v))
    let r := r.modTsuRegs fun g => { g with tcEn := wbit v 10 }
    let r := if field v 9 8 = 3 then r else r.setOutGate (field v 9 8)
    r.setServoEn (wbit v 6)
  else if o = 0x04 then if wbit v 9 && !r.heldW1c .stepped then r.modTsu fun t => { t with stepped := false } else r
  else if o = 0x18 then r.setInc v
  else if o = 0x28 then r.modTsuRegs fun g => { g with ki := field v 31 16, kp := field v 15 0 }
  else if o = 0x2C then r.modTsuRegs fun g => { g with
    lockCount := takeIf (field v 31 24 != 0) (field v 31 24) g.lockCount,
    slewMax := takeIf (field v 23 16 != 0) (field v 23 16) g.slewMax,
    lockThresh := takeIf (field v 15 0 != 0) (field v 15 0) g.lockThresh }
  else if o = 0x34 then r.modTsuRegs fun g => { g with
    inPol := wbit v 31,
    outWidth := takeIf (decide (1 ≤ field v 30 21) && decide (field v 30 21 ≤ 999)) (field v 30 21) g.outWidth,
    inDelay := takeIf (decide (field v 20 0 ≤ 1000000)) (field v 20 0) g.inDelay }
  else if o = 0x38 then r.setIrig v
  else if o = 0x3C then r.setUtcOffset (signedOf 16 (field v 15 0))
  else if 0x100 ≤ o ∧ o < 0x200 then
    let n := (o - 0x100) / 4
    (r.setRxLat n (signedOf 16 (field v 15 0))).setTxLat n (signedOf 16 (field v 31 16))
  else if 0x1000 ≤ o ∧ o < 0x1200 ∧ o % 0x20 = 0x10 ∧ wbit v 31 ∧ !r.heldW1c (.ovf ((o - 0x1000) / 0x20)) then
    let i := (o - 0x1000) / 0x20
    r.modTsu fun t => { t with txq := tabSet t.txq i { tabGetD t.txq i {} with ovf := false } }
  else r

/-! ### Confluence, recorders, Cellar, faults (chapters 8, 15, 16, 19) -/

/-- CFL_CTRL. -/
def Run.setCflCtrl (r : Run) (pol pinEn : Bool) : Run := { r with cfl := { r.cfl with pol := pol, pinEn := pinEn } }

/-- DR_BW in units of 100 MB/s (R530): the halving levels follow. -/
def Run.setDrBw (r : Run) (v : Nat) : Run := (r.modDr fun y => { y with bw := v }).drFit 100

/-- CEL_LOG_LEVEL.MIN_SEVERITY. -/
def Run.setMinSeverity (r : Run) (v : Nat) : Run := { r with cel := { r.cel with minSeverity := v } }

/-- FLT_CTRL. -/
def Run.setFltCtrl (r : Run) (halt soFall : Bool) : Run := r.modFlt fun x => { x with halt := halt, soFall := soFall }

/-! ### The field bus (chapter 18) -/

/-- A receive buffer when its channel leaves INIT holds no frame (R600). -/
def CanBuf.emptied (b : CanBuf) : CanBuf := if b.record.tx then b else { b with content := none, shadow := none, expired := false }

/-- FBC_CTRL as a write leaves it; in INIT the error counters are 0. `held` tells that a fault holds the channel in INIT.
DEDUCED, assumption 52: unsafe. -/
def CanChan.written (c : CanChan) (v : Nat) (held : Bool) : CanChan :=
  let init := wbit v 30 || held
  let bufs := if c.init && !init then c.bufs.map fun (e : Nat × CanBuf) => (e.1, e.2.emptied) else c.bufs
  let c := { c with enable := wbit v 31, init := init, schedEn := wbit v 7, autoRecov := wbit v 6, listen := wbit v 5,
                    loopback := wbit v 4, tdcEn := wbit v 3, brsEn := wbit v 2, fdEn := wbit v 1, bufs := bufs }
  let c := c.noteOffer
  if init && !held then { c with tec := 0, rec' := 0, state := 0, recov := 0, recovering := false, held := none, first := none }
  else c

/-- FBC registers of channel `n`, at offset `o` in its block: a timing register is writable while INIT is 1, and a write that
breaks a limit of R595 leaves the whole register unchanged.
DEDUCED, assumption 52: unsafe. -/
def Run.writeFbc (r : Run) (n o v : Nat) : Run :=
  let c := r.can n
  if 4 ≤ n then r
  else if o = 0 then
    if tdcOk (wbit v 3) c.dbt.toNat then
      let r := r.modBus n (·.written v (r.flt.lasting.contains 25 || r.flt.storeLost 11))
      (if (r.can n).init then r.endCancelled n else r).canStateEvent n c.state
    else r
  else if !c.init then r
  else if o = 4 then if nbtOk v then r.modCan n fun c => { c with nbt := BitVec.ofNat 32 v &&& 0xFFFFFF7F#32 } else r
  else if o = 8 then
    if dbtOk v && tdcOk c.tdcEn v then r.modCan n fun c => { c with dbt := BitVec.ofNat 32 v &&& 0xFFFFC000#32 } else r
  else if o = 12 then r.modCan n fun c => { c with tdco := field v 22 16 }
  else r

/-! ### The function and interrupt pages (chapter 2) -/

/-- A ring is enabled. -/
def FnState.ringOn (f : FnState) (i : Nat) : Bool := match i with | 0 => f.cmdEn | 1 => f.evtEn | _ => f.vnicEn

/-- MBX_STATUS, MBX_RING_BASE and MBX_RING_SIZE, at offset `o`; `lossHeld` tells that EVENT_LOSS is being set in this tick (R8). -/
def FnState.writePage (f : FnState) (o v : Nat) (lossHeld : Bool := false) : FnState :=
  let i := (o - 0x100) / 0x20
  if o = 0x08 then if wbit v 8 && !lossHeld then { f with eventLoss := false } else f
  else if o < 0x100 ∨ 0x180 ≤ o ∨ f.ringOn i then f
  else if o % 0x20 = 0 then f.setRing i { f.ring i with base := v % 2 ^ 64 / 4096 * 4096 }
  else if o % 0x20 = 8 then f.setRing i { f.ring i with log2 := field v 3 0 }
  else f

/-- MBX_ICAUSE and MBX_IVEC of function `fn`, at offset `o` in the interrupt page. -/
def Run.writeIrq (r : Run) (fn o v : Nat) : Run :=
  if o < 0x80 then
    let mine := r.routedTo r.ownSources fn
    let clear (s : Nat) : Bool := s / 32 == o / 4 && v.testBit (s % 32) && mine s && !r.heldW1c (.cause s)
    { r with cause := r.cause.filter fun s => !clear s }
  else if 0x100 ≤ o ∧ o < 0x500 then
    if v % 256 < vectorsOf fn then r.modFn fn fun f => { f with ivec := tabSet f.ivec (o - 0x100) (v % 256) } else r
  else r

/-- The MSI-X table of function `fn` (Table 2.2): a vector whose mask bit falls while its pending bit is 1 sends its message. The
first vector unmasked shows that MSI-X Enable is set, for which the table of operations has no row.
PRESUMED, assumption 55: unsafe. -/
def Run.writeMsix (r : Run) (fn o v : Nat) : Run :=
  let k := o / 16
  if vectorsOf fn ≤ k then r
  else if o % 16 ≠ 12 then r.modFn fn fun f => { f with msixTable := tabPut f.msixTable (o / 4) (v % 2 ^ 32) 0 }
  else if wbit v 0 then r.modFn fn fun f => { f with msixUnmasked := setDel f.msixUnmasked k }
  else
    let pend := (r.fn fn).msixPending.contains k
    let r := r.modFn fn fun f => { f with msixUnmasked := setIns f.msixUnmasked k, msixEn := true, msixPending := setDel f.msixPending k }
    if pend then r.emit (.msix fn k) else r

/-- The device register window (Table 2.3), which PF0 alone has. -/
def Run.writeDevice (r : Run) (locked : Bool) (off v : Nat) : Run :=
  let o := (off - 0x100000) % 0x20000
  match (off - 0x100000) / 0x20000 + 1 with
  | 0x03 => r.writeSwc locked o v
  | 0x04 => r.writeMac (o / 0x400) (o % 0x400) v
  | 0x05 => r.writeTsu locked o v
  | 0x07 => if o = 0 then r.setCflCtrl (wbit v 1) (wbit v 0) else r
  | 0x0D => if o = 0 ∧ 1 ≤ field v 7 0 ∧ field v 7 0 ≤ 80 then r.setDrBw (field v 7 0) else r
  | 0x0E => if o = 4 then r.setMinSeverity (field v 1 0) else r
  | 0x11 => r.writeFbc (o / 0x100) (o % 0x100) v
  | 0x12 => if o = 4 then
      r.rwl locked off (wbit v 1 == r.flt.halt && wbit v 0 == r.flt.soFall) fun r => r.setFltCtrl (wbit v 1) (wbit v 0)
    else r
  | _ => r

/-- A register write of a function (R47): reserved offsets are ignored.
DESIGN CHOICE, assumption 48: unsafe. -/
def Run.writeReg (r : Run) (locked : Bool) (fn off v : Nat) : Run :=
  let r := r.hostAccess fn
  if 33 ≤ fn then r
  else if off < 0x1000 then r.modFn fn (·.writePage off v (r.heldW1c (.eventLoss fn)))
  else if off < 0x2000 then r.writeIrq fn (off - 0x1000) v
  else if off < 0x3000 then r.writeMsix fn (off - 0x2000) v
  else if fn = 0 ∧ 0x100000 ≤ off ∧ off < 0x340000 then r.writeDevice locked off v
  else r

end Sys2Proof.Machine
end

