-- ==== Sys2Proof/Machine/RegRead.lean ====
section
/-! DEFINITION. The values of the 64-bit registers, whose low word a read latches (R11). -/

namespace Sys2Proof.Machine

/-- One bit of a word. -/
def bit (b : Bool) (k : Nat) : Nat := if b then 2 ^ k else 0

/-- An entry of an array of 64-bit registers from `base` on, of `n` registers 8 bytes apart. -/
def arrayAt (o base n : Nat) (f : Nat → Nat) : Option Nat :=
  if base ≤ o ∧ o < base + 8 * n ∧ o % 8 = 0 then some (f ((o - base) / 8)) else none

/-- The committed task with a device task number. -/
def Run.taskByDev (r : Run) (t : Nat) : Option (Nat × Nat × TaskSt) :=
  (r.cle.insts.flatMap fun e => (e.2.tasks.filter fun x => x.2.dev == t).map fun x => (e.1, x.1, x.2)).head?

/-- CLE_TASK[t]. -/
def Run.cleTaskWord (r : Run) (t : Nat) : Nat :=
  match r.taskByDev t with
  | none => 0
  | some (n, i, x) =>
    x.cycleNo % 2 ^ 32 * 2 ^ 32 + 2 ^ 31 + n * 2 ^ 26 + x.task.engine * 2 ^ 24 + bit x.task.supervisory 23 +
      x.mode.code * 2 ^ 20 + x.lastFault * 2 ^ 18 + i

/-- MLR_LOOP[l]. -/
def Run.mlrLoopWord (r : Run) (l : Nat) : Nat :=
  match r.loop l with
  | none => 0
  | some x =>
    x.out.toNat * 2 ^ 32 + 2 ^ 31 + x.inst * 2 ^ 26 + bit x.record.gridQ 25 + bit x.auto 24 + bit x.missed 23 +
      bit x.inject.isSome 22 + (x.limited + 1).toNat * 2 ^ 20 + x.sat % 256 * 2 ^ 6 + x.index

/-- The percentage of its buffer that a recorder's held records take. -/
def Rec.fill (x : Rec) : Nat := (x.held.map fun h => h.rows.length * h.rowBytes).sum * 100 / x.record.bufBytes

/-- The number of the open or next record. -/
def Rec.openNumber (x : Rec) : Nat := match x.current with | some c => c.number | none => x.number

/-- DRC_REC[d]. -/
def Run.drcRecWord (r : Run) (d : Nat) : Nat :=
  match r.recorder d with
  | none => 0
  | some x =>
    x.held.length * 2 ^ 48 + x.openNumber * 2 ^ 32 + 2 ^ 31 + x.inst * 2 ^ 26 + x.index * 2 ^ 22 + x.phase.code * 2 ^ 19 +
      x.h * 2 ^ 16 + x.stopCause * 2 ^ 8 + x.fill

/-- SRM_SLOT[s] (Table 17.5). -/
def Strong.slotRegister (s : Strong) (k : Nat) : Nat :=
  match s.key k with
  | none => 0
  | some x =>
    x.keyId % 2 ^ 32 * 2 ^ 32 + x.type * 2 ^ 24 + 2 ^ 23 + bit (s.replaces.any fun y => y.slot == k) 22 +
      bit (x.attr.testBit 35) 21 + bit (x.attr.testBit 33) 20 + field x.attr 12 8 * 2 ^ 15 + bit (x.attr.testBit 13) 14 +
      bit (x.attr.testBit 14) 13

/-- FBC_ERR[n]. RECOV, while recovery runs, is a free value of 0 to 128, for no row counts the recessive sequences.
DESIGN CHOICE, assumption 90: safe. -/
def CanChan.errWord (c : CanChan) (ticks : Nat) : Nat :=
  c.state * 2 ^ 30 + bit c.held.isSome 29 + c.tec % 512 * 2 ^ 16 + bit (decide (127 < c.rec')) 15 + min c.rec' 127 * 2 ^ 8 +
    if c.recovering then (Config.freeValue 8 ticks).toNat % 129 else c.recov % 256

/-- FLT_TEST[c]. -/
def Run.fltTestWord (r : Run) (c : Nat) : Nat :=
  match tabGet r.flt.slots c with
  | none => 0
  | some t => t.unit * 2 ^ 32 + bit t.busy 31 + 2 ^ 30 + (r.ticks - t.since) / 250 % 2 ^ 30

/-- A P tick as CFL_TICK and CFL_DS_TICK spell it. -/
def tickWord (p : Nat) : Nat := p / 4800 % 2 ^ 48 * 2 ^ 13 + p % 4800

/-- SWC_CENSUS. -/
def Switch.censusWord (w : Switch) : Nat :=
  w.skipped % 65536 * 2 ^ 48 + bit w.walking 33 + w.double % 65536 * 2 ^ 17 + w.censusSum % 2 ^ 17

/-- The 64-bit TSU registers, as function `fn` reads them (R201, R226). -/
def Run.tsu64 (r : Run) (fn o : Nat) : Option Nat :=
  let q : TxQueue := tabGetD r.tsu.txq ((o - 0x1000) / 0x20) {}
  if o = 0x10 then some ((tabGet r.tsu.secLatch fn).getD (secOf r.now) % 2 ^ 48)
  else if o = 0x18 then some r.tsu.inc
  else if o = 0x20 then some (bitsOfInt 64 (roundRat r.tsu.servo.theta))
  else if 0x1000 ≤ o ∧ o < 0x1200 ∧ o % 0x20 = 8 then some (secOf q.latched % 2 ^ 48)
  else if 0x1000 ≤ o ∧ o < 0x1200 ∧ o % 0x20 = 0x10 then some (q.lost % 2 ^ 32 * 2 ^ 32 + bit q.ovf 31 + q.entries.length)
  else none

/-- CEL_STAT[k]. -/
def Cellar.count (c : Cellar) (k : Nat) : Nat :=
  match k with | 0 => c.flushes | 1 => c.stageLost | 2 => c.failedPages | _ => c.mirrorDrop

/-- A 64-bit register of the device window at its low word's offset, as function `fn` reads it. -/
def Run.device64 (r : Run) (fn off : Nat) : Option Nat :=
  let o := (off - 0x100000) % 0x20000
  match (off - 0x100000) / 0x20000 + 1 with
  | 0x03 =>
    if o = 0x4010 then some r.sw.censusWord else if o = 0x4018 then some r.sw.reclaimed
    else arrayAt o 0x8000 (68 * 16) fun i => tabGetD r.sw.stat i 0
  | 0x04 =>
    if o = 0x10008 then some (secOf r.sw.snapT % 2 ^ 48)
    else if 0x10000 ≤ o then none
    else (arrayAt (o % 0x400) 0x100 32 fun k => tabGetD (r.port (o / 0x400)).stat k 0).or
      (arrayAt (o % 0x400) 0x200 32 fun k => tabGetD (r.port (o / 0x400)).snap k 0)
  | 0x05 => r.tsu64 fn o
  | 0x06 => arrayAt o 0x100 8 fun k => tabGetD r.ing.stat k 0
  | 0x07 =>
    if o = 8 then some (tickWord r.cfl.tick)
    else if o = 0x18 then some (bit (r.cfl.dsPending && decide (r.nowExact < pInstant r.cfl.dsTick)) 63 + tickWord r.cfl.dsTick)
    else arrayAt o 0x100 8 fun k => tabGetD r.cfl.stat k 0
  | 0x08 => arrayAt o 0x100 8 fun k => tabGetD r.slc.stat k 0
  | 0x09 => (arrayAt o 0x100 256 r.cleTaskWord).or (arrayAt o 0x1000 (256 * 8) fun i =>
      match r.taskByDev (i / 8) with | some (_, _, x) => tabGetD x.stat (i % 8) 0 | none => 0)
  | 0x0A => (arrayAt o 0 64 r.mlrLoopWord).or (arrayAt o 0x1000 (64 * 8) fun i =>
      match r.loop (i / 8) with | some x => tabGetD x.stat (i % 8) 0 | none => 0)
  | 0x0D => (arrayAt o 0x100 16 r.drcRecWord).or (arrayAt o 0x1000 (16 * 8) fun i =>
      match r.recorder (i / 8) with | some x => tabGetD x.stat (i % 8) 0 | none => 0)
  | 0x0E =>
    if o = 8 then some r.cel.last else if o = 0x10 then some r.cel.tail
    else arrayAt o 0x100 4 r.cel.count
  | 0x0F => arrayAt o 0x1000 4096 r.lgr.value
  | 0x10 => (arrayAt o 0x100 256 r.srm.slotRegister).or (arrayAt o 0x1000 8 fun k => tabGetD r.srm.stat k 0)
  | 0x11 => if o < 0x400 then arrayAt (o % 0x100) 0x40 8 fun k => tabGetD (r.can (o / 0x100)).stat k 0 else none
  | 0x12 => (arrayAt o 0x100 11 fun i => r.fltTestWord (i + 1)).or (arrayAt o 0x200 8 fun k => tabGetD r.flt.stat k 0)
  | _ => none

/-- MBX_RING_BASE[r] and MBX_VNIC_CNT[k]. -/
def FnState.page64 (f : FnState) (o : Nat) : Option Nat :=
  if 0x100 ≤ o ∧ o < 0x180 ∧ o % 0x20 = 0 then some (f.ring ((o - 0x100) / 0x20)).base
  else arrayAt o 0x200 5 fun k =>
    match k with | 0 => f.vnicRx | 1 => f.vnicTx | 2 => f.vnicRxOff | 3 => f.vnicTrunc | _ => f.vnicTxErr

/-- A 64-bit register of a function at its low word's offset. -/
def Run.reg64 (r : Run) (fn off : Nat) : Option Nat :=
  if off < 0x1000 then (r.fn fn).page64 off
  else if fn = 0 ∧ 0x100000 ≤ off ∧ off < 0x340000 then r.device64 fn off
  else none

end Sys2Proof.Machine
end

