-- ==== Sys2Proof/Machine/ParamOps.lean ====
section
/-! DEFINITION. The parameters (R77 to R83, R685, R686), block by block: what each is, who may read it, its value, and how it
is set. -/

namespace Sys2Proof.Machine

/-- A parameter. TYPE is the code of R77; `cls` is 0 LIVE, 1 STAGED, 2 RWL; `range` is minimum, maximum and step where the
chapter gives them; `vfs` are the instances whose VF may read it. A value the manual leaves open is none. -/
structure PInfo where
  ty : Nat
  cls : Nat := 0
  unit : Nat := 0
  range : Option (Int × Int × Int) := none
  dflt : Option Int := none
  writable : Bool := false
  vfs : List Nat := []
  vfWrites : Bool := false
  value : Option Int
  deriving DecidableEq, Repr

/-- Every VF. -/
def everyVf : List Nat := List.range 32

/-- A read-only parameter. -/
def ro (ty : Nat) (v : Int) (vfs : List Nat := []) (unit : Nat := 0) : PInfo := { ty := ty, value := some v, vfs := vfs, unit := unit }

/-- The unit of a port counter (Table 2.14): bytes for RX_OCTETS and TX_OCTETS, of either snapshot; none for the others. -/
def octetUnit (item : Nat) : Nat := if [0x101, 0x111, 0x121, 0x131].contains item then 6 else 0

/-- A configuration parameter with its range and default. -/
def rw (ty cls : Nat) (lo hi step dflt v : Int) (unit : Nat := 0) : PInfo :=
  { ty := ty, cls := cls, unit := unit, range := some (lo, hi, step), dflt := some dflt, writable := true, value := some v }

/-- A BOOL configuration parameter. -/
def rwBool (cls : Nat) (dflt v : Bool) : PInfo := rw 1 cls 0 1 1 (if dflt then 1 else 0) (if v then 1 else 0)

/-- The natural number `n` as a value. -/
def ofN (n : Nat) : Int := n

/-! ### Block 0x01: the device and its instances -/

/-- The largest DR region in GiB (R33). -/
def Sys.drMax (s : Sys) : Nat := min 16 (2 * (s.capacity - 1))

/-- R660, R683, R34. -/
def devParam (sys : Sys) (r : Run) (item : Nat) : Option PInfo :=
  match item with
  | 1 => some (rw 7 0 0 2592000000000000 1000000000 86400000000000 (ofN (sys.autoConfirm * 1000000000)) 1)
  | 2 => some (ro 4 sys.aonLosses)
  | 3 => some (ro 4 sys.pwrfailCount)
  | 4 => some (rw 2 2 0 15 1 0 (ofN r.trip.ballMux))
  | 5 => some (ro 3 sys.tj [] 0xD)
  | 6 => some (rw 2 2 0 16 1 (ofN (min 8 sys.drMax)) (ofN (sys.drRegion.getD (min 8 sys.drMax))) 0xA)
  | _ => none

/-- R129. -/
def instParam (r : Run) (n item : Nat) : Option PInfo :=
  let i := r.inst n
  match item with
  | 0x100 => some (ro 2 i.phase.code [n])
  | 0x101 => some (ro 2 i.gen [n])
  | 0x102 => some (ro 2 i.inEffect.sluice [n] 0xB)
  | 0x103 => some (ro 2 i.inEffect.cistern [n] 0xB)
  | 0x104 => some (ro 2 i.inEffect.ingest [n] 0xB)
  | 0x105 => some (ro 2 i.rank [n])
  | 0x106 => some (ro 4 i.refusedCells [n])
  | 0x107 => some (ro 4 i.refusedIngest [n])
  | 0x108 => some (ro 4 i.deferred [n])
  | 0x109 => some (ro 4 i.resets [n])
  | _ => none

/-! ### Blocks 0x03, 0x04 and 0x05: switch, ports, time -/

/-- R196. -/
def swcParam (r : Run) (p item : Nat) : Option PInfo :=
  let w := r.sw
  if p = 0xFF then
    if 1 ≤ item ∧ item ≤ 8 then
      let t := item - 1
      some (rw 3 0 (-4) 3 1 (([-2, -2, -2, -2, 1, 1, 3, 3] : List Int).getD t 0) (w.alpha.getD t 0))
    else match item with
      | 0x10 => some (rw 2 0 0 4096 1 512 (ofN w.headroom) 7)
      | 0x11 => some (rw 7 0 10000000000 3600000000000 1000000000 300000000000 (ofN (w.fdbAge * 1000000000)) 1)
      | 0x12 => some (rw 7 1 100000000 10000000000 100000000 2000000000 (ofN (w.lifeCheck * 1000000)) 1)
      | 0x13 => some (rw 7 1 1000000000 600000000000 1000000000 60000000000 (ofN (w.nodeForget * 1000000000)) 1)
      | _ => none
  else if item = 0x20 ∧ p < 64 then some (rw 2 0 0 (2 ^ 32 - 1) 1 0xC4000001 (ofN (w.port p).word))
  else if item = 0x21 ∧ p < 68 then some (rw 2 0 0 (2 ^ 24 - 1) 1 0xFAC688 (ofN (tabGetD w.pcpMap p 0xFAC688)))
  else if 0x100 ≤ item ∧ item < 0x110 ∧ p < 68 then some (ro 4 (ofN (tabGetD w.stat (16 * p + (item - 0x100)) 0)) everyVf)
  else none

/-- R160. -/
def macParam (r : Run) (n item : Nat) : Option PInfo :=
  let p := r.port n
  let s (q : Nat) : Shaper := tabGetD p.shapers q {}
  if 64 ≤ n then none
  else if 0x10 ≤ item ∧ item < 0x14 then some (rw 7 0 0 255000000 1000000 20000000 (ofN (p.ageQ.getD (item - 0x10) 0 * 1000000)) 1)
  else if 0x20 ≤ item ∧ item < 0x28 then some (rwBool 0 false (s (item - 0x20)).en)
  else if 0x28 ≤ item ∧ item < 0x30 then some (rw 2 0 0 (2 ^ 32 - 1) 1 0 (ofN (s (item - 0x28)).slope) 8)
  else if 0x30 ≤ item ∧ item < 0x38 then some (rw 2 0 0 (2 ^ 23 - 1) 1 0 (ofN (s (item - 0x30)).hi) 5)
  else if 0x38 ≤ item ∧ item < 0x40 then some (rw 3 0 (-(2 ^ 31)) 0 1 0 (s (item - 0x38)).lo 5)
  else if 0x100 ≤ item ∧ item < 0x120 then some (ro 4 (ofN (tabGetD p.stat (item - 0x100) 0)) everyVf (octetUnit item))
  else if 0x120 ≤ item ∧ item < 0x140 then some (ro 4 (ofN (tabGetD p.snap (item - 0x120) 0)) everyVf (octetUnit item))
  else match item with
    | 1 => some (rwBool 0 false p.enable)
    | 2 => some (rw 2 2 0 15 1 (if n < 48 then 0 else if n < 60 then 2 else 4) (ofN p.mode))
    | 3 => some (rw 2 2 0 (if n < 60 then 0 else 2) 1 (if n < 60 then 0 else 2) (ofN p.fec))
    | 4 => some (rw 2 2 1518 2000 1 1536 (ofN p.maxFrame) 6)
    | 5 => some (rwBool 0 true p.tsEn)
    | 6 => some (rw 2 0 64 2048 64 256 (ofN p.base) 6)
    | 7 => some (rw 7 0 0 6553500000 100000 5000000 (ofN (p.hold * 100000)) 1)
    | _ => none

/-- TSU_IRIG as it reads. -/
def TsuRegs.irigWord (g : TsuRegs) : Nat := bit g.irigLocal 5 + bit g.irigCfExt 4 + bit g.irigAuto 3 + g.irigFormat

/-- R229. -/
def tsuParam (r : Run) (n item : Nat) : Option PInfo :=
  let t := r.tsu
  let g := t.regs
  if n < 64 then match item with
    | 0x20 => some (rwBool 1 false (g.ptpPorts.contains n))
    | 0x21 => some (rw 3 0 (-32768) 32767 1 0 (tabGetD g.rxLat n 0) 1)
    | 0x22 => some (rw 3 0 (-32768) 32767 1 0 (tabGetD g.txLat n 0) 1)
    | _ => none
  else if n ≠ 0xFF then none
  else match item with
    | 1 => some (rw 2 2 0 3 1 0 g.src)
    | 2 => some (rw 2 2 0 1 1 0 g.profile)
    | 3 => some (rw 2 2 0 2 1 0 g.role)
    | 4 => some (rwBool 2 false g.gmEn)
    | 5 => some (rw 2 1 0 255 1 (if g.profile = 1 then 254 else 0) t.domainOf)
    | 6 => some (rw 2 1 0 255 1 128 g.priority1)
    | 7 => some (rw 2 1 0 255 1 128 g.priority2)
    | 8 => some (rw 2 0 0 65535 1 0xC000 g.kp)
    | 9 => some (rw 2 0 0 65535 1 0x4000 g.ki)
    | 0xA => some (rw 2 0 1 65535 1 100 g.lockThresh 1)
    | 0xB => some (rw 2 0 1 255 1 8 g.lockCount)
    | 0xC => some (rw 2 0 1 255 1 10 g.slewMax 0xC)
    | 0xD => some (rw 2 0 0 2 1 0 g.outGate)
    | 0xE => some (rwBool 0 true g.tcEn)
    | 0x10 => some (rw 2 0 0 1000000 1 0 g.inDelay 1)
    | 0x11 => some (rw 2 0 1 999 1 100 g.outWidth 3)
    | 0x12 => some (rw 2 0 0 63 1 8 g.irigWord)
    | 0x13 => some (rw 3 0 (-32768) 32767 1 37 g.utcOffset 4)
    | 0x30 => some (ro 2 t.phase.code everyVf)
    | 0x31 => some (ro 2 t.tq everyVf)
    | 0x32 => some (ro 4 t.outliers)
    | 0x33 => some (ro 4 t.irigMismatch)
    | _ => none

/-! ### Blocks 0x06 to 0x0A: ingest, Confluence, Sluice, CLE, Millrace -/

/-- R261: groups 0x00 to 0x3F are SV, 0x40 to 0x7F GOOSE. -/
def ingParam (r : Run) (n item : Nat) : Option PInfo :=
  let goose := decide (0x40 ≤ n)
  let g := n % 0x40
  let code := item / 256
  let k := item % 256
  if n = 0xFF then if item < 8 then some (ro 4 (ofN (tabGetD r.ing.stat item 0))) else none
  else if 0x80 ≤ n ∨ groupSize goose ≤ k then none
  else
    let vfs : List Nat := (r.ing.ownerOf goose g).toList
    let s := r.sub goose (groupSize goose * g + k)
    if 1 ≤ code ∧ code ≤ 0x0E then some (ro 4 (ofN (match s with | some x => tabGetD x.stat code 0 | none => 0)) vfs)
    else if code = 0x10 then some (ro 2 (ofN (match s with | some x => x.phase.code | none => 0)) vfs)
    else none

/-- R303: a parameter of a channel slot. T̂ of a stream without a tracking loop is open. -/
def chanParam (r : Run) (slot code : Nat) : Option PInfo :=
  let c := tabGet r.cfl.chans slot
  let vfs : List Nat := (c.map (·.inst)).toList
  let stream := c.bind fun x => tabGet r.cfl.streams x.stream
  let stat (k : Nat) : Int := ofN (match c with | some x => tabGetD x.stat k 0 | none => 0)
  if 1 ≤ code ∧ code ≤ 5 then some (ro 4 (stat code) vfs)
  else match code with
    | 6 => some (ro 2 (ofN (match c with
        | some x => bit x.invalid 0 + bit x.fade.isSome 1 + bit x.bankB 2 + bit x.queued.isSome 3 +
            loopCode (stream.bind (·.loop)) * 16
        | none => 0)) vfs)
    | 7 => some (ro 7 (ofN (match c with | some x => r.cfl.chanDelay x | none => 0)) vfs 1)
    | 8 => some { ty := 4, unit := 2, vfs := vfs,
                  value := (stream.bind (·.loop)).map fun l => (l.period * ((2 ^ 32 : Nat) : Rat)).floor }
    | 9 => some (ro 4 (ofN (match stream with | some x => x.outliers | none => 0)) vfs)
    | _ => none

/-- R303. -/
def cflParam (r : Run) (n item : Nat) : Option PInfo :=
  if n = 0xFF then
    if item = 1 then some (rwBool 0 false r.cfl.pinEn)
    else if item = 2 then some (rwBool 0 false r.cfl.pol)
    else if 0x10 ≤ item ∧ item < 0x18 then some (ro 4 (ofN (tabGetD r.cfl.stat (item - 0x10) 0)))
    else if 0x8000 ≤ item ∧ item < 0x8020 then
      let m := item - 0x8000
      some { rw 7 1 100000 2000000 1000 300000 (ofN (tabGetD r.cfl.horizon m 300 * 1000)) 1 with vfs := [m], vfWrites := true }
    else none
  else if 0x80 ≤ n ∨ field item 7 6 ≠ 0 then none
  else chanParam r (64 * n + item % 64) (item / 256)

/-- R334, R418. -/
def slcParam (r : Run) (n item : Nat) : Option PInfo :=
  let x := r.slcOf n
  let sel (s : Nat) : Selector := x.sels.getD s {}
  if n = 0xFF then if 0x10 ≤ item ∧ item < 0x18 then some (ro 4 (ofN (tabGetD r.slc.stat (item - 0x10) 0))) else none
  else if 32 ≤ n then none
  else if 3 ≤ item ∧ item ≤ 8 then some (ro 4 (ofN (tabGetD x.stat item 0)) [n])
  else if 0x100 ≤ item ∧ item < 0x104 then some (ro 2 (ofN (sel (item - 0x100)).active) [n])
  else if 0x104 ≤ item ∧ item < 0x108 then some (ro 2 (if (sel (item - 0x104)).forced.isSome then 1 else 0) [n])
  else if 0x108 ≤ item ∧ item < 0x10C then some (ro 4 (ofN (sel (item - 0x108)).changes) [n])
  else match item with
    | 1 => some (ro 2 (ofN x.g.nodes.length) [n])
    | 2 => some (ro 2 (ofN x.g.edges.length) [n])
    | 9 => some (ro 2 x.need [n])
    | 0xA => some (ro 2 x.peak [n])
    | _ => none

/-- R455. -/
def cleParam (r : Run) (n item : Nat) : Option PInfo :=
  let code := item / 256
  let t := r.task n (item % 256)
  let stat (k : Nat) : Int := ofN (match t with | some x => tabGetD x.stat k 0 | none => 0)
  if n = 0xFF then
    if item = 1 then some (ro 2 (ofN r.cle.units.1)) else if item = 2 then some (ro 2 (ofN r.cle.units.2)) else none
  else if 32 ≤ n then none
  else if 1 ≤ code ∧ code ≤ 8 then some (ro 4 (stat (code - 1)) [n])
  else match code with
    | 0x10 => some (ro 2 (ofN (match t with | some x => x.mode.code | none => 0)) [n])
    | 0x11 => some (ro 2 (ofN (match t with | some x => x.cycleNo | none => 0)) [n])
    | 0x12 => some (ro 4 (stat 8) [n])
    | _ => none

/-- R478. -/
def mlrParam (r : Run) (n item : Nat) : Option PInfo :=
  let code := item / 256
  let x := (r.loopDev n (item % 256)).bind fun l => r.loop l
  if 32 ≤ n ∨ 64 ≤ item % 256 then none
  else if 1 ≤ code ∧ code ≤ 7 then some (ro 4 (ofN (match x with | some y => tabGetD y.stat (code - 1) 0 | none => 0)) [n])
  else match code with
    | 0x10 => some (ro 2 (match x with | some y => if y.auto then 1 else 0 | none => 0) [n])
    | 0x11 => some (ro 6 (ofN (match x with | some y => y.out.toNat | none => 0)) [n])
    | _ => none

/-! ### Blocks 0x0B to 0x12: trip paths, recorders, Cellar, Strongroom, field bus, faults -/

/-- R513; the relative index counts an instance's GOOSE publications. -/
def pubParam (r : Run) (n item : Nat) : Option PInfo :=
  let code := item / 256
  let x := (r.gooseDev n (item % 256)).bind fun d => r.goosePub d
  if n = 0xFF then if 1 ≤ item ∧ item ≤ 3 then some (ro 4 (ofN (tabGetD r.trip.trib.stat item 0))) else none
  else if 32 ≤ n ∨ code < 1 ∨ 3 < code then none
  else some (ro 4 (ofN (match x with | some y => tabGetD y.stat code 0 | none => 0)) [n])

/-- The instances that claim a resource (Table 3.5). -/
def Run.claimants (r : Run) (res index : Nat) : List Nat :=
  (List.range 32).filter fun m => (r.inst m).claims.any fun c => c.res == res && c.index == index

/-- R513. -/
def sioParam (r : Run) (n item : Nat) : Option PInfo :=
  if 32 ≤ n then none
  else match item with
    | 1 | 2 | 3 => some (ro 4 (ofN (tabGetD (r.so n).stat item 0)) (r.soOwner n).toList)
    | 4 => some (ro 4 (ofN (r.trip.bis.getD n {}).changes) (r.claimants 5 n))
    | _ => none

/-- R536. -/
def drcParam (r : Run) (n item : Nat) : Option PInfo :=
  let code := item / 256
  let x := (r.dr.recs.find? fun e => e.2.inst == n && e.2.index == item % 256).map (·.2)
  if n = 0xFF then
    if item = 1 then some (rw 4 0 100000000 8000000000 100000000 2000000000 (ofN (r.dr.bw * 100000000)) 9) else none
  else if 32 ≤ n ∨ 16 ≤ item % 256 then none
  else if 1 ≤ code ∧ code ≤ 8 then some (ro 4 (ofN (match x with | some y => tabGetD y.stat (code - 1) 0 | none => 0)) [n])
  else if code = 0x10 then some (ro 2 (ofN (match x with | some y => y.phase.code | none => 0)) [n])
  else none

/-- R558. -/
def celParam (r : Run) (item : Nat) : Option PInfo :=
  if item = 1 then some (rw 2 0 0 3 1 1 r.cel.minSeverity)
  else if 0x10 ≤ item ∧ item < 0x14 then some (ro 4 (ofN (r.cel.count (item - 0x10))))
  else none

/-- R558: device counters are those below 256. -/
def lgrParam (r : Run) (c : Nat) : Option PInfo :=
  if 4096 ≤ c then none
  else some (ro 4 (ofN (r.lgr.value c)) (if c < 256 then everyVf else (tabGet r.lgr.owner c).toList))

/-- R591. -/
def srmParam (r : Run) (item : Nat) : Option PInfo :=
  if item = 1 then some (ro 2 r.srm.lc.code everyVf)
  else if 0x10 ≤ item ∧ item < 0x18 then some (ro 4 (ofN (tabGetD r.srm.stat (item - 0x10) 0)))
  else none

/-- R611: public to the VFs that own a buffer of the channel. -/
def fbcParam (r : Run) (n item : Nat) : Option PInfo :=
  let c := r.can n
  let vfs := (c.bufs.map fun e => e.2.record.inst).eraseDups
  if 4 ≤ n then none
  else if item = 1 then some (ro 2 (ofN (c.errWord r.ticks)) vfs)
  else if 0x10 ≤ item ∧ item < 0x18 then some (ro 4 (ofN (tabGetD c.stat (item - 0x10) 0)) vfs)
  else none

/-- R631. -/
def fltParam (r : Run) (item : Nat) : Option PInfo :=
  if item = 1 then some (rwBool 2 true r.flt.soFall)
  else if item = 2 then some (rwBool 2 false r.flt.halt)
  else if item = 3 then some (ro 2 (ofN (bit r.flt.healthy 15 + r.flt.cause)) everyVf)
  else if 0x10 ≤ item ∧ item < 0x18 then some (ro 4 (ofN (tabGetD r.flt.stat (item - 0x10) 0)))
  else none

/-- The parameter of an ID: block [31:24], instance [23:16], item [15:0].
DESIGN CHOICE, assumption 53: unsafe. -/
def paramOf (sys : Sys) (r : Run) (id : Nat) : Option PInfo :=
  let n := id / 2 ^ 16 % 256
  let item := id % 2 ^ 16
  let wide (p : Option PInfo) : Option PInfo := if n = 0xFF then p else none
  match id / 2 ^ 24 with
  | 0x01 => if n = 0xFF then devParam sys r item else if n < 32 then instParam r n item else none
  | 0x03 => swcParam r n item
  | 0x04 => macParam r n item
  | 0x05 => tsuParam r n item
  | 0x06 => ingParam r n item
  | 0x07 => cflParam r n item
  | 0x08 => slcParam r n item
  | 0x09 => cleParam r n item
  | 0x0A => mlrParam r n item
  | 0x0B => pubParam r n item
  | 0x0C => sioParam r n item
  | 0x0D => drcParam r n item
  | 0x0E => wide (celParam r item)
  | 0x0F => wide (lgrParam r item)
  | 0x10 => wide (srmParam r item)
  | 0x11 => fbcParam r n item
  | 0x12 => wide (fltParam r item)
  | _ => none

/-! ### Setting -/

/-- A parameter's value takes effect in what runs. -/
def Run.setParam (r : Run) (id : Nat) (v : Int) : Run :=
  let n := id / 2 ^ 16 % 256
  let item := id % 2 ^ 16
  let k := v.toNat
  let on := v != 0
  match id / 2 ^ 24 with
  | 0x01 => if item = 4 then r.setBallMux k else r
  | 0x03 =>
    if n = 0xFF then
      match item with
      | 0x10 => r.modSw fun w => { w with headroom := k }
      | 0x11 => r.modSw fun w => { w with fdbAge := k / 1000000000 }
      | 0x12 => r.modSw fun w => { w with lifeCheck := k / 1000000 }
      | 0x13 => r.modSw fun w => { w with nodeForget := k / 1000000000 }
      | _ => r.setAlpha (item - 1) v
    else if item = 0x20 then r.modSwPort n fun x => { x.written k with trib := wbit k 25 }
    else r.modSw fun w => { w with pcpMap := tabPut w.pcpMap n k 0xFAC688 }
  | 0x04 =>
    if 0x10 ≤ item ∧ item < 0x14 then r.modPort n fun p => { p with ageQ := modAt p.ageQ (item - 0x10) fun _ => k / 1000000 }
    else if 0x20 ≤ item ∧ item < 0x28 then r.modShaper n (item - 0x20) (·.setEn on)
    else if 0x28 ≤ item ∧ item < 0x30 then r.modShaper n (item - 0x28) fun s => { s with slope := k }
    else if 0x30 ≤ item ∧ item < 0x38 then r.modShaper n (item - 0x30) fun s => { s with hi := k }
    else if 0x38 ≤ item ∧ item < 0x40 then r.modShaper n (item - 0x38) fun s => { s with lo := v }
    else match item with
      | 1 => if on then r.modPort n fun p => { p with enable := true } else if (r.port n).enable then r.portDisable n else r
      | 2 => r.modPort n fun p => { p with mode := k }
      | 3 => r.modPort n fun p => { p with fec := k }
      | 4 => r.modPort n fun p => { p with maxFrame := k }
      | 5 => r.modPort n fun p => { p with tsEn := on }
      | 6 => r.modPort n fun p => { p with base := k, cur := k }
      | _ => r.modPort n fun p => { p with hold := k / 100000 }
  | 0x05 =>
    match item with
    | 1 => r.modTsu fun t => t.changeSource fun g => { g with src := k }
    | 2 => r.modTsuRegs fun g => { g with profile := k }
    | 3 => r.modTsuRegs fun g => { g with role := k }
    | 4 => r.modTsuRegs fun g => { g with gmEn := on }
    | 5 => r.modTsuRegs fun g => { g with domain := some k }
    | 6 => r.modTsuRegs fun g => { g with priority1 := k }
    | 7 => r.modTsuRegs fun g => { g with priority2 := k }
    | 8 => r.modTsuRegs fun g => { g with kp := k }
    | 9 => r.modTsuRegs fun g => { g with ki := k }
    | 0xA => r.modTsuRegs fun g => { g with lockThresh := k }
    | 0xB => r.modTsuRegs fun g => { g with lockCount := k }
    | 0xC => r.modTsuRegs fun g => { g with slewMax := k }
    | 0xD => r.setOutGate k
    | 0xE => r.modTsuRegs fun g => { g with tcEn := on }
    | 0x10 => r.modTsuRegs fun g => { g with inDelay := k }
    | 0x11 => r.modTsuRegs fun g => { g with outWidth := k }
    | 0x12 => r.setIrig k
    | 0x13 => r.setUtcOffset v
    | 0x20 => r.modTsuRegs fun g => { g with ptpPorts := if on then setIns g.ptpPorts n else setDel g.ptpPorts n }
    | 0x21 => r.setRxLat n v
    | 0x22 => r.setTxLat n v
    | _ => r
  | 0x07 =>
    if item = 1 then r.setCflCtrl r.cfl.pol on
    else if item = 2 then r.setCflCtrl on r.cfl.pinEn
    else { r with cfl := { r.cfl with horizonStaged := tabSet r.cfl.horizonStaged (item - 0x8000) (k / 1000) } }
  | 0x0D => r.setDrBw (k / 100000000)
  | 0x0E => r.setMinSeverity k
  | 0x12 => if item = 1 then r.setFltCtrl r.flt.halt on else r.setFltCtrl on r.flt.soFall
  | _ => r

/-! ### Judging records (R77, R78, R82, R685) -/

/-- VALUE of a record as the type of R77 reads it; none, which meets ST_RANGE, where bytes above the width of the type are not zero
or a BOOL is above 1.
DESIGN CHOICE, assumption 94: unsafe. -/
def readValue (ty raw : Nat) : Option Int :=
  match ty with
  | 1 => if raw < 2 then some raw else none
  | 2 | 6 => if raw < 2 ^ 32 then some raw else none
  | 3 => if raw < 2 ^ 32 then some (signedOf 32 raw) else none
  | 5 => if raw < 2 ^ 64 then some (signedOf 64 raw) else none
  | _ => if raw < 2 ^ 64 then some raw else none

/-- A value as VALUE carries it: little-endian and zero-extended. -/
def putValue (ty : Nat) (v : Int) : Nat := if ty = 3 then bitsOfInt 32 v else bitsOfInt 64 v

/-- A value lies in the range of its parameter. -/
def PInfo.admits (p : PInfo) (id : Nat) (v : Int) : Bool :=
  let n := id / 2 ^ 16 % 256
  let k := v.toNat
  (match p.range with | some (lo, hi, step) => decide (lo ≤ v) && decide (v ≤ hi) && (v - lo) % step == 0 | none => true) &&
    (if id = 0x01FF0001 then k == 0 || decide (3600000000000 ≤ k)
     else if id / 2 ^ 24 = 4 ∧ id % 2 ^ 16 = 2 then (modesOf n).contains k
     else if id / 2 ^ 24 = 3 ∧ id % 2 ^ 16 = 0x20 then
       field k 29 28 != 3 && decide (1 ≤ field k 11 0) && decide (field k 11 0 ≤ 4094)
     else true)

/-- A value would change an RWL item (R80): the parameter's, or TRIB in PORT_CFG. -/
def PInfo.changesRwl (p : PInfo) (id : Nat) (v : Int) : Bool :=
  (p.cls == 2 && p.value != some v) ||
    (decide (id / 2 ^ 24 = 3 ∧ id % 2 ^ 16 = 0x20) && wbit v.toNat 25 != wbit (p.value.getD 0).toNat 25)

/-- A function may read a parameter (R82). -/
def PInfo.readable (p : PInfo) (fn : Nat) : Bool := fn == 0 || p.vfs.contains (fn - 1)

/-- The functions that may read a parameter are those whose instance owns its resource: it is not public, neither to every VF nor, as those
of a field bus channel, to the owners of its buffers (R82, R100, R611). -/
def PInfo.ownedBy (p : PInfo) (id : Nat) : Bool := p.vfs != everyVf && id / 2 ^ 24 != 0x11

/-- The claim that refuses a value of BALL_MUX (R671): that of the lowest output whose ball it would take.
DEDUCED, assumption 73: unsafe. -/
def Run.ballClash (r : Run) (v : Nat) : Option (List Int) :=
  let c (n : Nat) : Claim := { res := 1, index := 28 + n, kind := .device, object := 0 }
  [0, 1, 2, 3].findSome? fun n =>
    if !v.testBit n then none
    else (List.range 32).findSome? fun m =>
      if (r.inst m).phase = .free then none
      else ((r.inst m).claims.find? fun x => x.res == 1 && x.index == 28 + n).map fun x => conflictFields (c n) m x 0xFFFF

/-- One record of PARAM_SET judged: its status, its value, and the conflict record it meets.
DESIGN CHOICE, assumption 53: unsafe. -/
def judgeSet (sys : Sys) (r : Run) (fn : Nat) (x : ParamRec) : Status × Int × List Int :=
  match paramOf sys r x.ident with
  | none => (.noParam, 0, [])
  | some p =>
    if fn ≠ 0 ∧ !(p.vfWrites && p.readable fn) ∧ !(p.readable fn && !p.writable && p.ownedBy x.ident) then (.denied, 0, [])
    else if !p.writable then (.readOnly, 0, [])
    else if x.type ≠ p.ty then (.type, 0, [])
    else match readValue p.ty x.value with
      | none => (.range, 0, [])
      | some v =>
        if !p.admits x.ident v ∨ (x.ident = 0x01FF0006 ∧ (sys.drMax : Int) < v) then (.range, 0, [])
        else if sys.locked && p.changesRwl x.ident v then (.locked, 0, [])
        else if x.ident = 0x01FF0004 then
          match r.ballClash v.toNat with | some l => (.conflict, 0, l) | none => (.ok, v, [])
        else (.ok, v, [])

/-- A judged record takes effect (R79): a STAGED parameter that no instance owns waits for DEV_COMMIT.
DESIGN CHOICE, assumption 53: unsafe. -/
def applySet (sys : Sys) (r : Run) (id : Nat) (v : Int) : Sys × Run :=
  match paramOf sys r id with
  | none => (sys, r)
  | some p =>
    if p.cls = 1 ∧ id / 2 ^ 24 ≠ 7 then ({ sys with devStaged := tabSet sys.devStaged id v }, r)
    else if id = 0x01FF0001 then ({ sys with autoConfirm := v.toNat / 1000000000 }, r)
    else if id = 0x01FF0006 then ({ sys with drRegion := some v.toNat }, r)
    else (sys, r.setParam id v)

/-! ### The device configuration (R80, R81) -/

/-- The device configuration as it stands. -/
def captureConfig (sys : Sys) (r : Run) : DevConfig :=
  { ports := r.ports.map fun p => (p.mode, p.fec, p.maxFrame),
    tribs := (List.range 64).filter fun p => (r.sw.port p).trib, redMode := r.sw.redMode,
    lifeCheck := r.sw.lifeCheck, nodeForget := r.sw.nodeForget,
    gmEn := r.tsu.regs.gmEn, role := r.tsu.regs.role, profile := r.tsu.regs.profile, src := r.tsu.regs.src,
    domain := r.tsu.regs.domain, priority1 := r.tsu.regs.priority1, priority2 := r.tsu.regs.priority2,
    ptpPorts := r.tsu.regs.ptpPorts, soFall := r.flt.soFall, halt := r.flt.halt, ballMux := r.trip.ballMux,
    drRegion := sys.drRegion }

/-- The STAGED device parameters take effect. -/
def applyStaged (sys : Sys) (r : Run) : Sys × Run :=
  ({ sys with devStaged := [] }, sys.devStaged.foldl (fun (r : Run) (e : Nat × Int) => r.setParam e.1 e.2) r)

/-- A staged value lies outside its range (Table 2.10, DEV_COMMIT). -/
def stagedBad (sys : Sys) (r : Run) : Bool :=
  sys.devStaged.any fun e => match paramOf sys r e.1 with | some p => !p.admits e.1 e.2 | none => true

end Sys2Proof.Machine
end

