-- ==== Sys2Proof/Machine/RegMap.lean ====
section
/-! DEFINITION. The register map (R3, R7, R9, R47): what a read of BAR0 returns, and what it does. Reserved fields and offsets read 0,
as do fields of access WO. -/

namespace Sys2Proof.Machine

/-! ### The boot control block (R639) -/

/-- Bytes 0 to 15 of a boot control block: MAGIC, SEQ, ACTIVE, TRIAL, TRIES and the reserved byte. -/
def BootBlock.octets (b : BootBlock) : List Nat :=
  leOctets 4 0x42434253 ++ leOctets 8 b.seq ++
    [if b.active then 1 else 0, match b.trial with | none => 0xFF | some t => if t then 1 else 0, b.tries % 256, 0]

/-- A block as it is written, with its CRC-32. -/
def BootBlock.copy (b : BootBlock) : BootCopy := { block := b, crc := crc32 b.octets }

/-- The CRC of a copy matches. -/
def BootCopy.ok (c : BootCopy) : Bool := c.crc == crc32 c.block.octets

/-- BCB_1 is the copy in use: the one with a matching CRC and the higher SEQ (R639); BCB_0 where neither matches.
DEDUCED, assumption 38: unsafe. -/
def Sys.usesBcb1 (s : Sys) : Bool := s.bcb1.ok && (!s.bcb0.ok || decide (s.bcb0.block.seq < s.bcb1.block.seq))

/-- The boot control block in use. -/
def Sys.bcb (s : Sys) : BootBlock := if s.usesBcb1 then s.bcb1.block else s.bcb0.block

/-- HKP_BOOT as it reads. -/
def Sys.bootWord (s : Sys) : Nat :=
  bit s.boot.warm 31 + bit s.boot.imageB 30 + bit s.boot.trial 29 + bit s.boot.fallback 28 +
    bit (decide (s.phase = .recovery)) 27 + s.boot.bootSel % 4 * 2 ^ 25 + s.bcb.tries % 8 * 2 ^ 22 + s.svnMin % 64 * 2 ^ 16 +
    s.boot.readyMs % 65536

/-- The 32 bits of a word of which `f` gives each. -/
def word32 (f : Nat → Bool) : Nat := ((List.range 32).map fun j => bit (f j) j).sum

/-- A number saturated to 16 bits. -/
def sat16 (n : Nat) : Nat := min n 65535

/-! ### The pages of a function (chapter 2) -/

/-- MBX_STATUS. -/
def Run.mbxStatus (r : Run) (fn : Nat) : Nat :=
  let f := r.fn fn
  bit f.eventLoss 8 + bit f.frozen 4 + bit (f.ring0.err || f.ring1.err || f.ring2.err || f.ring3.err) 3 + bit f.seqStall 2 +
    bit r.protection 1 + bit r.ready 0

/-- The function page (chapter 2). -/
def Run.page32 (r : Run) (fn o : Nat) : Nat :=
  let f := r.fn fn
  let g := f.ring ((o - 0x100) / 0x20)
  if o = 0x00 then mbxId fn
  else if o = 0x04 then r.epoch.toNat
  else if o = 0x08 then r.mbxStatus fn
  else if o = 0x0C then bit f.vnicEn 2 + bit f.evtEn 1 + bit f.cmdEn 0
  else if o = 0x10 then f.cseqAccepted.toNat
  else if o = 0x14 then f.cseqCompleted.toNat
  else if o = 0x18 then f.eseqRaised.toNat
  else if o = 0x1C then f.eseqPosted.toNat
  else if o = 0x20 then f.outstanding
  else if o < 0x100 ∨ 0x180 ≤ o then 0
  else match o % 0x20 with
    | 0x08 => g.log2 | 0x0C => g.host.toNat | 0x10 => g.dev.toNat | _ => 0

/-- The interrupt page, the MSI-X table and the pending-bit array (Table 2.2). MBX_IVEC is read by the byte. -/
def Run.irq32 (r : Run) (fn off : Nat) : Nat :=
  let f := r.fn fn
  let mine := r.routedTo r.ownSources fn
  let o := off % 0x1000
  if off < 0x1080 then word32 fun j => mine (8 * o + j) && r.cause.contains (8 * o + j)
  else if off < 0x1100 then
    let i := (o - 0x80) / 4
    word32 fun j => !(mine (32 * i + j) && r.unmasked.contains (32 * i + j))
  else if off < 0x1500 then f.vector fn (o - 0x100)
  else if off < 0x2000 then 0
  else if off < 0x3000 then
    if vectorsOf fn ≤ o / 16 then 0
    else if o % 16 = 12 then bit (!f.msixUnmasked.contains (o / 16)) 0 else tabGetD f.msixTable (o / 4) 0
  else if off < 0x4000 then word32 fun j => f.msixPending.contains (8 * o + j)
  else 0

/-! ### Ports, switch and time (chapters 4 to 6) -/

/-- MAC registers of port `n`, at offset `o` in its block. -/
def Run.mac32 (r : Run) (n o : Nat) : Nat :=
  let p := (r.settlePort n).port n
  let s : Shaper := tabGetD p.shapers ((o - 0x40) / 0x10) {}
  if 64 ≤ n then 0
  else if o = 0x00 then bit p.enable 31 + p.maxFrame * 2 ^ 16 + (if 60 ≤ n then p.fec * 2 ^ 10 else 0) + p.mode * 2 ^ 4 + bit p.tsEn 3 +
    bit p.loopback 2
  else if o = 0x04 then bit p.holding 7 + bit p.speedUnsup 6 + p.speed * 2 ^ 3 + bit p.fecLock 2 + bit p.pcsSync 1 + bit p.link 0
  else if o = 0x08 then p.cur * 2 ^ 16 + p.base
  else if o = 0x0C then p.hold
  else if o = 0x10 then ((List.range 4).map fun q => p.ageQ.getD q 0 * 2 ^ (8 * q)).sum
  else if o < 0x40 ∨ 0xC0 ≤ o then 0
  else match o % 0x10 with
    | 0x00 => bitsOfInt 24 s.creditBits * 2 ^ 8 + bit s.en 0
    | 0x04 => s.slope | 0x08 => s.hi | 0x0C => bitsOfInt 32 s.lo | _ => 0

/-- MAC window: the ports, then the snapshot. -/
def Run.macWindow32 (r : Run) (o : Nat) : Nat :=
  if o = 0x10000 then bit r.sw.snapAt.isSome 1
  else if o = 0x10010 then nsOf r.sw.snapT
  else r.mac32 (o / 0x400) (o % 0x400)

/-- SWC registers. -/
def Run.swc32 (r : Run) (o : Nat) : Nat :=
  let w := r.sw
  if o < 0x1100 then
    if o % 0x40 = 0 ∧ o / 0x40 < 64 then (w.port (o / 0x40)).word
    else if o % 0x40 = 4 then tabGetD w.pcpMap (o / 0x40) 0xFAC688 else 0
  else if o = 0x4000 then ((List.range 8).map fun t => bitsOfInt 4 (w.alpha.getD t 0) * 2 ^ (4 * t)).sum
  else if o = 0x4004 then w.headroom
  else if o = 0x4008 then w.free
  else if 0x4100 ≤ o ∧ o < 0x4180 then
    let j := (o - 0x4100) / 4
    w.mode j * 2 ^ 28 + (w.nodes.filter fun x => x.pair == j).length
  else 0

/-- TSU registers but TSU_NOW_NS and TSU_TXQ_POP, whose reads do more. -/
def Run.tsu32 (r : Run) (o : Nat) : Nat :=
  let t := r.tsu
  let g := t.regs
  if o = 0x00 then bit g.tcEn 10 + g.outGate * 2 ^ 8 + bit g.gmEn 7 + bit g.servoEn 6 + g.role * 2 ^ 4 + g.profile * 2 ^ 2 + g.src
  else if o = 0x04 then
    (match t.lossAt with | some a => sat16 ((r.now - a) / 1000000000) | none => 0) * 2 ^ 16 + bit t.stepped 9 + bit t.lockedOnce 8 +
      t.tq * 2 ^ 4 + t.phase.code
  else if o = 0x28 then g.ki * 2 ^ 16 + g.kp
  else if o = 0x2C then g.lockCount * 2 ^ 24 + g.slewMax * 2 ^ 16 + g.lockThresh
  else if o = 0x34 then bit g.inPol 31 + g.outWidth * 2 ^ 21 + g.inDelay
  else if o = 0x38 then bit g.irigLocal 5 + bit g.irigCfExt 4 + bit g.irigAuto 3 + g.irigFormat
  else if o = 0x3C then bit g.leapDir 18 + bit g.leapPending 17 + bit g.fromPtp 16 + bitsOfInt 16 g.utcOffset
  else if 0x100 ≤ o ∧ o < 0x200 then
    let n := (o - 0x100) / 4
    bitsOfInt 16 (tabGetD g.txLat n 0) * 2 ^ 16 + bitsOfInt 16 (tabGetD g.rxLat n 0)
  else if 0x1000 ≤ o ∧ o < 0x1200 ∧ o % 0x20 = 4 then
    let q : TxQueue := tabGetD t.txq ((o - 0x1000) / 0x20) {}
    nsOf q.latched
  else 0

/-! ### Engines (chapters 7 to 13) -/

/-- SLC_UNITS. -/
def Sluice.unitsWord (x : Sluice) : Nat :=
  let up (cls shift : Nat) : Nat := ((x.inService cls).map fun u => 2 ^ (shift + u)).sum
  up 4 29 + up 3 25 + up 2 24 + up 1 16 + up 0 0

/-- SLC registers. -/
def Sluice.reg32 (x : Sluice) (o : Nat) : Nat :=
  match o with
  | 0 => x.unitsWord | 4 => x.peakLast * 2 ^ 16 + x.inFlight | 8 => x.dispatchLast | _ => 0

/-- CLE_ENG[n]: the job that the engine executes, with its device task number. -/
def Run.cleEngWord (r : Run) (n : Nat) : Nat :=
  match r.slc.flights.find? fun f => f.phase == .executing && f.cls == 3 && f.unit == n with
  | some f =>
    let op := match (r.slcOf f.inst).g.nodes[f.node]? with | some g => g.op | none => 0
    2 ^ 31 + (match r.task f.inst op with | some t => t.dev % 256 | none => 0)
  | none => 0

/-- CLE_MEM. -/
def Cle.memWord (x : Cle) : Nat :=
  x.units.1 * 2 ^ 16 + x.units.2

/-- MLR_CAP[c]. -/
def Capture.word (x : Capture) : Nat := bit x.busy 31 + bit x.done 30 + x.loop * 2 ^ 16 + x.points.length

/-! ### Trip paths, recording, Strongroom, field bus, faults (chapters 14 to 20) -/

/-- SIO_SO[n]. -/
def Run.soWord (r : Run) (n : Nat) : Nat :=
  let z := r.so n
  bit z.fault 31 + bit (r.latch n).set 30 + bit z.paired 29 + bit z.safe 28 + z.cause * 2 ^ 16 + bit z.owner.isSome 2 + bit z.sofb 1 +
    bit z.drive 0

/-- PUB_TRIB. -/
def Run.tribWord (r : Run) : Nat :=
  let t := r.settleTrib.trip.trib
  t.state * 2 ^ 30 + (match t.cfg with | some c => c.twinId | none => 0) * 2 ^ 28 +
    (match t.rxTick with | some k => sat16 (r.pTickNow - k) | none => 0)

/-- CEL_STATUS. -/
def Cellar.statusWord (c : Cellar) : Nat :=
  c.logEpoch % 65536 * 2 ^ 16 + bit c.flushing 15 + bit c.clearing.isSome 14 + c.stage.length

/-- SRM_STATUS. -/
def Strong.statusWord (s : Strong) : Nat :=
  s.lc.code * 2 ^ 29 + bit s.debug 28 + bit s.trngFail 27 + bit (!s.replaces.isEmpty) 26 + bit s.bankB 25 + s.slots.length

/-- FBC registers of a channel. -/
def CanChan.reg32 (c : CanChan) (ticks o : Nat) : Nat :=
  match o with
  | 0x00 => bit c.enable 31 + bit c.init 30 + bit c.schedEn 7 + bit c.autoRecov 6 + bit c.listen 5 + bit c.loopback 4 + bit c.tdcEn 3 +
      bit c.brsEn 2 + bit c.fdEn 1
  | 0x04 => c.nbt.toNat | 0x08 => c.dbt.toNat | 0x0C => c.tdco * 2 ^ 16 + c.tdcv
  | 0x10 => c.errWord ticks
  | _ => 0

/-- FLT_STATUS. -/
def Faults.statusWord (x : Faults) : Nat :=
  bit x.healthy 31 + x.cause * 2 ^ 16 + ((x.slots.filter fun e => e.2.busy).map fun e => 2 ^ (e.1 - 1)).sum

/-- HKP registers. -/
def hkp32 (sys : Sys) (r : Run) (o : Nat) : Nat :=
  match o with
  | 0x00 => sys.bootWord
  | 0x04 => bit (!sys.vaonA && !sys.vaonB) 3 + bit (!sys.pwrfailN) 2 + bit sys.vaonB 1 + bit sys.vaonA 0
  | 0x08 => bit sys.tripped 31 + bitsOfInt 8 (sys.maxTj.tdiv 16) * 2 ^ 16 + bitsOfInt 16 sys.tj
  | 0x0C => r.trip.ballMux
  | _ => 0

/-! ### Reads -/

/-- A 32-bit register of the device window (Table 2.3). -/
def device32 (sys : Sys) (r : Run) (off : Nat) : Nat :=
  let o := (off - 0x100000) % 0x20000
  match (off - 0x100000) / 0x20000 + 1 with
  | 0x01 => hkp32 sys r o
  | 0x03 => r.swc32 o
  | 0x04 => r.macWindow32 o
  | 0x05 => r.tsu32 o
  | 0x06 => if o = 0 then sat16 r.ing.parsedLast * 2 ^ 16 + sat16 r.ing.verifiedLast else 0
  | 0x07 => match o with
    | 0x00 => bit r.cfl.pol 1 + bit r.cfl.pinEn 0 | 0x10 => sat16 r.cfl.maxNs * 2 ^ 16 + sat16 r.cfl.lastNs | _ => 0
  | 0x08 => r.slc.reg32 o
  | 0x09 => if o < 0x10 then r.cleEngWord (o / 4) else if o = 0x10 then r.cle.memWord else 0
  | 0x0A => if 0x2000 ≤ o ∧ o < 0x2010 then (r.mlr.caps.getD ((o - 0x2000) / 4) {}).word else 0
  | 0x0B => if o = 0 then r.tribWord else 0
  | 0x0C => if o < 0x80 then r.soWord (o / 4) else if o = 0x80 then r.trip.offPulse else 0
  | 0x0D => if o = 0 then sat16 (r.drTotal / 1000000).floor.toNat * 2 ^ 16 + r.dr.bw else 0
  | 0x0E => match o with | 0x00 => r.cel.statusWord | 0x04 => r.cel.minSeverity | _ => 0
  | 0x0F => if o = 0 then bit r.lgr.copyAOk 31 + bit r.lgr.copyBOk 30 + min r.lgr.pending.length 4095 else 0
  | 0x10 => if o = 0 then r.srm.statusWord else 0
  | 0x11 => if o < 0x400 then (r.can (o / 0x100)).reg32 r.ticks (o % 0x100) else 0
  | 0x12 => match o with | 0x00 => r.flt.statusWord | 0x04 => bit r.flt.halt 1 + bit r.flt.soFall 0 | _ => 0
  | _ => 0

/-- The current value of the 32 bits at offset `off` of BAR0 of a function, where a read does no more than return it (R7, R47). -/
def reg32 (sys : Sys) (r : Run) (fn off : Nat) : Nat :=
  match r.reg64 fn (off / 8 * 8) with
  | some v => if off % 8 < 4 then v % 2 ^ 32 else v / 2 ^ 32 % 2 ^ 32
  | none =>
    if off < 0x1000 then r.page32 fn off
    else if off < 0x4000 then r.irq32 fn off
    else if fn = 0 ∧ 0x100000 ≤ off ∧ off < 0x340000 then device32 sys r off % 2 ^ 32
    else 0

/-- A read of TSU_NOW_NS latches the seconds of the same tick for the function (R201). -/
def Run.readNowNs (r : Run) (fn : Nat) : Run × Nat :=
  (r.modTsu fun t => { t with secLatch := tabSet t.secLatch fn (secOf r.now % 2 ^ 48) }, nsOf r.now)

/-- TSU_TXQ_POP[i] as it reads with an entry at the head. -/
def TxStamp.popWord (e : TxStamp) : Nat :=
  2 ^ 31 + e.kind % 4 * 2 ^ 26 + e.tq % 16 * 2 ^ 22 + e.port % 64 * 2 ^ 16 + e.id % 65536

/-- A read of TSU_TXQ_POP[i] takes the head entry and latches its time; an empty queue reads VALID = 0 (R226). -/
def Run.readTxqPop (r : Run) (i : Nat) : Run × Nat :=
  let q : TxQueue := tabGetD r.tsu.txq i {}
  match q.entries with
  | [] => (r, 0)
  | e :: rest => (r.modTsu fun t => { t with txq := tabSet t.txq i { q with entries := rest, latched := e.time } }, e.popWord)

/-- A read of the low word of a 64-bit register latches its high word for the function (R11); one of TSU_NOW_SEC also uses up the
seconds that a read of TSU_NOW_NS has latched (R201). -/
def Run.readLow (r : Run) (fn off v : Nat) : Run :=
  let r := r.modFn fn fun f => { f with latch := tabSet f.latch off (v / 2 ^ 32 % 2 ^ 32) }
  if off = 0x180010 then r.modTsu fun t => { t with secLatch := tabDel t.secLatch fn } else r

/-- A read of BAR0 by the host: what it returns and what it does (R7, R11, R201, R226). The next read of a high word after one of its low
word returns the latched value; otherwise it returns the live one. -/
def readBar (sys : Sys) (r : Run) (fn off : Nat) : Run × Nat :=
  if fn = 0 ∧ off = 0x180008 then r.readNowNs fn
  else if fn = 0 ∧ 0x181000 ≤ off ∧ off < 0x181200 ∧ off % 0x20 = 0 then r.readTxqPop ((off - 0x181000) / 0x20)
  else match r.reg64 fn off with
    | some v => (r.readLow fn off v, v % 2 ^ 32)
    | none =>
      match if off % 8 = 4 then tabGet (r.fn fn).latch (off - 4) else none with
      | some v => (r.modFn fn fun f => { f with latch := tabDel f.latch (off - 4) }, v)
      | none => (r, reg32 sys r fn off)

end Sys2Proof.Machine
end

