-- ==== Sys2Proof/Machine/Pages.lean ====
section
/-! DEFINITION. Chapter 2: registers, parameters, the device configuration, the virtual NIC, and resets of the host interface. -/

namespace Sys2Proof.Machine

/-! ### Registers -/

/-- VNIC_ENABLE_RISE (R50): rings 2 and 3 start at slot 0. -/
def execVnicEnableRise (fn : Nat) (s : State) : Host.Outcome State Fault Refusal :=
  whenHost fn s fun _ r => (r.hostAccess fn).modFn fn fun f =>
    if f.vnicEn then f else { f with vnicEn := true, ring2 := f.ring2.enabled, ring3 := f.ring3.enabled }

/-- VNIC_ENABLE_FALL (R92): the frames that wait for the function are dropped. -/
def execVnicEnableFall (fn : Nat) (s : State) : Host.Outcome State Fault Refusal :=
  whenUp s fun _ r =>
    (r.modFn fn fun f => { f with vnicEn := false, ring2 := f.ring2.disabled, ring3 := f.ring3.disabled }).dropHost fn

/-- One bit of MBX_IMASK (R62): a fall of the mask bit while the cause bit is 1 sends a message. -/
def Run.maskBit (r : Run) (fn source : Nat) (masked : Bool) : Run :=
  if masked then { r with unmasked := setDel r.unmasked source }
  else if r.unmasked.contains source then r
  else
    let r := { r with unmasked := setIns r.unmasked source }
    if r.cause.contains source then r.msix fn ((r.fn fn).vector fn source) else r

/-- IMASK_WRITE (R62): bits of sources not routed to the function are ignored. -/
def execImaskWrite (fn index : Nat) (value : Word) (s : State) : Host.Outcome State Fault Refusal :=
  whenHost fn s fun _ r =>
    let r := r.hostAccess fn
    if 33 ≤ fn ∨ 32 ≤ index then r
    else
      let mine := r.routedTo r.ownSources fn
      (List.range 32).foldl (fun (r : Run) j =>
        if mine (32 * index + j) then r.maskBit fn (32 * index + j) (value.getLsbD j) else r) r

/-- REGISTER_WRITE (R7, R8, R47, R80): a register is written whole. HKP_TEMP.TRIPPED is cleared by a 1.
DESIGN CHOICE, assumption 48: unsafe. DEDUCED, assumption 52: unsafe. -/
def execRegisterWrite (fn offset value : Nat) (s : State) : Host.Outcome State Fault Refusal :=
  if s.sys.phase = .reset ∨ s.run.flt.lasting.contains 28 ∨ (s.sys.phase = .recovery ∧ fn ≠ 0) then .next s
  else if fn = 0 ∧ offset = 0x100008 then .next { s with sys := { s.sys with tripped := s.sys.tripped && !value.testBit 31 } }
  else .next { s with run := s.run.writeReg s.sys.locked fn offset value }

/-- REG64_LOW_READ (R7, R9, R11): a read of BAR0 by the host; of the low word of a 64-bit register it latches the high word for the
function. The table has no row for the read of a high word or of a 32-bit register: this one carries them too.
DESIGN CHOICE, assumption 94: unsafe. -/
def execReg64LowRead (fn offset : Nat) (s : State) : Host.Outcome State Fault Refusal :=
  whenHost fn s fun sys r =>
    let (r, v) := readBar sys (r.hostAccess fn) fn offset
    r.emit (.readData fn offset v)

/-! ### Parameters (R77, R78, R82, R685, R686) -/

/-- One record of PARAM_GET: ID, TYPE, STATUS and VALUE. An open value is a free one.
DESIGN CHOICE, assumption 53: unsafe. -/
def getRecord (sys : Sys) (r : Run) (fn id : Nat) : Run × Status × List Int :=
  let fail (st : Status) (ty : Nat) : Run × Status × List Int := (r, st, [(id : Int), ty, st.code, 0])
  match paramOf sys r id with
  | none => fail .noParam 0
  | some p =>
    if !p.readable fn then fail .denied p.ty
    else match p.value with
      | some v => (r, .ok, [(id : Int), p.ty, 0, putValue p.ty v])
      | none => let (v, r) := r.takeFree 64; (r, .ok, [(id : Int), p.ty, 0, v.toNat])

/-- The status of the first failing record. -/
def firstBad (l : List Status) : Status := (l.find? fun s => s != .ok).getD .ok

/-- PARAM_GET (R685): with N = 1 the record is inline, otherwise all stand in the buffer. -/
def execParamGet (c : Cmd) (ids : List Nat) (s : State) : Host.Outcome State Fault Refusal :=
  runCommand { op := 0x0105, pf0 := false } c s fun _ sys r =>
    if ids = [] ∨ 256 < ids.length then (sys, r, .status .range)
    else
      let (r, l) := ids.foldl (fun (acc : Run × List (Status × List Int)) id =>
        let (r, x) := getRecord sys acc.1 c.fn id
        (r, acc.2 ++ [x])) (r, [])
      let fields := l.flatMap (·.2)
      let status := firstBad (l.map (·.1))
      if ids.length = 1 then (sys, r, .done { status := status, result := fields })
      else (sys, r, .done { status := status, buffer := fields, bufLen := 16 * ids.length })

/-- PARAM_SET (R78, R79, R80, R83): all records or none; the statuses are written back to the buffer, and that of a record that
stands in ARGS (N = 1) nowhere but in the completion.
DESIGN CHOICE, assumption 94: unsafe. -/
def execParamSet (c : Cmd) (records : List ParamRec) (s : State) : Host.Outcome State Fault Refusal :=
  runCommand { op := 0x0106, pf0 := false } c s fun _ sys r =>
    if records = [] ∨ 256 < records.length then (sys, r, .status .range)
    else
      let judged := records.map fun x => (x.ident, judgeSet sys r c.fn x)
      let status := firstBad (judged.map fun e => e.2.1)
      let back : List Int := judged.map fun e => (e.2.1.code : Int)
      let size := if records.length = 1 then 0 else 16 * records.length
      let written : Reply := { status := status, buffer := if records.length = 1 then [] else back, bufLen := size }
      if status ≠ .ok then
        let r := match judged.find? fun e => e.2.1 == .locked with | some e => r.lockedWrite c.fn e.1 | none => r
        let clash := match judged.find? fun e => e.2.1 != .ok with | some e => e.2.2.2 | none => []
        (sys, r, .done { written with result := clash })
      else
        let (sys, r) := judged.foldl (fun (acc : Sys × Run) e => applySet acc.1 acc.2 e.1 e.2.2.1) (sys, r)
        (sys, r, .done written)

/-- PARAM_DESCRIBE (R686): TYPE, class, unit, minimum, maximum, step; the default stands in the buffer. What the chapter does
not give is a free value.
DESIGN CHOICE, assumption 53: unsafe. -/
def execParamDescribe (c : Cmd) (id : Nat) (s : State) : Host.Outcome State Fault Refusal :=
  runCommand { op := 0x0107, pf0 := false } c s fun _ sys r =>
    match paramOf sys r id with
    | none => (sys, r, .status .noParam)
    | some p =>
      if !p.readable c.fn then (sys, r, .status .denied)
      else
        let (a, r) := r.takeFree 64
        let (b, r) := r.takeFree 64
        let (d, r) := r.takeFree 64
        let (e, r) := r.takeFree 64
        let (lo, hi, step) : Int × Int × Int := p.range.getD (a.toNat, b.toNat, d.toNat)
        (sys, r, .done { result := [(p.ty : Int), (Config.paramClassCode p.cls).toNat, p.unit, lo, hi, step],
                         buffer := [p.dflt.getD e.toNat], bufLen := 8 })

/-! ### The device configuration (R80, R81) -/

/-- EV_DEV_CONFIG (Table 2.7). -/
def Run.configEvent (r : Run) (cause : Int) : Run := r.raise { ev := Ev.devConfig, source := 901, data := [cause] }

/-- DEV_COMMIT (R80): the STAGED items take effect, the configuration is stored, the RWL items lock. -/
def execDevCommit (c : Cmd) (s : State) : Host.Outcome State Fault Refusal :=
  runCommand { op := 0x010B, pf0 := true } c s fun _ sys r =>
    if stagedBad sys r then (sys, r, .status .range)
    else
      let (sys, r) := applyStaged sys r
      let config := captureConfig sys r
      let sys := { sys with locked := true }
      let fns : List FnState := r.fns.map fun f => { f with lockedRaised := false }
      let r := ({ r with fns := fns, store := r.store.commit (some config) } : Run).configStore
      (sys, r.configEvent 2, .ok)

/-- DEV_UNLOCK (R81). -/
def execDevUnlock (c : Cmd) (s : State) : Host.Outcome State Fault Refusal :=
  runCommand { op := 0x010C, pf0 := true } c s fun _ sys r =>
    let sys := { sys with locked := false }
    (sys, r.configEvent 1, .ok)

/-! ### The virtual NIC (R87 to R94) -/

/-- The bytes each descriptor takes of `len` bytes, and what is left over. -/
def fillDescs : Nat → List RxDesc → List (RxDesc × Nat) × Nat
  | len, [] => ([], len)
  | 0, _ => ([], 0)
  | len, d :: t =>
    let (l, left) := fillDescs (len - min d.len len) t
    ((d, min d.len len) :: l, left)

/-- A descriptor of ring `i` is returned: its slot and phase, the write-back, and the next count. -/
def Run.returnDesc (r : Run) (fn i : Nat) (o : Nat → Bool → Out) : Run :=
  let g := (r.fn fn).ring i
  ((r.emit (o g.slot g.phase)).dma fn (g.base + 32 * g.slot) 32).modFn fn fun f => f.setRing i { g with dev := g.dev + 1 }

/-- The head frame of a function's queue is written to descriptors (R88 to R90): whole, or dropped with TRUNCATED_DROP.
DEDUCED, assumption 54: unsafe. -/
def Run.vnicReceive (r : Run) (fn : Nat) (x : Queued) (h : Held) (descs : List RxDesc) : Run :=
  let (free, r) := if x.tagged then r.takeFree 1 else (0, r)
  let strip := free != 0
  let len := egressLen h.frame x - 4 - (if strip then 4 else 0)
  let (used, left) := fillDescs len descs
  let whole := decide (left = 0)
  let out := egressFrame h x
  let vlan : Option Nat := if strip then some (out.pcp * 8192 + (if out.dei then 4096 else 0) + h.vid) else none
  let stamped := h.inPort < 64 ∧ (r.port h.inPort).tsEn ∧ [0x88F7, 0x88BA, 0x88B8].contains h.frame.etype
  let time : Option Instant := if stamped then some h.arrival else none
  let (r, _) := used.foldl (fun (acc : Run × Nat) (e : RxDesc × Nat) =>
    ((acc.1.emit (.frameData fn e.1.addr e.2 out acc.2)).dma fn e.1.addr e.2, acc.2 + e.2)) (r, 0)
  let r := (List.range used.length).foldl (fun (r : Run) i =>
    match used[i]? with
    | some (_, n) => r.returnDesc fn 2 fun slot phase =>
        .rxDesc fn slot n (i == 0) (whole && i + 1 == used.length) (!whole) vlan time h.inPort phase
    | none => r) r
  let r := r.modSw fun w => { w with hostQ := tabPut w.hostQ fn ((tabGetD w.hostQ fn []).drop 1) [] }
  let r := (r.uncharge fn h.cells).release x.fid
  let r := r.modFn fn fun f =>
    if whole then { f with vnicRx := (f.vnicRx + 1) % 2 ^ 64 } else { f with vnicTrunc := (f.vnicTrunc + 1) % 2 ^ 64 }
  r.raiseSource fn (vnicSource fn)

/-- VNIC_RX_FRAME (R87 to R90): `octets` are those of the descriptors available, in ring order, as the host filled them. -/
def execVnicRxFrame (fn : Nat) (octets : List (List Nat)) (s : State) : Host.Outcome State Fault Refusal :=
  let descs := octets.map rxDescOf
  whenUp s fun _ r =>
    let f := r.fn fn
    if 33 ≤ fn || !f.vnicEn || f.frozen || f.ring2.err || descs.isEmpty || decide (f.ring2.waiting < descs.length) then r
    else match tabGetD r.sw.hostQ fn [] with
      | [] => r
      | x :: _ =>
        match r.held x.fid with
        | some h =>
          -- a row that names fewer descriptors than are available holds only a frame that they take whole
          if h.complete && (descs.length == f.ring2.waiting || decide (egressLen h.frame x ≤ (descs.map (·.len)).sum)) then
            r.vnicReceive fn x h descs
          else r
        | none => r

/-- A PTP event message of PF0 (R225): KIND 0 and its sequenceId. -/
def ptpEvent (fn : Nat) (f : Frame) : Option (Nat × Nat) :=
  match f.payload with
  | .ptp msg _ seq _ => if fn = 0 ∧ f.etype = 0x88F7 ∧ msg < 4 then some (0, seq % 65536) else none
  | _ => none

/-- A frame of a function enters IPORT_HOST (R94, R107, R109): padded to 60 bytes and with its FCS; false where the instance
is at its Cistern quota.
DEDUCED, assumption 54: unsafe. -/
def Run.vnicSend (r : Run) (fn : Nat) (frame : Frame) : Run × Bool :=
  let f := { frame with len := max 60 frame.len + 4, stamp := r.now }
  let c := cellsOf f.len
  if fn ≠ 0 ∧ (r.inst (fn - 1)).cellQuota < (r.inst (fn - 1)).cells + c then
    ((r.swCount 66 3).modInst (fn - 1) (fun i => { i with refusedCells := (i.refusedCells + 1) % 2 ^ 64 }), false)
  else
    let r := if fn = 0 then r else r.modInst (fn - 1) fun i => { i with cells := i.cells + c }
    (r.handIn 66 { frame := f, fromFn := some fn, stampId := ptpEvent fn f }, true)

/-- VNIC_TX_FRAME (R93, R94): `octets` are those of the next descriptors of the ring, as the host filled them; the frame is in those up to
the first EOF, and its length, without FCS, is what their LENs make. `frame` is what the buffers they name hold.
DEDUCED, assumption 54: unsafe. -/
def execVnicTxFrame (fn : Nat) (octets : List (List Nat)) (frame : Frame) (dmaErr : Bool) (s : State) :
    Host.Outcome State Fault Refusal :=
  whenUp s fun _ r =>
    let f := r.fn fn
    let l := (frameDescs (octets.map txDescOf)).getD []
    let descs := l.length
    let frame := { frame with len := (l.map (·.len)).sum }
    if 33 ≤ fn || !f.vnicEn || f.frozen || f.ring3.err || l.isEmpty || decide (f.ring3.waiting < descs) then r
    else
      let bad := dmaErr || decide (1996 < frame.len)
      let (r, taken) := if bad then (r, false) else r.vnicSend fn frame
      let (open', r) := if bad || taken then (0, r) else r.takeFree 16
      let status := if dmaErr then 2 else if bad then 1 else open'.toNat
      let r := r.modFn fn fun f =>
        if bad then { f with vnicTxErr := (f.vnicTxErr + 1) % 2 ^ 64 }
        else if taken then { f with vnicTx := (f.vnicTx + 1) % 2 ^ 64 } else f
      let r := (List.range descs).foldl (fun (r : Run) _ => r.returnDesc fn 3 fun slot phase => .txDesc fn slot status phase) r
      r.raiseSource fn (vnicSource fn)

/-! ### Resets of the host interface (R44 to R46, R669) -/

/-- FUNCTION_LEVEL_RESET (R44 to R46).
DEDUCED, assumption 64: unsafe. -/
def execFunctionLevelReset (fn : Nat) (s : State) : Host.Outcome State Fault Refusal :=
  whenUp s fun _ r => if 33 ≤ fn then r else r.flr r.ownSources fn

/-- PCIE_LINK_LOSS (R44): an FLR of every function.
DEDUCED, assumption 64: unsafe. -/
def execPcieLinkLoss (s : State) : Host.Outcome State Fault Refusal := whenUp s fun _ r => r.flrAll r.ownSources

/-- D3HOT_ENTRY (R44). -/
def execD3hotEntry (fn : Nat) (s : State) : Host.Outcome State Fault Refusal :=
  whenUp s fun _ r => if 33 ≤ fn then r else r.hostReset r.ownSources fn

/-- PERST_N_FALL (R669): as a loss of link. -/
def execPerstNFall (s : State) : Host.Outcome State Fault Refusal := whenUp s fun _ r => r.flrAll r.ownSources

end Sys2Proof.Machine
end

