-- ==== Sys2Proof/Machine/Sio.lean ====
section
/-! DEFINITION. The steps of safety I/O: readback, off-pulses, inputs, latches, and the safety configuration (R498 to R510). -/

namespace Sys2Proof.Machine

/-! ### Outputs (R499, R500) -/

/-- The readback of an output contradicts it with a cause: static, off edge, or on edge. -/
def So.contradicts (z : So) (level : Bool) (cause : Nat) : Bool :=
  match cause with
  | 1 => z.pulse.isNone && level != z.drive
  | 2 => z.pulse.isSome && level
  | 3 => z.pulse.isNone && z.drive && !level
  | _ => false

/-- SOFB_MISMATCH (R499): SOFB_n has been at `level` against its output for more than 40 µs, or past a limit of Table 14.6.
DESIGN CHOICE, assumption 70: unsafe. -/
def execSofbMismatch (n : Nat) (level : Bool) (cause dt : Nat) (s : State) : Host.Outcome State Fault Refusal :=
  whenUp s fun _ r =>
    let r := r.pass dt
    let z := r.so n
    if z.enabled && z.contradicts level cause then (r.modSo n fun z => { z with sofb := level }).soFault n cause else r

/-- OFF_PULSE_START (R500, Table 14.6): TAI second + n × 31.25 ms. -/
def execOffPulseStart (n dt : Nat) (s : State) : Host.Outcome State Fault Refusal :=
  whenUp s fun _ r =>
    let r := r.pass dt
    let z := r.so n
    if z.enabled && z.drive && z.pulse.isNone && r.passed 1000000000 (n * 31250000) then
      let now := r.ticks
      (r.modSo n fun z => { z with pulse := some now }.follow true).emit (.ball (.so n) .low)
    else r

/-- OFF_PULSE_END (R500): OFFPULSE later the output is driven on again; the test is counted.
DESIGN CHOICE, assumption 70: unsafe. -/
def execOffPulseEnd (n dt : Nat) (s : State) : Host.Outcome State Fault Refusal :=
  whenUp s fun _ r =>
    let r := r.pass dt
    match (r.so n).pulse with
    | some t =>
      if t + usTicks r.trip.offPulse ≤ r.ticks then
        let r := r.modSo n fun z => { z with pulse := none, stat := tabInc z.stat 1 }.follow false
        if (r.so n).enabled then r.emit (.ball (.so n) .high) else r
      else r
    | none => r

/-! ### Inputs and latches (R501 to R503) -/

/-- Input `n` of the device. -/
def Run.bi (r : Run) (n : Nat) : Bi := r.trip.bis.getD n {}

/-- The instant of a local time that is not past the present one. -/
def Run.instantAt (r : Run) (ticks : Nat) : Instant := (r.tsu.counter - (r.ticks - ticks) * r.tsu.inc) / 2 ^ 32

/-- BI_CHANGE (R501): the level that began at the raw edge `edge`, in ticks of local time, has been stable for DEBOUNCE. -/
def execBiChange (n : Nat) (level : Bool) (edge dt : Nat) (s : State) : Host.Outcome State Fault Refusal :=
  whenUp s fun _ r =>
    let r := r.pass dt
    let z := r.bi n
    if 32 ≤ n ∨ z.level = level ∨ r.ticks < edge + z.debounce * 25000 then r
    else
      let now := r.ticks
      let at' := r.instantAt edge
      let r := r.modTrip fun t => { t with bis := modAt t.bis n fun z => { z with
        level := level, since := now, changes := (z.changes + 1) % 2 ^ 64, log := ((r.now, level) :: z.log).take 64 } }
      let r := r.resetInput n level z.since
      r.drTriggerAll (fun _ x => (if level then x.record.biRise else x.record.biFall).contains n)
        { instant := at', cause := 2, index := n }

/-- LATCH_RESET (R502, R503): the 20 ms high is complete.
DESIGN CHOICE, assumption 70: unsafe. -/
def execLatchReset (l dt : Nat) (s : State) : Host.Outcome State Fault Refusal :=
  whenUp s fun _ r =>
    let r := r.pass dt
    let z := r.latch l
    match z.highSince with
    | none => r
    | some t =>
      if !z.set ∨ r.ticks < t + msTicks 20 then r
      else if r.trcHolds l then
        r.latchRefuse l
      else (r.modLatch l fun z => { z with set := false, changes := (z.changes + 1) % 65536, highSince := none }).latchEvent l 2

/-! ### Sessions (R506, R507) -/

/-- SIO_SESSION_EXPIRY (R506). -/
def execSioSessionExpiry (fn dt : Nat) (s : State) : Host.Outcome State Fault Refusal :=
  whenUp s fun _ r =>
    let r := r.pass dt
    match tabGet r.trip.sessions fn with
    | some t => if t + msTicks 600000 ≤ r.ticks then r.modTrip fun x => { x with sessions := tabDel x.sessions fn } else r
    | none => r

/-- The UNLOCK record of an attempt (Table 16.2). -/
def Run.unlockRecord (r : Run) (c : Cmd) (outcome : Nat) : Run :=
  r.stage { type := 0x0021, time := r.now, data := [outcome, min r.trip.fails 255, c.fn, c.cseq.toNat] }

/-- The octets of a password are 8 to 64 (R506). -/
def passwordOk (p : List Nat) : Bool := decide (8 ≤ p.length) && decide (p.length ≤ 64)

/-- EV_SIO_CONFIG of an unlock attempt or a password change, which names no item and no index (assumption 70, DESIGN CHOICE). -/
def Run.sioConfigNote (r : Run) (fn : Nat) : Run :=
  let (item, r) := r.takeFree 8
  let (index, r) := r.takeFree 8
  r.raise { ev := .sioConfig, source := 708, data := [item.toNat, index.toNat, fn] }

/-- SIO_UNLOCK (R506, R507): in a lockout nothing else is looked at, a password of a length that none has is a wrong one, and every
attempt is raised and recorded (R508, R539).
DESIGN CHOICE, assumption 70: unsafe. -/
def execSioUnlock (c : Cmd) (password : List Nat) (s : State) : Host.Outcome State Fault Refusal :=
  runCmd { op := 0x0A06, pf0 := false, buf := true, need := some password.length } c s fun _ r =>
    let refused : Bool := match r.trip.lockout with | some t => decide (r.ticks < t) | none => false
    if refused then ((r.sioConfigNote c.fn).unlockRecord c 2, .status .sioLockout)
    else match r.verifier with
      | none => ((r.sioConfigNote c.fn).unlockRecord c 1, .status .sioNopass)
      | some (salt, hash) =>
        if passwordOk password && verifierOf password salt == hash then
          let now := r.ticks
          let r := r.modTrip fun t => { t with fails := 0, lockout := none, sessions := tabSet t.sessions c.fn now }
          ((r.sioConfigNote c.fn).unlockRecord c 0, .ok)
        else
          let fails := r.trip.fails + 1
          let wait := lockoutOf fails
          let now := r.ticks
          let r := r.modTrip fun t => { t with
            fails := fails, lockout := if wait = 0 then none else some (now + msTicks (wait * 1000)) }
          (((r.sioConfigNote c.fn).raise { ev := .sioAuthFail, source := 709, data := [fails, wait] }).unlockRecord c 1, .status .auth)

/-- SIO_LOCK (R506). -/
def execSioLock (c : Cmd) (s : State) : Host.Outcome State Fault Refusal :=
  runCmd { op := 0x0A07, pf0 := false } c s fun _ r =>
    (r.modTrip fun t => { t with sessions := tabDel t.sessions c.fn }, .ok)

/-- SIO_PASSWORD_SET (R507): the first one takes an empty old password.
DESIGN CHOICE, assumption 70: unsafe. -/
def execSioPasswordSet (c : Cmd) (old new : List Nat) (s : State) : Host.Outcome State Fault Refusal :=
  runCmd { op := 0x0A08, pf0 := true, buf := true, need := some (2 + old.length + new.length) } c s fun _ r =>
    let right : Bool := match r.verifier with | none => old.isEmpty | some (salt, hash) => verifierOf old salt == hash
    let note (r : Run) (outcome : Nat) : Run :=
      r.stage { type := 0x0022, time := r.now, data := [outcome, c.fn, c.cseq.toNat] }
    if !passwordOk new then (note r 1, .status .range)
    else if !right then (note r 1, .status .auth)
    else if r.srm.trngFail then (note r 1, .status .srmTrng)
    else
      let (salt, r) := r.takeFree 128
      let r := r.setVerifier salt.toNat (verifierOf new salt.toNat)
      (note (r.sioConfigNote c.fn) 0, .ok)

/-! ### The safety configuration (R505, R508) -/

/-- The present value of a safety item. -/
def Run.sioItem (r : Run) (item index : Nat) : Nat :=
  match item with
  | 0 => r.trip.offPulse
  | 1 => if (r.so index).safe then 1 else 0
  | 2 => if (r.so index).paired then 1 else 0
  | 3 => (r.latch index).resetBi
  | _ => (r.bi index).debounce

/-- A value an item may take, with its index. -/
def sioRange (item index value : Nat) : Bool :=
  match item with
  | 0 => decide (50 ≤ value) && decide (value ≤ 500)
  | 1 | 2 => decide (index < 32) && decide (value ≤ 1)
  | 3 => decide (index < 32) && (decide (value < 32) || value == 0xFF)
  | 4 => decide (index < 32) && decide (value ≤ 200)
  | _ => false

/-- A function may change an item (R505): PF0 any, a VF those of outputs and inputs its instance has claimed; pairing changes both
outputs of the pair. -/
def Run.sioMay (r : Run) (fn item index : Nat) : Bool :=
  fn == 0 ||
    match item with
    | 0 => false
    | 4 => (r.inst (fn - 1)).claims.any fun x => x.res == 5 && x.index == index
    | 2 => (r.so (index / 2 * 2)).owner == some (fn - 1) && (r.so (index / 2 * 2 + 1)).owner == some (fn - 1)
    | _ => (r.so index).owner == some (fn - 1)

/-- An output that the device holds safe takes the SAFE value now declared (R103, R499, R628). -/
def Run.soResafe (r : Run) (n : Nat) : Run :=
  if r.soLive n && !(r.so n).fault && !r.halted then r else r.soSafe n

/-- The item takes its value; the pairing of both outputs of a pair, and the SAFE level, hold from then on. -/
def Run.sioSet (r : Run) (item index value : Nat) : Run :=
  let on := value != 0
  match item with
  | 0 => r.modTrip fun t => { t with offPulse := value }
  | 1 => (r.modSo index fun z => { z with safe := on }).soResafe index
  | 2 =>
    let put (z : So) : So := { z with paired := on }
    (((r.modSo (index / 2 * 2) put).modSo (index / 2 * 2 + 1) put).soResafe (index / 2 * 2)).soResafe (index / 2 * 2 + 1)
  | 3 => r.modLatch index fun z => { z with resetBi := value, highSince := none }
  | _ => r.modTrip fun t => { t with bis := modAt t.bis index fun z => { z with debounce := value } }

/-- SIO_CFG_SET (R505, R507, R508).
DESIGN CHOICE, assumption 70: unsafe. -/
def execSioCfgSet (c : Cmd) (item index value : Nat) (s : State) : Host.Outcome State Fault Refusal :=
  runCmd { op := 0x0A09, pf0 := false } c s fun _ r =>
    let energised := (r.so (index / 2 * 2)).drive || (r.so (index / 2 * 2 + 1)).drive
    if r.verifier.isNone then (r, .status .sioNopass)
    else if !r.session c.fn then (r, .status .sioLocked)
    else if !sioRange item index value then (r, .status .range)
    else if !r.sioMay c.fn item index then (r, .status .denied)
    else if item = 2 ∧ energised then (r, .status .state)
    else
      let old := r.sioItem item index
      let r := (r.sioSet item index value).raise { ev := .sioConfig, source := 708, data := [item, index, c.fn] }
      (r.stage { type := 0x0020, time := r.now, data := [item, index, old, value, c.fn, c.cseq.toNat] }, .ok)

/-- SIO_FAULT_CLEAR (R499): `sofb` is the readback of the output's channels now. -/
def execSioFaultClear (c : Cmd) (n : Nat) (sofb : List Bool) (s : State) : Host.Outcome State Fault Refusal :=
  runCmd { op := 0x0A0A, pf0 := false } c s fun _ r =>
    let ch := r.channelsOf n
    if 32 ≤ n then (r, .status .range)
    else if r.verifier.isNone then (r, .status .sioNopass)
    else if !r.session c.fn then (r, .status .sioLocked)
    else if c.fn ≠ 0 ∧ (r.so n).owner ≠ some (c.fn - 1) then (r, .status .denied)
    else if (ch.zip sofb).any fun e => (r.so e.1).level != e.2 then (r, .status .state)
    else
      (ch.foldl (fun (r : Run) i => r.modSo i fun z => { z with fault := false, cause := 0, sofb := z.level }) r, .ok)

/-- SIO_QUERY (Table 14.9): `sofb` is what the readback balls show.
DESIGN CHOICE, assumption 70: unsafe. -/
def execSioQuery (c : Cmd) (sofb : Word) (s : State) : Host.Outcome State Fault Refusal :=
  runCmd { op := 0x0A0B, pf0 := false } c s fun _ r =>
    let r := (List.range 32).foldl (fun (r : Run) i => r.modSo i fun z => { z with sofb := sofb.getLsbD i }) r
    let word (p : Nat → Bool) : Int := ((List.range 32).foldl (fun n i => if p i then n + 2 ^ i else n) 0 : Nat)
    (r, .done { result := [word fun i => (r.so i).drive, word fun i => (r.so i).sofb, word fun i => (r.so i).fault,
                           word fun i => (r.latch i).set, word fun i => (r.bi i).level] })

end Sys2Proof.Machine
end

