-- ==== Sys2Proof/Machine/StartOps.lean ====
section
/-! DEFINITION. Reset, boot and starts (R31 to R34, R105, R211, R509, R510, R529, R615, R627, R633 to R645). -/

namespace Sys2Proof.Machine

/-! ### Reset (R509, R634, R636) -/

/-- Every output ball is high-impedance (R509). -/
def Run.allZ (r : Run) : Run :=
  let balls : List Ball := [.healthy, .ppsOut, .clk10m, .flashReset false, .flashReset true, .memReset false, .memReset true] ++ (List.range 32).map (fun (n : Nat) =>
      if r.trip.muxed n then Ball.fbStb (n - 28) else Ball.so n) ++ (List.range 4).map Ball.xtrigOut ++
    (List.range 4).map Ball.fbTx
  let r := balls.foldl (fun (r : Run) (b : Ball) => r.emit (.ball b .z)) r
  let sos := r.trip.sos.map fun (z : So) => { z with enabled := false, pulse := none }
  let trip := { r.trip with sos := sos }
  let dr := { r.dr with xout := [] }
  let tsu := { r.tsu with ppsOut := false }
  let flt := { r.flt with healthy := false }
  { r with trip := trip, dr := dr, tsu := tsu, flt := flt, ready := false, protection := false }

/-- The device enters reset; a flash bus then starts in 1S-1S-1S mode, until the boot control blocks have been read (R675). -/
def Sys.down (s : Sys) : Sys :=
  { s with phase := .reset, pwrfailAt := none, stuck := false, restartAsked := none, devStaged := [], flash := .single }

/-! ### What a start leaves of each block -/

/-- An instance at a start (R105): ACTIVE is resumed when protection is ready; SHED and RESETTING return to READY.
DEDUCED, assumption 35: unsafe. -/
def InstState.restarted (i : InstState) (warm : Bool) : InstState :=
  let phase : InstPhase := match i.phase with | .free => .free | .idle => .idle | _ => .ready
  { phase := phase, gen := i.gen, rank := i.rank, granted := i.granted, inEffect := i.granted, routedVf := i.routedVf,
    claims := i.claims, wasActive := i.wasActive || i.phase == .active, warmNext := warm && (i.warmNext || i.phase == .active || i.phase == .shed) }

/-- The graph side of an instance at a start; a cold one initialises what the graph keeps (R371, R412). -/
def SlcInst.restarted (x : SlcInst) (warm : Bool) : SlcInst :=
  let x := if warm then x else x.initialised
  { graph := x.graph, ranges := x.ranges, nodes := x.nodes.map fun (s : NodeSt) => { mem := s.mem }, chains := x.chains.map fun (c : ChainSt) => { bound := c.bound },
    sels := x.sels.map fun (z : Selector) => { active := z.active, forced := z.forced, changes := z.changes }, need := x.need }

/-- The CLE side of an instance at a start: every VA from its image. -/
def CleInst.restarted (x : CleInst) : CleInst :=
  { image := x.image, tasks := x.tasks.map fun (e : Nat × TaskSt) =>
      (e.1, { dev := e.2.dev, task := e.2.task, va := e.2.task.init : TaskSt }) }

/-- A subscription at a start. -/
def Sub.restarted (s : Sub) : Sub := { inst := s.inst, record := s.record }

/-- A GOOSE publication at a start: stNum 0 and nothing sent yet.
DEDUCED, assumption 43: unsafe. -/
def GooseSt.restarted (x : GooseSt) : GooseSt :=
  { inst := x.inst, index := x.index, record := x.record, values := x.values.map fun _ => 0 }

/-- An SV publication at a start.
DEDUCED, assumption 43: unsafe. -/
def SvSt.restarted (x : SvSt) : SvSt :=
  { inst := x.inst, index := x.index, record := x.record, values := x.values.map fun _ => (0, false) }

/-- A channel and a stream at a start. -/
def Chan.restarted (c : Chan) : Chan :=
  { inst := c.inst, stream := c.stream, rate := c.rate, record := c.record, dcHold := c.record.dcHold }

/-- See `Chan.restarted`. -/
def Stream.restarted (s : Stream) : Stream := { inst := s.inst, rate := s.rate, record := s.record }

/-- A recorder at a start: it holds its records over a warm one (R529).
DEDUCED, assumption 42: unsafe. -/
def Rec.restarted (x : Rec) (warm : Bool) : Rec :=
  { inst := x.inst, index := x.index, record := x.record, masks := x.masks, held := if warm then x.held else [],
    written := x.written, number := x.number }

/-- The time unit at a restart, whose instant is `now` (R200, R211): the counter, INC and I are those of the always-on domain.
In HOLD_PENDING y is −I (Table 6.1).
DEDUCED, assumption 42: unsafe. -/
def Tsu.restarted (t : Tsu) (now : Instant) : Tsu :=
  if t.ranSinceLock then
    let y := -t.servo.integ
    { counter := t.counter, inc := incOf y, servo := { integ := t.servo.integ, y := y, yHold := y }, phase := .holdPending,
      lockedOnce := true, lossAt := some now, ref := t.ref, ranSinceLock := true, lastLeap := t.lastLeap }
  else { counter := t.counter, inc := t.inc, servo := { integ := t.servo.integ, y := t.servo.y, yHold := t.servo.y },
         lastLeap := t.lastLeap }

/-- What comes first at a start: the time unit leaves reset, with CLK10M_OUT (R211, R222), and so do the flash devices (R675) and,
at a cold start, the memories (R678), after their resets have been driven low; a warm one leaves the memories' resets high. -/
def Run.leaveReset (r : Run) (cold : Bool) : Run :=
  let pulse (r : Run) (b : Ball) : Run := (r.emit (.ball b .low)).emit (.ball b .high)
  let r := (r.modTsu fun t => t.restarted r.now).emit (.ball .clk10m .clock)
  let r := [false, true].foldl (fun (r : Run) x => pulse r (.flashReset x)) r
  [false, true].foldl (fun (r : Run) x => if cold then pulse r (.memReset x) else r.emit (.ball (.memReset x) .high)) r

/-- The trip paths at a start: what is committed or kept in FLB or in the always-on domain stays (R504).
DEDUCED, assumption 42: unsafe. DEDUCED, assumption 43: unsafe.
DEDUCED, assumption 69: unsafe. -/
def Trip.restarted (t : Trip) (warm : Bool) : Trip :=
  { gooses := t.gooses.map fun (e : Nat × GooseSt) => (e.1, e.2.restarted),
    svs := t.svs.map fun (e : Nat × SvSt) => (e.1, e.2.restarted),
    trib := { cfg := match t.trib.next with | some n => some n.1 | none => t.trib.cfg, sentTick := t.trib.sentTick,
              partner := if warm && t.trib.paired then t.trib.partner else [], counted := t.trib.counted },
    sos := t.sos.map fun (z : So) => { safe := z.safe, paired := z.paired, owner := z.owner },
    bis := t.bis.map fun (b : Bi) => { level := b.level, debounce := b.debounce, since := b.since },
    latches := t.latches.map fun (l : Latch) => { l with highSince := none },
    offPulse := t.offPulse, fails := t.fails, lockout := t.lockout }

/-- The fault handling at a start: the fault history and the retirement list stay; a test that the restart cut short leaves its
unit SUSPECT; the HKP is back.
DEDUCED, assumption 41: unsafe. -/
def Faults.restarted (x : Faults) : Faults :=
  let units := x.units.map fun (e : Nat × UnitRec) =>
    (e.1, if unitClass e.1 = 11 then { e.2 with state := .inService }
          else if e.2.state = .underTest then { e.2 with state := .suspect } else e.2)
  let spares := x.sparesUsed.filter fun s => units.any fun e =>
    unitClass e.1 == 1 && storeOf e.1 == s && (e.2.replaced || e.2.state == .suspect)
  { units := units, sparesUsed := spares, rowsUsed := x.rowsUsed, islandEvents := x.islandEvents,
    hkpRestarts := x.hkpRestarts, withdrawn := x.withdrawn + x.withdrawDue }

/-- The Cellar at a start: what is in FLB stays, and so do the records staged, which only a removal of core power loses; SEQ goes on
(R538).
DEDUCED, assumption 42: unsafe. -/
def Cellar.restarted (c : Cellar) : Cellar :=
  { logEpoch := c.logEpoch, nextSeq := c.nextSeq, stage := c.stage, ring := c.ring, tail := c.tail, last := c.last, tags := c.tags,
    journal := c.journal, verifyRaised := c.verifyRaised, lostNow := c.lostNow }

/-- Every block as a start leaves it, before anything is restored or reported.
DEDUCED, assumption 35: unsafe. DEDUCED, assumption 42: unsafe. -/
def Run.restarted (r : Run) (warm : Bool) : Run :=
  let r := r.abandonClear
  let fresh : Run := {}
  let slc : Sluice := { insts := r.slc.insts.map fun (e : Nat × SlcInst) => (e.1, e.2.restarted warm), down := r.slc.down }
  let cle : Cle := {
    insts := r.cle.insts.map fun (e : Nat × CleInst) => (e.1, e.2.restarted), retained := r.cle.retained,
    appended := r.cle.appended }
  let cfl : Confluence := {
    horizon := r.cfl.horizon, coefs := r.cfl.coefs, protos := r.cfl.protos,
    chans := r.cfl.chans.map fun (e : Nat × Chan) => (e.1, e.2.restarted),
    streams := r.cfl.streams.map fun (e : Nat × Stream) => (e.1, e.2.restarted) }
  let ing : Ingest := {
    sv := r.ing.sv.map fun (e : Nat × Sub) => (e.1, e.2.restarted),
    goose := r.ing.goose.map fun (e : Nat × Sub) => (e.1, e.2.restarted), points := if warm then r.ing.points else [] }
  let loop (x : LoopSt) : LoopSt := { x.started with missAt := none, failAt := none, stat := [] }
  let mlr : Millrace := { loops := r.mlr.loops.map fun (e : Nat × LoopSt) => (e.1, loop e.2) }
  let dr : Recorder := { recs := r.dr.recs.map fun (e : Nat × Rec) => (e.1, e.2.restarted warm) }
  let flt := r.flt.restarted
  let fns : List FnState := r.fns.map fun (f : FnState) => { lockedRaised := f.lockedRaised }
  { free := r.free, out := r.out, ticks := r.ticks, acceptances := r.acceptances, store := r.store, fns := fns, insts := r.insts.map fun (i : InstState) => i.restarted warm,
    tsu := r.tsu, sw := { fresh.sw with free := 65536 - flt.withdrawn },
    ing := ing, cfl := cfl, slc := slc, cle := cle, mlr := mlr, trip := r.trip.restarted warm, dr := dr,
    cel := r.cel.restarted, lgr := r.lgr, srm := r.srm, flt := flt }

/-! ### The device configuration at a start (R80, R81, R683) -/

/-- The committed device configuration is restored. -/
def Run.restoreConfig (r : Run) (c : DevConfig) : Run :=
  let port (p : Port) (x : Nat × Nat × Nat) : Port := { p with mode := x.1, fec := x.2.1, maxFrame := x.2.2 }
  let ports := (r.ports.zip c.ports).map fun (e : Port × Nat × Nat × Nat) => port e.1 e.2
  let r := { r with ports := ports ++ r.ports.drop ports.length }
  let r := c.tribs.foldl (fun (r : Run) (p : Nat) => r.modSwPort p fun x => { x with trib := true }) r
  let r := r.modSw fun w => { w with redMode := c.redMode, lifeCheck := c.lifeCheck, nodeForget := c.nodeForget }
  let r := r.modTsuRegs fun g => { g with
    gmEn := c.gmEn, role := c.role, profile := c.profile, src := c.src, domain := c.domain, priority1 := c.priority1,
    priority2 := c.priority2, ptpPorts := c.ptpPorts }
  let r := r.setFltCtrl c.halt c.soFall
  r.modTrip fun t => { t with ballMux := c.ballMux }

/-! ### Recorders over a warm start (R529) -/

/-- A record that was open when the device restarted closes with TRUNCATED set; it keeps the EPOCH in which it was taken. -/
def Run.closeOpen (r : Run) (old : Run) : Run :=
  old.dr.recs.foldl (fun (r : Run) (e : Nat × Rec) =>
    if e.2.current.isNone then r
    else
      let r := r.modRec e.1 fun x => { x with current := e.2.current, ring := e.2.ring, window := e.2.window, h := e.2.h }
      ((r.drClose e.1 true).1).modRec e.1 fun x => { x with ring := [], window := [], h := 0 }) r

/-! ### The power-on self-test (Table 20.2, R615) -/

/-- The power-on self-test covers a class-1 to class-8 unit, or a row of a fixed region. -/
def postCovers (rows u : Nat) : Bool :=
  unitExists rows u && ((decide (1 ≤ unitClass u) && decide (unitClass u ≤ 8)) || (unitClass u == 9 && rowCritical u))

/-- A unit fails the power-on self-test: it is retired.
DEDUCED, assumption 41: unsafe. -/
def Run.postFail (r : Run) (u : Nat) : Run :=
  let was := (r.unit u).state
  if was = .retired then r
  else
    let spare := unitClass u == 1 && (was == .suspect || !r.flt.sparesUsed.contains (storeOf u))
    let r := if spare then r.takeSpare u else r
    r.retire u (if unitClass u = 1 ∧ !spare then none else some { unit := u, since := 0, was := was, spare := spare })

/-- A SUSPECT unit passes: it returns to service, unless the pass is its third within 24 h (R615). True when it returns.
DEDUCED, assumption 41: unsafe. -/
def Run.postPass (r : Run) (u : Nat) : Run × Bool :=
  let at' := r.now
  let hist := at' :: within24h at' (r.unit u).transients
  let r := r.modUnit u fun x => { x with transients := hist }
  if 3 ≤ hist.length then (r.postFail u, false)
  else
    let r := if unitClass u = 1 then r.modFlt fun x => { x with sparesUsed := setDel x.sparesUsed (storeOf u) } else r
    (r.returnUnit u .suspect, true)

/-- The power-on self-test: EV_POST reports the units retired and the SUSPECT units returned.
DEDUCED, assumption 41: unsafe. -/
def Run.post (r : Run) (rows : Nat) (failed : List Nat) : Run :=
  let failed := failed.eraseDups.filter (postCovers rows)
  let suspects := ((r.flt.units.filter fun e => e.2.state == .suspect).map (·.1)).filter fun u => postCovers rows u && !failed.contains u
  let bad := (failed.filter fun u => (r.unit u).state != .retired).length
  let r := failed.foldl (fun (r : Run) (u : Nat) => r.postFail u) r
  let (r, back) := suspects.foldl (fun (acc : Run × Nat) (u : Nat) =>
    let (r, ok) := acc.1.postPass u; (r, if ok then acc.2 + 1 else acc.2)) (r, 0)
  r.raise { ev := .post, source := 12, data := [(bad + (suspects.length - back)) % 65536, back % 65536] }

/-! ### Images (R638 to R642) -/

/-- An image slot: false for A, true for B. -/
def Sys.image (s : Sys) (b : Bool) : Image := if b then s.imageB else s.imageA

/-- An image is valid (R638). -/
def Sys.valid (s : Sys) (b : Bool) : Bool := (s.image b).good && decide (s.svnMin ≤ (s.image b).svn)

/-- A change of the boot control block writes the other copy with SEQ + 1 (R639).
DESIGN CHOICE, assumption 38: unsafe. -/
def Sys.putBcb (s : Sys) (f : BootBlock → BootBlock) : Sys :=
  let c := ({ f s.bcb with seq := (s.bcb.seq + 1) % 2 ^ 64 } : BootBlock).copy
  if s.usesBcb1 then { s with bcb0 := c } else { s with bcb1 := c }

/-- What the boot decides: the image, whether it runs as a trial, FALLBACK, and the causes of EV_IMAGE; no image in recovery. -/
structure BootPick where
  image : Option Bool
  trial : Bool := false
  fallback : Bool := false
  causes : List Nat := []
  deriving DecidableEq, Repr

/-- Steps 2 to 4 of R640. -/
def Sys.pickActive (s : Sys) (causes : List Nat) : BootPick :=
  let a := s.bcb.active
  if s.valid a then { image := some a, causes := causes }
  else if s.valid (!a) then { image := some (!a), fallback := true, causes := causes ++ [3] }
  else { image := none, causes := causes ++ [5] }

/-- R640: the choice at a cold start with BOOT_SEL 0b00. -/
def Sys.pickNormal (s : Sys) : Sys × BootPick :=
  match s.bcb.trial with
  | none => (s, s.pickActive [])
  | some t =>
    if s.bcb.tries = 0 then
      let s := s.putBcb fun b => { b with trial := none }
      (s, s.pickActive [2])
    else
      let s := s.putBcb fun b => { b with tries := b.tries - 1 }
      if s.valid t then (s, { image := some t, trial := true })
      else
        let s := s.putBcb fun b => { b with trial := none }
        (s, s.pickActive [1])

/-- R642: the choice at a cold start.
DEDUCED, assumption 36: unsafe. DEDUCED, assumption 37: unsafe. -/
def Sys.pick (s : Sys) (bootSel : Nat) : Sys × BootPick :=
  match bootSel % 4 with
  | 0 => s.pickNormal
  | 1 => (s, if s.valid false then { image := some false } else { image := none, causes := [5] })
  | 2 => (s, if s.valid true then { image := some true } else { image := none, causes := [5] })
  | _ => (s, { image := none })

/-- Blocks of FLA that the changes of the boot control block between two states erased: one for each change.
DESIGN CHOICE, assumption 38: unsafe. -/
def bcbErases (a b : Sys) : Nat := b.bcb.seq - a.bcb.seq

/-! ### Memory (R30 to R34) -/

/-- The DR region laid out at a cold start, and whether it had to be cut (R33, R34).
DEDUCED, assumption 40: unsafe. -/
def Sys.layDr (s : Sys) : Nat × Bool :=
  match s.drRegion with
  | none => (min 8 s.drMax, false)
  | some n => (min n s.drMax, decide (s.drMax < n))

/-- EV_MEM_MISMATCH (R31, R34), whose source and DATA are open (assumption 4, DESIGN CHOICE). -/
def Run.memMismatch (r : Run) : Run := r.raise { ev := .memMismatch, source := Config.memMismatchSource }

/-! ### The safety I/O takes its configuration (R510, R670) -/

/-- HEALTHY is driven low, each FB_n_TX recessive, and every output to its SAFE value, which its readback follows; a ball that serves the
field bus carries FB_n_STB.
DEDUCED, assumption 47: unsafe. -/
def Run.safetyUp (r : Run) : Run :=
  let r := r.emit (.ball .healthy .low)
  let r := (List.range 4).foldl (fun (r : Run) n => r.emit (.ball (.fbTx n) .high)) r
  (List.range 32).foldl (fun (r : Run) (n : Nat) =>
    if r.trip.muxed n then r.muxBall (n - 28) true
    else
      let z := r.so n
      let safe := (r.so (if z.paired then n / 2 * 2 else n)).safe
      (r.modSo n fun z => { z with enabled := true, drive := safe, sofb := safe }).emit (.ball (.so n) (if safe then .high else .low))) r

/-! ### Starts (R633) -/

/-- The instances whose state the restart has changed report it (R106).
DEDUCED, assumption 35: unsafe. -/
def Run.reportRestarts (r old : Run) : Run :=
  (List.range 32).foldl (fun (r : Run) n =>
    let was := (old.inst n).phase
    let i := r.inst n
    if was = i.phase then r
    else r.raiseInst n { ev := .instState, source := slcSource n 0, owner := some n, data := [was.code, i.phase.code, i.gen] }) r

/-- The part that both kinds of start share: what the blocks keep, the restored configuration, EPOCH and READY, DEVICE_START, and
what the Strongroom and the ledger report. -/
def Run.begin' (old : Run) (sys : Sys) (k : StartIn) (warm : Bool) : Run :=
  let r := old.restarted warm
  let r := match r.store.dev with | some c => r.restoreConfig c | none => r
  let r := { r with epoch := sys.epochStored, ready := true }.reportRestarts old
  let r := r.startStrong sys.serial sys.aonLost
  let r := (r.loadLedger k.badA k.badB).countUps.devState
  let r := r.count (if warm then .warmStarts else .coldStarts)
  let r := r.stage { type := 2, time := r.now, data := [if warm then 1 else 0, if sys.boot.imageB then 1 else 0, sys.epochStored.toNat] }
  let r := r.serviceDay
  if warm then (r.closeOpen old).restoreRetained.partnerRestore else r

/-- What the device as a whole takes at a start: EPOCH advances (R633), RWL items stand locked where a configuration is held
(R80), TRIPPED tells of a thermal reset (R680).
DEDUCED, assumption 42: unsafe. -/
def Sys.begin' (s : Sys) (k : StartIn) (held : Option DevConfig) : Sys :=
  { s with
    epochStored := s.epochStored + 1, locked := held.isSome,
    drRegion := held.bind (·.drRegion),
    tripped := s.tripReset, tripReset := false, tj := k.tj, maxTj := k.tj, pwrfailReset := false, selfRefresh := false,
    aonLost := false }

/-- A cold start (Table 20.2). `r` has been brought to the rise of PORST_N.
DESIGN CHOICE, assumption 34: unsafe. DEDUCED, assumption 36: unsafe. DEDUCED, assumption 39: unsafe. DEDUCED, assumption 40: unsafe. -/
def coldStart (sys : Sys) (r : Run) (k : StartIn) : Sys × Run :=
  let powered := !sys.corePower
  let r := r.allZ
  let r := if powered then r.powerUp else r
  let began := r.ticks
  let before := sys.down
  let (sys, p) := before.pick k.bootSel
  let erased := bcbErases before sys
  let boot : BootState := { imageB := p.image.getD sys.bcb.active, trial := p.trial, fallback := p.fallback, bootSel := k.bootSel % 4, startedAt := began }
  let sys := { sys with boot := boot, corePower := true, porstN := true, pwrfailReset := false, flash := .octal }
  let r := (r.leaveReset true).pass k.ready
  if k.memA = 0 ∨ k.memB = 0 then ({ sys with stuck := true }, r.emit (.ball .healthy .low))
  else
    let lost := sys.aonLost
    let capacity := min k.memA k.memB
    let sys := { sys.begin' k r.store.dev with capacity := capacity }
    let (laid, cut) := sys.layDr
    let sys := { sys with drLaid := laid, phase := if p.image.isSome then .ready else .recovery }
    let r := r.begin' { sys with aonLost := lost } k false
    let r := r.count .flaErases erased
    let r := p.causes.foldl (fun (r : Run) (c : Nat) => r.raise { ev := .image, source := 11, data := [(c : Int)] }) r
    let r := if k.memA ≠ k.memB then r.memMismatch else r
    let r := if cut then r.memMismatch else r
    if p.image.isNone then (sys, r.emit (.ball .healthy .low))
    else
      let r := r.post (rowsOf capacity) k.failed
      (sys, r.safetyUp)

/-- A warm start (Table 20.3); where its check fails it becomes a cold one (R635).
DESIGN CHOICE, assumption 34: unsafe. DEDUCED, assumption 36: unsafe. DEDUCED, assumption 37: unsafe. DEDUCED, assumption 46: unsafe. -/
def warmStart (sys : Sys) (r : Run) (k : StartIn) : Sys × Run :=
  if !k.firmwareOk || !k.configOk || !sys.selfRefresh then coldStart sys r k
  else
    let r := r.allZ
    let sys := sys.down
    let boot := { sys.boot with warm := true, bootSel := k.bootSel % 4, startedAt := r.ticks, readyMs := 0 }
    let recovery := decide (k.bootSel % 4 = 3)
    let lost := sys.aonLost
    let sys := { sys with boot := boot, flash := .octal }
    let sys := { sys.begin' k r.store.dev with phase := if recovery then .recovery else .ready }
    let r := ((r.leaveReset false).pass k.ready).begin' { sys with aonLost := lost } k true
    (sys, if recovery then r.emit (.ball .healthy .low) else r.safetyUp)

/-- The instances that were ACTIVE return to ACTIVE (R105); the kind of start is the device's.
DEDUCED, assumption 35: unsafe. -/
def Run.resumeInsts (r : Run) (warm : Bool) : Run :=
  (List.range 32).foldl (fun (r : Run) (n : Nat) =>
    if (r.inst n).wasActive && (r.inst n).phase == .ready then r.activate n warm else r) r

/-- PROTECTION rises: the instances resume, what admission does not carry is shed (R624), HEALTHY goes high where no cause has
occurred (R627), and EV_DEV_START.
DEDUCED, assumption 47: unsafe. -/
def startProtection (sys : Sys) (r : Run) : Sys × Run :=
  let r := r.resumeInsts sys.boot.warm
  let (r, ok) := r.shedLoop 33
  let r := if ok then r else r.healthyFall 1 0
  let r := r.modFlt fun x => { x with admission := none }
  let at' := r.now
  let r := ({ r with protection := true }).modTrip fun t => { t with trib := { t.trib with protectedAt := at', since := at' } }
  let r := if r.flt.cause = 0 then (r.modFlt fun x => { x with healthy := true }).emit (.ball .healthy .high) else r
  let ms := min 65535 ((r.ticks - sys.boot.startedAt) / 250000)
  let boot := { sys.boot with readyMs := ms }
  let r := r.raise { ev := .devStart, source := 8,
                     data := [if boot.warm then 1 else 0, if boot.imageB then 1 else 0, r.epoch.toNat, ms] }
  ({ sys with phase := .running, boot := boot, healthySince := r.ticks }, r)

/-! ### Trial images (R641) -/

/-- The running trial image becomes ACTIVE; the Strongroom raises SVN_MIN to its SVN.
DESIGN CHOICE, assumption 38: unsafe. -/
def confirmTrial (sys : Sys) (r : Run) : Sys × Run :=
  let b := sys.boot.imageB
  let new := (sys.putBcb fun x => { x with active := b, trial := none })
  let new := { new with svnMin := max sys.svnMin (sys.image b).svn, boot := { sys.boot with trial := false } }
  (new, (r.count .flaErases (bcbErases sys new)).raise { ev := .image, source := 11, data := [4] })

/-! ### Power (R646, R651) -/

/-- What the always-on domain holds is lost (R651): the counter's value afterwards is a free value, INC and I are as at reset.
DEDUCED, assumption 45: unsafe. -/
def Run.loseAon (r : Run) : Run :=
  let (v, r) := r.takeFree 96
  r.modTsu fun t => { t with counter := v.toNat % counterWrap, inc := 0x400000000, servo := {}, ranSinceLock := false }

/-- The power-fail sequence begins (R542, R580, R646): a clear ends as it was, a PREPARED write stops, POWER_FAIL is staged and everything
staged is flushed; EV_PWRFAIL.
DEDUCED, assumption 44: unsafe. -/
def Run.powerFails (r : Run) (vaonA vaonB : Bool) : Run :=
  let r := r.abandonClear.tearPrepared
  let n : Int := r.cel.stage.length
  let feeds : Nat := (if vaonA then 1 else 0) + (if vaonB then 2 else 0)
  let r := r.stage { type := 3, time := r.now, data := [feeds, n] }
  let r := r.modCel fun c => { c.flush with powerFail := true }
  r.raise { ev := .pwrfail, source := 10, data := [n] }

/-- What the power-fail sequence completes in FLB before the reset (R542, Table 20.8): a COMMIT in progress, the flush and the pending
ledger entries.
DEDUCED, assumption 44: unsafe. -/
def Run.powerFlush (r : Run) : Run :=
  let r := r.endCommits
  let r := if r.cel.flushing then r.flushOnce else r
  r.writeEntries r.lgr.pending true

end Sys2Proof.Machine
end

