-- ==== Sys2Proof/Machine/Start.lean ====
section
/-! DEFINITION. The steps of chapter 20: starts, resets, firmware images, power and temperature. -/

namespace Sys2Proof.Machine

/-- A step that changes the whole block but its queue. -/
def onBlock (s : State) (f : Sys → Run → Sys × Run) : Host.Outcome State Fault Refusal :=
  let (sys, run) := f s.sys s.run
  .next { s with sys := sys, run := run }

/-! ### Starts and resets (R633 to R636, R641) -/

/-- COLD_START (R633): power-up or the rise of PORST_N, which has no further effect while SYSRST_N is low or the thermal reset
holds; or the cold restart that DEV_RESTART asked for.
DEDUCED, assumption 33: safe. DEDUCED, assumption 46: unsafe. -/
def execColdStart (k : StartIn) (dt : Nat) (s : State) : Host.Outcome State Fault Refusal :=
  onBlock s fun sys r =>
    let r := r.pass dt
    if sys.phase ≠ .reset ∧ sys.pwrfailAt.isNone ∧ sys.restartAsked = some true then coldStart sys r k
    else if sys.porstN then (sys, r)
    else if sys.sysrstN && !sys.thermal then coldStart sys r k
    else
      let r := if sys.corePower then r else r.powerUp
      ({ sys with porstN := true, corePower := true, pwrfailReset := false }, r)

/-- The reset that holds ends with a warm start: SYSRST_N has risen, or power has failed and PWRFAIL_N is high again (R649). -/
def Sys.warmDue (s : Sys) : Bool :=
  s.phase == .reset && s.porstN && !s.thermal && !s.stuck && (!s.sysrstN || s.pwrfailReset) && (!s.pwrfailReset || s.pwrfailN)

/-- WARM_START (R633): the rise of SYSRST_N, the end of a power-fail sequence with PWRFAIL_N high again, or the warm restart that
DEV_RESTART asked for, before which the device puts the SDRAM into self-refresh (R634).
DEDUCED, assumption 46: unsafe. -/
def execWarmStart (k : StartIn) (dt : Nat) (s : State) : Host.Outcome State Fault Refusal :=
  onBlock s fun sys r =>
    let r := r.pass dt
    if sys.phase ≠ .reset ∧ sys.pwrfailAt.isNone ∧ sys.restartAsked = some false then warmStart { sys with selfRefresh := true } r k
    else if sys.warmDue then warmStart { sys with sysrstN := true } r k
    else ({ sys with sysrstN := true }, r)

/-- PROTECTION_START (R105, R627, Table 20.2): the start completes, in a life-cycle state in which protection may run (R561).
DEDUCED, assumption 33: safe. -/
def execProtectionStart (dt : Nat) (s : State) : Host.Outcome State Fault Refusal :=
  onBlock s fun sys r =>
    let r := r.pass dt
    if sys.phase = .ready ∧ r.srm.mayRun then startProtection sys r else (sys, r)

/-- SYSRST_N_FALL (R634): the SDRAM enters self-refresh and the device reset. -/
def execSysrstNFall (dt : Nat) (s : State) : Host.Outcome State Fault Refusal :=
  onBlock s fun sys r =>
    let r := r.pass dt
    if sys.phase = .reset then ({ sys with sysrstN := false, stuck := false }, r)
    else ({ sys.down with sysrstN := false, selfRefresh := true }, r.allZ)

/-- PORST_N_FALL (R636): the device enters reset. -/
def execPorstNFall (dt : Nat) (s : State) : Host.Outcome State Fault Refusal :=
  onBlock s fun sys r => ({ sys.down with porstN := false, selfRefresh := false }, (r.pass dt).allZ)

/-- TRIAL_BOOT_TIMEOUT (R641): a start on a trial image that has not raised PROTECTION within 1.5 s restarts cold.
DEDUCED, assumption 39: unsafe. -/
def execTrialBootTimeout (k : StartIn) (dt : Nat) (s : State) : Host.Outcome State Fault Refusal :=
  onBlock s fun sys r =>
    let r := r.pass dt
    if (sys.phase = .ready ∨ sys.stuck) ∧ sys.boot.trial ∧ sys.boot.startedAt + msTicks 1500 ≤ r.ticks then coldStart sys r k
    else (sys, r)

/-- AUTO_CONFIRM_EXPIRY (R641): HEALTHY has stayed high for AUTO_CONFIRM. -/
def execAutoConfirmExpiry (dt : Nat) (s : State) : Host.Outcome State Fault Refusal :=
  onBlock s fun sys r =>
    let r := r.pass dt
    if sys.phase = .running ∧ sys.boot.trial ∧ r.flt.healthy ∧ sys.autoConfirm ≠ 0 ∧
        sys.healthySince + msTicks (1000 * sys.autoConfirm) ≤ r.ticks then confirmTrial sys r
    else (sys, r)

/-! ### Commands (R658) -/

/-- DEV_RESTART (R658): it completes, and the restart follows. -/
def execDevRestart (c : Cmd) (cold : Bool) (s : State) : Host.Outcome State Fault Refusal :=
  runCommand { op := 0x0140, pf0 := true, recovery := true } c s fun _ sys r => ({ sys with restartAsked := some cold }, r, .ok)

/-- DEV_IMAGE_WRITE (R658): `content` is what the image not running then holds, `erased` the blocks of FLA erased for it.
DESIGN CHOICE, assumption 38: unsafe. -/
def execDevImageWrite (c : Cmd) (offset len : Nat) (content : Image) (erased : Nat) (s : State) : Host.Outcome State Fault Refusal :=
  runCommand { op := 0x0141, pf0 := true, buf := true, need := some len, recovery := true } c s fun _ sys r =>
    let b := !sys.boot.imageB
    if 2 ^ 20 < len ∨ 2 ^ 25 < offset + len then (sys, r, .status .range)
    else if sys.bcb.active = b ∨ sys.bcb.trial = some b then (sys, r, .status .imageState)
    else (if b then { sys with imageB := content } else { sys with imageA := content }, r.count .flaErases erased, .ok)

/-- DEV_IMAGE_COMMIT (R638, R658): the image not running is verified and set as TRIAL.
DESIGN CHOICE, assumption 38: unsafe. -/
def execDevImageCommit (c : Cmd) (tries : Nat) (s : State) : Host.Outcome State Fault Refusal :=
  runCommand { op := 0x0142, pf0 := true, recovery := true } c s fun _ sys r =>
    let b := !sys.boot.imageB
    if tries < 1 ∨ 7 < tries then (sys, r, .status .range)
    else if !(sys.image b).good then (sys, r, .status .imageSig)
    else if (sys.image b).svn < sys.svnMin then (sys, r, .status .imageSvn)
    else
      let new := sys.putBcb fun x => { x with trial := some b, tries := tries }
      (new, r.count .flaErases (bcbErases sys new), .ok)

/-- DEV_IMAGE_CONFIRM (R641). -/
def execDevImageConfirm (c : Cmd) (s : State) : Host.Outcome State Fault Refusal :=
  runCommand { op := 0x0143, pf0 := true } c s fun _ sys r =>
    if !sys.boot.trial then (sys, r, .status .state)
    else
      let (sys, r) := confirmTrial sys r
      (sys, r, .ok)

/-- The boot control block in use as its fields: MAGIC, SEQ, ACTIVE, TRIAL, TRIES and the reserved byte (R639). -/
def BootBlock.fields (b : BootBlock) : List Int :=
  [0x42434253, b.seq, if b.active then 1 else 0, match b.trial with | none => 0xFF | some t => if t then 1 else 0, b.tries, 0]

/-- DEV_BOOT_QUERY (R658). -/
def execDevBootQuery (c : Cmd) (s : State) : Host.Outcome State Fault Refusal :=
  runQuery { op := 0x0144, pf0 := false, recovery := true } c s fun _ sys _ =>
    .done { result := (sys.bootWord : Int) :: sys.bcb.fields ++ [(sys.imageA.version : Int), sys.imageB.version] }

/-! ### Power (R646 to R651) -/

/-- PWRFAIL_N_FALL (R542, R646): a low of `lowNs` ns so far; one shorter than 10 µs is ignored.
DEDUCED, assumption 44: unsafe. -/
def execPwrfailNFall (lowNs dt : Nat) (s : State) : Host.Outcome State Fault Refusal :=
  onBlock s fun sys r =>
    let r := r.pass dt
    if lowNs < 10000 then (sys, r)
    else if sys.phase = .reset ∨ sys.pwrfailAt.isSome then ({ sys with pwrfailN := false }, r)
    else ({ sys with pwrfailN := false, pwrfailAt := some (r.ticks - lowNs / 4), pwrfailCount := (sys.pwrfailCount + 1) % 2 ^ 64 },
          r.powerFails sys.vaonA sys.vaonB)

/-- POWER_FAIL_RESET (R649, Table 20.8): 2.0 ms after the fall the flush has ended, and the device enters reset. -/
def execPowerFailReset (dt : Nat) (s : State) : Host.Outcome State Fault Refusal :=
  onBlock s fun sys r =>
    let r := r.pass dt
    match sys.pwrfailAt with
    | none => (sys, r)
    | some t =>
      if r.ticks < t + msTicks 2 then (sys, r)
      else ({ sys.down with pwrfailReset := true, selfRefresh := true }, r.powerFlush.allZ)

/-- PWRFAIL_N_RISE (R649): after a power-fail sequence that has ended in reset, the device makes a warm start; one that still
runs goes on to its end. -/
def execPwrfailNRise (k : StartIn) (dt : Nat) (s : State) : Host.Outcome State Fault Refusal :=
  onBlock s fun sys r =>
    let r := r.pass dt
    let sys := { sys with pwrfailN := true }
    if sys.pwrfailReset && sys.sysrstN && sys.warmDue then warmStart sys r k else (sys, r)

/-- Whether both always-on feeds are absent with core power removed: what that domain holds is then lost (R651).
DEDUCED, assumption 45: unsafe. -/
def settleAon (sys : Sys) (r : Run) : Sys × Run :=
  if sys.corePower || sys.vaonA || sys.vaonB || sys.aonLost then (sys, r)
  else ({ sys with aonLost := true, tripReset := false }, r.loseAon)

/-- AON_FEED_CHANGE (R650, R651): the feeds have had these levels for 1 ms.
DEDUCED, assumption 45: unsafe. -/
def execAonFeedChange (a b : Bool) (dt : Nat) (s : State) : Host.Outcome State Fault Refusal :=
  onBlock s fun sys r =>
    let r := r.pass dt
    if a = sys.vaonA ∧ b = sys.vaonB then (sys, r)
    else
      let lost := (if sys.vaonA && !a then 1 else 0) + (if sys.vaonB && !b then 1 else 0)
      let sys := { sys with vaonA := a, vaonB := b, aonLosses := (sys.aonLosses + lost) % 2 ^ 64 }
      if sys.phase = .reset then settleAon sys r
      else
        let inside := !a && !b
        let x : Raise := { ev := .aonFeed, source := 9, severity := if inside then 2 else Ev.severity .aonFeed,
                           data := [if a then 1 else 0, if b then 1 else 0, if inside then 1 else 0] }
        let r := r.raise x
        (sys, if r.cel.minSeverity ≤ x.severity then r
              else r.stage { type := 0x0010, time := r.now, source := 9, severity := x.severity, data := (x.ev.code : Int) :: x.data })

/-- CORE_POWER_LOSS (R648, R651): core power is removed, and PORST_N is low until the supplies are back (R636). What the Cellar and the
ledger had not written is lost. -/
def execCorePowerLoss (dt : Nat) (s : State) : Host.Outcome State Fault Refusal :=
  onBlock s fun sys r =>
    let sys := { sys.down with corePower := false, porstN := false, selfRefresh := false, thermal := false, pwrfailReset := false }
    settleAon sys (r.pass dt).allZ.loseStage.loseLedger

/-! ### Temperature (R680) -/

/-- THERMAL_TRIP (R680): a sensor has read `tj` in 1/16 °C for 1 ms; at 125 °C or more the device acts as if PORST_N had fallen. -/
def execThermalTrip (tj : Int) (dt : Nat) (s : State) : Host.Outcome State Fault Refusal :=
  onBlock s fun sys r =>
    let r := r.pass dt
    if tj < 2000 ∨ !sys.corePower ∨ sys.thermal then (sys, r)
    else ({ sys.down with thermal := true, tripReset := true, selfRefresh := false, tj := tj }, r.allZ)

/-- THERMAL_RECOVER (R680): every sensor reads below 100 °C; the start that follows is cold, with TRIPPED set. -/
def execThermalRecover (k : StartIn) (dt : Nat) (s : State) : Host.Outcome State Fault Refusal :=
  onBlock s fun sys r =>
    let r := r.pass dt
    if !sys.thermal ∨ 1600 ≤ k.tj then (sys, r)
    else
      let sys := { sys with thermal := false }
      if sys.porstN && sys.sysrstN then coldStart sys r k else (sys, r)

end Sys2Proof.Machine
end

