-- ==== Sys2Proof/Machine/Strong.lean ====
section
/-! DEFINITION. The steps of chapter 17. -/

namespace Sys2Proof.Machine

/-- A delivered context is re-masked (R584). -/
def KeyContext.remask (c : KeyContext) (d : Nat) : KeyContext := { c with s1 := Nat.xor c.s1 d, s2 := Nat.xor c.s2 d }

/-- Every delivered context is re-masked over the key bus with fresh random data (R584). -/
def Run.remaskContexts (r : Run) : Run :=
  let (l, r) := r.srm.contexts.foldl (fun (acc : List KeyContext × Run) c =>
    let (d, r) := acc.2.random (8 * materialBytes (match acc.2.srm.key c.slot with | some k => k.type | none => 0))
    (acc.1 ++ [c.remask d], r)) ([], r)
  r.modSrm fun s => { s with contexts := l }

/-- KEY_REMASK (R583, R584): each loaded slot and each delivered context is re-masked with fresh random data; while the TRNG is stopped
the slots missed are counted. -/
def execKeyRemask (dt : Nat) (s : State) : Host.Outcome State Fault Refusal :=
  whenUp s fun _ r =>
    let r := r.pass dt
    if r.ticks < r.srm.remaskAt + msTicks 100 then r
    else
      let r := r.modSrm fun s => { s with remaskAt := r.ticks }
      if r.srm.trngFail then r.srmCount 7 r.srm.slots.length
      else
        (r.srm.slots.foldl (fun (r : Run) (e : Nat × Key) =>
          let (d, r) := r.random (8 * materialBytes e.2.type)
          r.modSrm fun s => { s with slots := tabSet s.slots e.1 { e.2 with mask := Nat.xor e.2.mask d } }) r).remaskContexts

/-- SRM_QUERY (R589). -/
def execSrmQuery (c : Cmd) (s : State) : Host.Outcome State Fault Refusal :=
  runQuery { op := 0x0D00, pf0 := false } c s fun _ _ r =>
    .done { result := [(r.srm.lc.code : Int), if r.srm.debug then 1 else 0, r.srm.slots.length, if r.srm.bankB then 1 else 0] }

/-- SRM_LC_CHALLENGE (R562): a nonce for 300 s. -/
def execSrmLcChallenge (c : Cmd) (s : State) : Host.Outcome State Fault Refusal :=
  runCmd { op := 0x0D01, pf0 := true } c s fun _ r =>
    if r.srm.trngFail then (r, .status .srmTrng)
    else
      let (v, r) := r.takeFree 128
      (r.modSrm fun s => { s with
         nonce := some (v, r.now + 300000000000), oldNonces := (s.nonce.toList.map (·.1)) ++ s.oldNonces },
       .done { result := [(v.toNat : Int), r.srm.lc.code] })

/-- The nonce of SRM_LC_CHALLENGE while it is valid. -/
def Run.lcNonce (r : Run) : Option Nat :=
  match r.srm.nonce with
  | some (v, t) => if r.now ≤ t then some v.toNat else none
  | none => none

/-- What the check of a signature over a message with the challenge nonce says (R562): it verifies; the nonce has expired, or the
signature is over one that has been replaced; or it fails. -/
def Run.lcCheck (r : Run) (pub : Option Nat) (msg : Nat → List Nat) (sig : Nat) : Option Status :=
  let signs (nonce : Nat) : Bool := match pub with | some k => Config.ecdsaVerify k (msg nonce) sig | none => false
  match r.lcNonce with
  | none => some .srmNonce
  | some nonce =>
    if signs nonce then none
    else if r.srm.oldNonces.any fun v => signs v.toNat then some .srmNonce
    else some .auth

/-- The octets of an uncompressed point on P-384, of a point on P-256, and of a signature under a P-384 key (Table 17.6, R566). -/
def pointLen384 : Nat := 97

/-- See `pointLen384`. -/
def pointLen256 : Nat := 65

/-- See `pointLen384`. -/
def sigLen384 : Nat := 96

/-- In RETURNED and SCRAPPED protection may not run (Table 17.1): every ACTIVE or SHED instance is reset, PROTECTION falls, and HEALTHY,
which is high only while protection runs (R627).
DEDUCED, assumption 80: unsafe. -/
def Run.protectionEnds (r : Run) : Run :=
  let r := (List.range 32).foldl (fun (r : Run) n =>
    let p := (r.inst n).phase
    if p = .active ∨ p = .shed then r.beginReset n (33, 0) else r) r
  let was := r.flt.healthy
  let r := { r with protection := false, flt := { r.flt with healthy := false } }
  if was then (r.emit (.ball .healthy .low)).raise { ev := .healthy, source := 0, data := [0, 0] } else r

/-- The key that must sign a transition (Table 17.2). -/
def Strong.signer (s : Strong) (next : Lc) (ownerKey : Nat) : Option Nat :=
  match next with
  | .secured => some ownerKey
  | .returned => (s.key 5).bind fun k => if Config.sha384 [k.material] = s.ownerHash then some k.material else none
  | _ => some Config.factoryKey

/-- SRM_LC_ADVANCE (R562, R563): `fuses` is how many fuses of the bit are programmed before power is lost, 3 when none is
lost; a command cut short has no completion. A clear under way is abandoned. -/
def execSrmLcAdvance (c : Cmd) (target sig ownerKey fuses : Nat) (s : State) : Host.Outcome State Fault Refusal :=
  let next := Lc.ofCode target
  runCommand { op := 0x0D02, pf0 := true, buf := true, need := some (sigLen384 + if next = .secured then pointLen384 else 0) } c s
    fun _ sys r =>
    let msg (nonce : Nat) := [label [0x4C, 0x43, 0x41, 0x44, 0x56], sys.serial, r.srm.lc.code, target, nonce] ++
      (if next = .secured then [ownerKey] else [])
    if 5 ≤ target then (sys, r, .status .range)
    else if !r.srm.lc.allows next then (sys, r, .status .srmState)
    else match r.lcCheck (r.srm.signer next ownerKey) msg sig with
      | some st => (sys, r, .status st)
      | none =>
        if next = .provisioned ∧ r.srm.trngFail then (sys, r, .status .srmTrng)
        else
          let r := r.cancelClear.advance next ownerKey fuses
          let r := if 2 ≤ fuses ∧ (next = .returned ∨ next = .scrapped) then r.protectionEnds else r
          if fuses < 3 then (sys, r.modSrm fun s => { s with advancing := some (c.fn, c.cseq) }, .wait) else (sys, r, .ok)

/-- What R568, R569 and R571 ask of a key that a command brings into a slot: the status that refuses it. -/
def Run.newKeyRefused (r : Run) (fn slot type keyId attr : Nat) : Option Status :=
  if 256 ≤ slot ∨ materialBytes type = 0 then some .range
  else if !mayManage fn attr then some .denied
  else if !slotFree r.srm slot then some .srmSlot
  else if !attrOk fn type (setDevice attr 0) then some .srmAttr
  else if r.srm.idTaken slot keyId attr then some .srmKeyid
  else none

/-- SRM_KEY_GENERATE (R569, R571, R589): private and symmetric types. -/
def execSrmKeyGenerate (c : Cmd) (slot type keyId attr : Nat) (s : State) : Host.Outcome State Fault Refusal :=
  runCommand { op := 0x0D03, pf0 := false } c s fun _ sys r =>
    match r.newKeyRefused c.fn slot type keyId attr with
    | some st => (sys, r, .status st)
    | none =>
      if isPublic type ∨ type = 8 then (sys, r, .status .range)
      else if r.srm.trngFail then (sys, r, .status .srmTrng)
      else
        let (k, r) := r.generate type keyId attr
        let r := r.loadKey slot k
        (sys, r, .done (r.blobReply sys.serial slot k))

/-- SRM_KEY_LOAD (R575). -/
def execSrmKeyLoad (c : Cmd) (slot : Nat) (blob : Blob) (s : State) : Host.Outcome State Fault Refusal :=
  runCommand { op := 0x0D04, pf0 := false, buf := true, need := some (64 + blob.wrappedLen) } c s fun _ sys r =>
    match r.srm.openBlob sys.serial blob with
    | none => (sys, r.blobFail, .status .srmBlob)
    | some k =>
      match r.newKeyRefused c.fn slot k.type k.keyId k.attr with
      | some st => (sys, r, .status st)
      | none =>
        let r := r.loadKey slot k
        (sys, r, .done (r.blobReply sys.serial slot k))

/-- SRM_KEY_LOAD_CLEAR (R582): its KEY_GEN is not stated, and free. -/
def execSrmKeyLoadClear (c : Cmd) (slot type keyId attr material : Nat) (s : State) : Host.Outcome State Fault Refusal :=
  runCommand { op := 0x0D05, pf0 := true, buf := true, need := some (materialBytes type) } c s fun _ sys r =>
    let lc := r.srm.lc
    if lc = .secured ∨ lc = .scrapped then (sys, r, .status .srmState)
    else match r.newKeyRefused c.fn slot type keyId attr with
      | some st => (sys, r, .status st)
      | none =>
        if 256 ^ materialBytes type ≤ material then (sys, r, .status .range)
        else
          let (g, r) := r.random 32
          let k : Key := { type := type, keyId := keyId, gen := g, attr := setDevice attr clearLoaded, material := material }
          let r := r.loadKey slot k
          (sys, r, .done (r.blobReply sys.serial slot k))

/-- The attributes of a derived key (R576): WRAP_UNWRAP alone, not exportable. -/
def derivedAttrOk (attr : Nat) : Bool := field attr 31 24 == 128 && !attr.testBit 32

/-- The keys that a usage takes (Table 17.3, R576): ECDH a private key, AES-KWP an AES-256 key with the attributes of a derived one.
DEDUCED, assumption 18: unsafe. -/
def usageFits (usage : Nat) (k : Key) : Bool :=
  if usage = 6 then k.type == 4 || k.type == 5 else if usage = 7 then k.type == 2 && derivedAttrOk k.attr else true

/-- The key of a slot that a command may use in a way (R570); a use denied is counted. The reserved slots serve no such use
(R568). -/
def Run.usable (r : Run) (fn slot usage : Nat) : Run × Except Status Key :=
  match r.srm.key slot with
  | none => (r, .error .srmSlot)
  | some k => if slot < 8 then (r, .error .srmSlot) else if r.srm.commandServes k fn usage && usageFits usage k then (r.srmCount 0, .ok k) else (r.srmCount 1, .error .srmAttr)

/-- The bytes of the AES-KWP ciphertext of a key of a type (R576). -/
def cipherLen (type : Nat) : Nat := 8 * ((materialBytes type + 7) / 8) + 8

/-- The material that a ciphertext unwraps to, where it is that of a key of the type (Table 17.6).
DEDUCED, assumption 18: unsafe. -/
def unwrapped (kek : Key) (type cipher : Nat) : Option Nat :=
  match Config.kwpUnwrap kek.material cipher with
  | some [m] => if m < 256 ^ materialBytes type then some m else none
  | _ => none

/-- SRM_KEY_IMPORT (R576). A ciphertext that does not unwrap to a key of the type completes with ST_AUTH (assumption 18, DESIGN
CHOICE). -/
def execSrmKeyImport (c : Cmd) (slot type kekSlot keyId attr cipher : Nat) (s : State) : Host.Outcome State Fault Refusal :=
  runCommand { op := 0x0D06, pf0 := false, buf := true, need := some (cipherLen type) } c s fun _ sys r =>
    match r.newKeyRefused c.fn slot type keyId attr with
    | some st => (sys, r, .status st)
    | none =>
      match r.usable c.fn kekSlot 7 with
      | (r, .error st) => (sys, r, .status st)
      | (r, .ok kek) =>
        match unwrapped kek type cipher with
        | some m =>
          let (g, r) := r.random 32
          let k : Key := { type := type, keyId := keyId, gen := g, attr := setDevice attr 0, material := m }
          let r := r.loadKey slot k
          (sys, r, .done (r.blobReply sys.serial slot k))
        | none => (sys, r, .status .auth)

/-- The octets of the point that a peer of a private key sends. -/
def Strong.peerLen (s : Strong) (slot : Nat) : Nat :=
  match s.key slot with | some k => if k.type = 4 then pointLen256 else pointLen384 | none => pointLen256

/-- SRM_KEY_DERIVE (R576). A peer point that is no point of the curve completes with ST_RANGE (assumption 18, DESIGN CHOICE). -/
def execSrmKeyDerive (c : Cmd) (slot privSlot keyId attr peer : Nat) (s : State) : Host.Outcome State Fault Refusal :=
  runCommand { op := 0x0D07, pf0 := false, buf := true, need := some (s.run.srm.peerLen privSlot) } c s fun _ sys r =>
    match r.newKeyRefused c.fn slot 2 keyId attr with
    | some st => (sys, r, .status st)
    | none =>
      if !derivedAttrOk attr then (sys, r, .status .srmAttr)
      else match r.usable c.fn privSlot 6 with
        | (r, .error st) => (sys, r, .status st)
        | (r, .ok priv) =>
          match Config.ecdh priv.material peer with
          | none => (sys, r, .status .range)
          | some z =>
            let (g, r) := r.random 32
            let m := Config.hmac z [label [0x53, 0x52, 0x4D, 0x49, 0x4D, 0x50], sys.serial, keyId, 1]
            let k : Key := { type := 2, keyId := keyId, gen := g, attr := setDevice attr 0, material := m }
            let r := r.loadKey slot k
            (sys, r, .done (r.blobReply sys.serial slot k))

/-! ### Replacement (R579 to R581) -/

/-- Where the new key of a replacement comes from. -/
def Run.replacement (r : Run) (c : Cmd) (old : Key) (source kekSlot keyId : Nat) (blob : Blob) (cipher serial : Nat) :
    Run × Except Status Key :=
  let gen := (old.gen + 1) % 2 ^ 32
  match source with
  | 0 => match r.srm.openBlob serial blob with
    | some k => (r, .ok { k with gen := gen })
    | none => (r.blobFail, .error .srmBlob)
  | 1 =>
    if isPublic old.type ∨ old.type = 8 then (r, .error .range)
    else if r.srm.trngFail then (r, .error .srmTrng)
    else let (k, r) := r.generate old.type keyId old.attr; (r, .ok { k with gen := gen })
  | 2 => match r.usable c.fn kekSlot 7 with
    | (r, .error st) => (r, .error st)
    | (r, .ok kek) => match unwrapped kek old.type cipher with
      | some m => (r, .ok { type := old.type, keyId := keyId, gen := gen, attr := setDevice old.attr 0, material := m })
      | none => (r, .error .auth)
  | _ => (r, .error .range)

/-- A replacement in progress goes on to step `reach`; at step 5 it completes. While power fails only a COMMIT write in
progress ends (R580).
DEDUCED, assumption 44: unsafe. -/
def Run.continueReplace (r : Run) (sys : Sys) (x : Replace) (reach : Nat) : Run :=
  let reach := if sys.pwrfailAt.isSome then (if x.step = 3 then min reach 4 else x.step) else reach
  if reach ≤ x.step then r
  else
    let r := r.replaceTo x reach
    if 5 ≤ reach then r.finish x.fn x.cseq (r.blobReply x.serial x.slot x.new) else r

/-- A replacement verified (step 1) goes on: without PERSIST it switches and ends at once. -/
def Run.startReplace (r : Run) (x : Replace) (reach : Nat) : Run × Answer :=
  if !x.new.attr.testBit 35 then
    let r := (r.modSrm fun s => s.withSlots (tabSet s.slots x.slot x.new)).replaced x.slot x.new
    (r, .done (r.blobReply x.serial x.slot x.new))
  else
    let r := (r.modSrm fun s => { s with replaces := s.replaces ++ [{ x with step := 1 }] }).replaceTo x reach
    (r, if 5 ≤ reach then .done (r.blobReply x.serial x.slot x.new) else .wait)

/-- The replacement a command has in progress; that of the Cellar log key is CEL_CLEAR's. -/
def Strong.replacing (s : Strong) (fn : Nat) (cseq : Word) : Option Replace :=
  s.replaces.find? fun x => x.fn == fn && x.cseq == cseq && decide (8 ≤ x.slot)

/-- The bytes of its buffer that SRM_KEY_REPLACE takes: a blob, or the ciphertext of a key of the slot's type. -/
def Strong.sourceLen (s : Strong) (slot source : Nat) (blob : Blob) : Nat :=
  if source = 0 then 64 + blob.wrappedLen else cipherLen (match s.key slot with | some k => k.type | none => 0)

/-- A slot has a replacement in progress (R581). -/
def Strong.busy (s : Strong) (slot : Nat) : Bool := s.replaces.any fun x => x.slot == slot

/-- The replacement of a command, before its first step: CREATED of the new entry is the present second. -/
def Run.replaceOf (r : Run) (sys : Sys) (c : Cmd) (slot : Nat) (old new : Key) : Replace :=
  let new := { new with created := secOf r.now }
  { fn := c.fn, cseq := c.cseq, slot := slot, new := new, oldGen := old.gen, sha := r.srm.entrySha sys.serial slot new,
    serial := sys.serial, step := 0 }

/-- SRM_KEY_REPLACE (R579 to R581). `source` 0 blob, 1 generate, 2 import; `check` is the KCV where the command carries
one; `testOk` is the outcome of the consistency or known-answer test of step 1; `reach` is the step of R579 the
replacement has completed by the end of this step, 5 when it has ended: the same row carries it on later.
DESIGN CHOICE, assumption 18: unsafe. -/
def execSrmKeyReplace (c : Cmd) (slot source kekSlot : Nat) (check : Option Nat) (keyId : Nat) (blob : Blob) (cipher : Nat)
    (testOk : Bool) (reach : Nat) (s : State) : Host.Outcome State Fault Refusal :=
  match s.run.srm.replacing c.fn c.cseq with
  | some x => whenUp s fun sys r => r.continueReplace sys x reach
  | none =>
    runCommand { op := 0x0D08, pf0 := false, buf := source != 1, need := some (s.run.srm.sourceLen slot source blob) } c s fun _ sys r =>
      match r.srm.key slot with
      | none => (sys, r, .status .srmSlot)
      | some old =>
        if slot < 8 then (sys, r, .status .srmSlot)
        else if !mayManage c.fn old.attr then (sys, r, .status .denied)
        else if r.srm.busy slot then (sys, r, .status .busy)
        else match r.replacement c old source kekSlot keyId blob cipher sys.serial with
          | (r, .error st) => (sys, r, .status st)
          | (r, .ok new) =>
            if new.type ≠ old.type ∨ setDevice new.attr 0 ≠ setDevice old.attr 0 then (sys, r, .status .srmAttr)
            else if r.srm.idTaken slot new.keyId new.attr then (sys, r, .status .srmKeyid)
            else
              let matches' := match check with | some v => v == kcv new 0 | none => true
              if !testOk || !matches' then (sys, r.srmCount 3, .status .srmVerify)
              else
                let (r, ans) := r.startReplace (r.replaceOf sys c slot old new) reach
                (sys, r, ans)

/-! ### The other key commands -/

/-- A command on a loaded slot of the manager's; `busy` where a replacement in progress refuses it. -/
def onKey (c : Cmd) (slot : Nat) (r : Run) (f : Key → Run × Answer) : Run × Answer :=
  match r.srm.key slot with
  | none => (r, .status .srmSlot)
  | some k => if mayManage c.fn k.attr then f k else (r, .status .denied)

/-- SRM_KEY_UNLOAD (R581, R589). -/
def execSrmKeyUnload (c : Cmd) (slot : Nat) (purge : Bool) (s : State) : Host.Outcome State Fault Refusal :=
  runCmd { op := 0x0D09, pf0 := false } c s fun _ r => onKey c slot r fun _ =>
    if slot < 8 then (r, .status .srmSlot)
    else if r.srm.busy slot then (r, .status .busy)
    else (r.unloadKey slot 3 purge, .ok)

/-- The bits SRM_KEY_ATTR may clear (R572): MASTERS, USAGE, STATES and EXPORTABLE. -/
def clearable : Nat := 0xFF + 0x1F * 2 ^ 16 + 0xFF * 2 ^ 24 + 2 ^ 32

/-- SRM_KEY_ATTR (R572). -/
def execSrmKeyAttr (c : Cmd) (slot bits : Nat) (s : State) : Host.Outcome State Fault Refusal :=
  runCommand { op := 0x0D0A, pf0 := false } c s fun _ sys r =>
    let (r, ans) := onKey c slot r fun k =>
      if slot < 8 then (r, .status .srmSlot)
      else if r.srm.busy slot then (r, .status .busy)
      else if bits &&& clearable ≠ bits then (r, .status .srmAttr)
      else
        let k := { k with attr := k.attr &&& ((2 ^ 64 - 1) ^^^ bits) }
        let r := (r.modSrm fun s => s.withSlots (tabSet s.slots slot k)).persist slot k
        (r, .done (r.blobReply sys.serial slot k))
    (sys, r, ans)

/-- SRM_SLOT[s] as it reads. -/
def Strong.slotWord (s : Strong) (slot : Nat) : Nat :=
  match s.key slot with
  | none => 0
  | some k =>
    k.keyId % 2 ^ 32 * 2 ^ 32 + k.type * 2 ^ 24 + 2 ^ 23 + (if s.busy slot then 2 ^ 22 else 0) +
      (if k.attr.testBit 35 then 2 ^ 21 else 0) + (if k.attr.testBit 33 then 2 ^ 20 else 0) + field k.attr 12 8 * 2 ^ 15 +
      (if k.attr.testBit 13 then 2 ^ 14 else 0) + (if k.attr.testBit 14 then 2 ^ 13 else 0)

/-- SRM_KEY_INFO (R589). -/
def execSrmKeyInfo (c : Cmd) (slot : Nat) (s : State) : Host.Outcome State Fault Refusal :=
  runCmd { op := 0x0D0B, pf0 := false } c s fun _ r => onKey c slot r fun k =>
    (r, .done { result := [(r.srm.slotWord slot : Int), k.attr, k.gen, (k.uses / 65536 : Nat)] })

/-- SRM_KEY_EXPORT (R576). -/
def execSrmKeyExport (c : Cmd) (slot kekSlot : Nat) (s : State) : Host.Outcome State Fault Refusal :=
  runCmd { op := 0x0D0C, pf0 := false } c s fun _ r => onKey c slot r fun k =>
    if slot < 8 then (r, .status .srmSlot)
    else if !k.attr.testBit 32 then (r, .status .srmAttr)
    else match r.usable c.fn kekSlot 7 with
      | (r, .error st) => (r, .status st)
      | (r, .ok kek) =>
        (r, .done { buffer := [(Config.kwpWrap kek.material [k.material] : Int)], bufLen := cipherLen k.type })

/-- The USAGE bit of an operation of SRM_CRYPT. -/
def cryptUsage : Nat → Nat
  | 0 => 0 | 1 => 1 | 2 => 2 | 3 => 3 | 4 => 2 | 5 => 3 | 6 => 4 | _ => 5

/-- An operation of SRM_CRYPT fits a key's type (Table 17.3).
DESIGN CHOICE, assumption 80: unsafe. -/
def cryptFits (op type : Nat) : Bool :=
  if op ≤ 3 then type == 1 || type == 2
  else if op ≤ 5 then type == 3
  else if op = 6 then type == 4 || type == 5
  else isPublic type

/-- What an operation of SRM_CRYPT returns: the buffer, or ST_AUTH; `iv` is the IV drawn for operations 0 and 2. -/
def cryptReply (op : Nat) (k : Key) (iv : Nat) (d : CryptData) : Answer :=
  let check (ok : Bool) : Answer := if ok then .ok else .status .auth
  match op with
  | 0 => let (t, tag) := Config.gcmEncrypt k.material iv d.aad d.text
         .done { buffer := [(iv : Int), t, tag], bufLen := d.len + 28 }
  | 1 => match Config.gcmDecrypt k.material d.iv d.aad d.text d.tag with
         | some t => .done { buffer := [(t : Int)], bufLen := d.len }
         | none => .status .auth
  | 2 => .done { buffer := [(iv : Int), Config.gmac k.material iv [d.text]], bufLen := 28 }
  | 3 => check (Config.gmac k.material d.iv [d.text] == d.tag)
  | 4 => .done { buffer := [(Config.hmac k.material [d.text] : Int)], bufLen := 32 }
  | 5 => check (Config.hmac k.material [d.text] == d.tag)
  | 6 => .done { buffer := [(Config.ecdsaSign k.material [d.text] : Int)], bufLen := if k.type = 4 then 64 else 96 }
  | _ => check (Config.ecdsaVerify k.material [d.text] d.tag)

/-- SRM_CRYPT (R567, R570). A key of a type the operation does not take meets ST_SRM_ATTR (assumption 18, DESIGN CHOICE). -/
def execSrmCrypt (c : Cmd) (slot op : Nat) (d : CryptData) (s : State) : Host.Outcome State Fault Refusal :=
  runCmd { op := 0x0D0D, pf0 := false, buf := true, need := some d.len } c s fun _ r =>
    if 8 ≤ op ∨ 65536 < d.len then (r, .status .range)
    else match r.srm.key slot with
      | none => (r, .status .srmSlot)
      | some k =>
        if slot < 8 then (r, .status .srmSlot)
        else if !r.srm.commandServes k c.fn (cryptUsage op) || !cryptFits op k.type then (r.srmCount 1, .status .srmAttr)
        else if op = 0 ∨ op = 2 then
          if r.srm.trngFail then (r, .status .srmTrng)
          else if 2 ^ 32 ≤ k.uses then (r, .status .srmLimit)
          else
            let (iv, r) := r.random 96
            ((r.srmCount 0).countUse slot k, cryptReply op k iv d)
        else (r.srmCount 0, cryptReply op k 0 d)

/-- SRM_RANDOM (R589). -/
def execSrmRandom (c : Cmd) (len : Nat) (s : State) : Host.Outcome State Fault Refusal :=
  runCmd { op := 0x0D0E, pf0 := false } c s fun _ r =>
    if len < 1 ∨ 4096 < len then (r, .status .range)
    else if r.srm.trngFail then (r, .status .srmTrng)
    else
      let (v, r) := r.random (8 * len)
      (r, .done { buffer := [(v : Int)], bufLen := len })

/-! ### Statements (R585 to R587) -/

/-- The header of a statement (Table 17.11). -/
def Run.statementHead (r : Run) (sys : Sys) (kind nonce bodyLen : Nat) : List Nat :=
  [0x54535253, 1, kind, r.srm.lc.code, sys.serial, nonce, secOf r.now, nsOf r.now, r.epoch.toNat, bodyLen]

/-- A statement with its signature by the identity key. -/
def Run.statement (r : Run) (fields : List Nat) (len : Nat) : Answer :=
  match r.srm.key 0 with
  | none => .status .srmState
  | some k => .done { buffer := (fields ++ [Config.ecdsaSign k.material fields]).map Int.ofNat, bufLen := len }

/-- PUBLIC of a key's statement, 97 bytes of which the first is the most significant (Table 17.11): a P-384 point, a P-256 point with
zeros behind it, or a KCV `v` in the first 16. -/
def publicField (k : Key) (v : Nat) : Nat :=
  let point := if isPublic k.type then k.material else Config.ecPublic k.material
  if k.type = 5 ∨ k.type = 7 then point
  else if k.type = 4 ∨ k.type = 6 then point * 256 ^ 32
  else v * 256 ^ 81

/-- SRM_ATTEST_KEY (R585, R586): not in SCRAPPED, where the identity key signs device statements only (Table 17.1). R586 gives
a verifier no KCV: that field is free.
DESIGN CHOICE, assumption 80: unsafe. -/
def execSrmAttestKey (c : Cmd) (slot nonce : Nat) (s : State) : Host.Outcome State Fault Refusal :=
  runCommand { op := 0x0D0F, pf0 := false } c s fun _ sys r =>
    let (r, ans) := onKey c slot r fun k =>
      if r.srm.lc = .scrapped ∨ r.srm.lc = .blank then (r, .status .srmState)
      else
        let (v, r) := if k.type = 8 then r.random 128 else (kcv k nonce, r)
        (r, r.statement (r.statementHead sys 1 nonce 128 ++ [slot, k.type, k.keyId, k.attr, k.gen, publicField k v]) 288)
    (sys, r, ans)

/-- SRM_ATTEST_DEVICE (R585). -/
def execSrmAttestDevice (c : Cmd) (nonce : Nat) (s : State) : Host.Outcome State Fault Refusal :=
  runQuery { op := 0x0D10, pf0 := false } c s fun _ sys r =>
    if r.srm.lc = .blank then .status .srmState
    else r.statement (r.statementHead sys 2 nonce 256 ++
      [Config.firmwareHash sys.boot.imageB, Config.coreFirmwareHash, Config.catalogueHash, r.srm.ownerHash,
       if sys.boot.imageB then 1 else 0, if r.srm.debug then 1 else 0, 0x0301B000]) 416

/-- The factory endorsement of the identity point that the device holds (R587): the factory key's signature over "OXZID", the serial
number and the point. -/
def endorsement (serial point : Nat) : Nat :=
  Config.ecdsaSign Config.factorySecret [label [0x4F, 0x58, 0x5A, 0x49, 0x44], serial, point]

/-- SRM_IDENTITY (R587): absent in BLANK (Table 17.1). -/
def execSrmIdentity (c : Cmd) (s : State) : Host.Outcome State Fault Refusal :=
  runQuery { op := 0x0D11, pf0 := false } c s fun _ sys r =>
    match r.srm.key 0 with
    | some k =>
      if r.srm.lc = .blank then .status .srmState
      else
        let point := Config.ecPublic k.material
        .done { buffer := [(point : Int), endorsement sys.serial point], bufLen := 193 }
    | none => .status .srmState

/-- A debug unlock (R588): every slot whose MASTERS lacks bit 7 is erased from RAM, the store stays; a replacement in progress on such a
slot ends, and a clear under way with the log key's. -/
def Run.debugUnlock (r : Run) : Run :=
  let stays (e : Nat × Key) : Bool := e.2.attr.testBit 7
  let r := r.cancelClear.dropReplaces fun x => !stays (x.slot, x.new)
  let n := (r.srm.slots.filter fun e => !stays e).length
  (r.modSrm fun s => ({ s with debug := true }).withSlots (s.slots.filter stays)).raise
    { ev := .srmDebug, source := 836, data := [(n % 65536 : Nat)] }

/-- SRM_DEBUG_UNLOCK (R588): in SECURED, where JTAG is locked.
DESIGN CHOICE, assumption 80: unsafe. -/
def execSrmDebugUnlock (c : Cmd) (sig : Nat) (s : State) : Host.Outcome State Fault Refusal :=
  runCommand { op := 0x0D12, pf0 := true, buf := true, need := some sigLen384 } c s fun _ sys r =>
    let alive := r.insts.any fun i => i.phase == .active || i.phase == .shed
    if alive then (sys, r, .status .state)
    else if r.srm.lc ≠ .secured then (sys, r, .status .srmState)
    else
      let msg (nonce : Nat) := [label [0x44, 0x42, 0x47, 0x55, 0x4E, 0x4C], sys.serial, nonce]
      match r.lcCheck ((r.srm.key 5).map (·.material)) msg sig with
      | some st => (sys, r, .status st)
      | none => (sys, r.debugUnlock, .ok)

end Sys2Proof.Machine
end

