-- ==== Sys2Proof/Machine/Time.lean ====
section
/-! DEFINITION. The steps of chapter 6. -/

namespace Sys2Proof.Machine

/-- PTP_SYNC_RECEIVE (R202 to R209). -/
def execPtpSyncReceive (m : SyncMsg) (dt : Nat) (s : State) : Host.Outcome State Fault Refusal :=
  whenUp s fun _ r => (r.pass dt).sync m

/-- PTP_ANNOUNCE_RECEIVE (R214, R208, R223). -/
def execPtpAnnounceReceive (m : AnnounceMsg) (dt : Nat) (s : State) : Host.Outcome State Fault Refusal :=
  whenUp s fun _ r => (r.pass dt).announce m

/-- PTP_SYNC_SEND (R214, R215): a master port sends Sync and Announce, once per second.
PRESUMED, assumption 78: unsafe. -/
def execPtpSyncSend (port dt : Nat) (s : State) : Host.Outcome State Fault Refusal :=
  whenRunning s fun _ r =>
    let r := r.pass dt
    let (n, due) : Nat × Bool := match tabGet r.tsu.syncSent port with
      | none => (0, true)
      | some (n, t) => ((n + 1) % 65536, decide (t + 1000000000 ≤ r.now))
    if !r.isMaster port || !(r.port port).link || !due then r
    else
      let r := r.modTsu fun t => { t with syncSent := tabSet t.syncSent port (n, r.now) }
      let r := r.sendPtp port 0x011B19000000 64 (.ptp 0 r.tsu.domainOf n 0)
      r.sendPtp port 0x011B19000000 (if r.tsu.regs.profile = 1 then 104 else 82) (.announce r.tsu.masterData)

/-- A port takes part in the peer delay mechanism (R216). -/
def Run.pdelayPort (r : Run) (port : Nat) : Bool :=
  decide (port < 64) && (r.tsu.regs.ptpPorts.contains port || r.tsu.regs.tcEn) && (r.port port).link

/-- PDELAY_REQ_RECEIVE (R216): the port answers. What the answer's correctionField holds is not stated (assumption 1, DESIGN CHOICE).
DEDUCED, assumption 78: unsafe. -/
def execPdelayReqReceive (port domain seqId dt : Nat) (s : State) : Host.Outcome State Fault Refusal :=
  whenRunning s fun _ r =>
    let r := r.pass dt
    if r.pdelayPort port then
      let (v, r) := r.takeFree 64
      r.sendPtp port 0x0180C200000E 72 (.ptp 3 domain seqId v.toInt)
    else r

/-- meanLinkDelay of one exchange of peer delay messages, in ns (R216): half of what the turn-round of the peer and the
corrections leave of the time from the request's leaving to the answer's arrival.
PRESUMED, assumption 78: unsafe. -/
def Run.meanLinkDelay (r : Run) (port : Nat) (x : PdelayTimes) : Rat :=
  let t1 : Int := r.txStamp port x.t1
  let t4 : Int := r.rxStamp port x.t4
  (((t4 - t1) - (x.t3 - x.t2) : Int) - (x.correction : Rat) / 65536) / 2

/-- PDELAY_MEASURE (R216): once per second a port sends Pdelay_Req and measures its meanLinkDelay from the answer.
DEDUCED, assumption 78: unsafe. -/
def execPdelayMeasure (port : Nat) (x : PdelayTimes) (dt : Nat) (s : State) : Host.Outcome State Fault Refusal :=
  whenRunning s fun _ r =>
    let r := r.pass dt
    let (n, due) : Nat × Bool := match tabGet r.tsu.pdelayAt port with
      | none => (0, true)
      | some (n, t) => ((n + 1) % 65536, decide (t + 1000000000 ≤ r.now))
    if r.pdelayPort port && due then
      let r := r.sendPtp port 0x0180C200000E 72 (.ptp 2 r.tsu.domainOf n 0)
      r.modTsu fun t => { t with
        linkDelay := tabSet t.linkDelay port (r.meanLinkDelay port x), pdelayAt := tabSet t.pdelayAt port (n, r.now) }
    else r

/-- PPS_IN_EDGE (R202, R218): `falling` says which edge; IN_POL selects the active one. -/
def execPpsInEdge (falling : Bool) (dt : Nat) (s : State) : Host.Outcome State Fault Refusal :=
  whenUp s fun _ r =>
    let r := r.pass dt
    if falling = r.tsu.regs.inPol then r.ppsEdge else r

/-- IRIG_FRAME (R219 to R221). -/
def execIrigFrame (m : IrigMsg) (dt : Nat) (s : State) : Host.Outcome State Fault Refusal :=
  whenUp s fun _ r => (r.pass dt).irigFrame m

/-- REFERENCE_LOSS (R208, R209). -/
def execReferenceLoss (dt : Nat) (s : State) : Host.Outcome State Fault Refusal :=
  whenUp s fun _ r => (r.pass dt).referenceLoss

/-- HOLD_TIMER_EXPIRY (R210): HOLDOVER 10 s after the loss. -/
def execHoldTimerExpiry (dt : Nat) (s : State) : Host.Outcome State Fault Refusal :=
  whenUp s fun _ r =>
    (r.pass dt).settleHold

/-- LEAP_SECOND (R223). -/
def execLeapSecond (dt : Nat) (s : State) : Host.Outcome State Fault Refusal :=
  whenUp s fun _ r =>
    let r := r.pass dt
    if r.leapDue then
      let new := r.tsu.regs.utcOffset + r.tsu.regs.leapStep
      let at' := secOf r.now * 1000000000
      (r.modTsu fun t => { t with lastLeap := some (at', t.regs.utcOffset), regs := { t.regs with
        utcOffset := new, leapPending := false, utcConfig := if t.regs.fromPtp then t.regs.utcConfig else new } }).raise
        { ev := .leap, source := 197, data := [new] }
    else r

/-- PPS_OUT_EDGE (R222): PPS_OUT rises at a whole TAI second unless OUT_GATE holds it low. -/
def execPpsOutEdge (dt : Nat) (s : State) : Host.Outcome State Fault Refusal :=
  whenUp s fun sys r =>
    let r := r.pass dt
    if sys.phase != .recovery && r.onSecond && !r.tsu.gated then
      (r.modTsu fun t => { t with ppsOut := true, ppsOutSince := secOf r.now * 1000000000 }).emit (.ball .ppsOut .high)
    else r

/-- PPS_OUT_PULSE_END (R222). -/
def execPpsOutPulseEnd (dt : Nat) (s : State) : Host.Outcome State Fault Refusal :=
  whenUp s fun _ r =>
    let r := r.pass dt
    if r.tsu.ppsOut && decide (r.tsu.ppsOutSince + r.tsu.regs.outWidth * 1000000 ≤ r.now) then
      (r.modTsu fun t => { t with ppsOut := false }).emit (.ball .ppsOut .low)
    else r

/-- SERVO_EN_FALL (R207, R209). -/
def execServoEnFall (s : State) : Host.Outcome State Fault Refusal :=
  whenUp s fun _ r => if r.tsu.regs.servoEn then r.servoOff else r

/-- SERVO_EN_RISE (R207). -/
def execServoEnRise (s : State) : Host.Outcome State Fault Refusal :=
  whenUp s fun _ r => if r.tsu.regs.servoEn then r else r.servoOn

/-- TSU_NOW_NS_READ (R201): the seconds of the same tick are latched for the function. -/
def execTsuNowNsRead (fn dt : Nat) (s : State) : Host.Outcome State Fault Refusal :=
  whenUp s fun sys r =>
    let r := r.pass dt
    if sys.phase = .recovery ∧ fn ≠ 0 then r
    else
      let (r, v) := (r.hostAccess fn).readNowNs fn
      r.emit (.readData fn 0x180008 v)

/-- TSU_TXQ_POP_READ (R226): the head entry leaves and its time is latched; an empty queue reads VALID = 0. -/
def execTsuTxqPopRead (i : Nat) (s : State) : Host.Outcome State Fault Refusal :=
  whenUp s fun _ r =>
    let (r, v) := r.readTxqPop i
    r.emit (.readData 0 (0x181000 + 0x20 * i) v)

/-- TIME_QUERY (R228; without a parent grandmasterIdentity reads 0): seconds, ns, STATE, TQ, THETA in ns, y in 2⁻⁸ ppb, grandmasterIdentity.
DEDUCED, assumption 77: unsafe. -/
def execTimeQuery (c : Cmd) (s : State) : Host.Outcome State Fault Refusal :=
  runQuery { op := 0x0400, pf0 := false } c s fun _ _ r =>
    let gm : Nat := match r.tsu.parent with | some p => p.ref.gm | none => 0
    .done { result := [(secOf r.now : Int), nsOf r.now, r.tsu.phase.code, r.tsu.tq, roundRat r.tsu.servo.theta,
                       roundRat (r.tsu.servo.y * 256), gm] }

/-- TIME_SET (R228, R6, Table 6.2). -/
def execTimeSet (c : Cmd) (sec ns : Nat) (s : State) : Host.Outcome State Fault Refusal :=
  runCmd { op := 0x0401, pf0 := true } c s fun _ r =>
    if 1000000000 ≤ ns then (r, .status .range)
    else if r.tsu.regs.src ≠ 0 then (r, .status .state)
    else
      let new := sec % 2 ^ 48 * 1000000000 + ns
      ((r.stepTo (new * 2 ^ 32) ((new : Int) - r.now)).toFreerun, .ok)

/-- TIME_REACQUIRE (R228, Table 6.2). -/
def execTimeReacquire (c : Cmd) (s : State) : Host.Outcome State Fault Refusal :=
  runCmd { op := 0x0402, pf0 := true } c s fun _ r =>
    if r.tsu.phase = .acquiring ∨ r.tsu.phase = .holdover then (r.toFreerun, .ok) else (r, .status .state)

end Sys2Proof.Machine
end

