-- ==== Sys2Proof/Machine/Tributary.lean ====
section
/-! DEFINITION. The steps of Tributary and the twin pair (R492 to R497, R652 to R656). -/

namespace Sys2Proof.Machine

/-- TRIB_SEND (R493): t_k + 100 µs has come.
DEDUCED, assumption 69: unsafe. -/
def execTribSend (dt : Nat) (s : State) : Host.Outcome State Fault Refusal :=
  whenRunning s fun _ r => (r.pass dt).settleTrib.tribSend

/-- TRIB_RECEIVE (R494): the head frame of IPORT_MIRROR, whose content `m` spells. -/
def execTribReceive (m : TribMsg) (dt : Nat) (s : State) : Host.Outcome State Fault Refusal :=
  whenRunning s fun _ r => (r.pass dt).settleTrib.tribReceive m

/-- TWIN_JOIN_END (R654): every item of types 0x02 to 0x04 that the partner holds has come (`complete`), or 4,800 P ticks have
passed. -/
def execTwinJoinEnd (complete : Bool) (dt : Nat) (s : State) : Host.Outcome State Fault Refusal :=
  whenRunning s fun _ r =>
    let r := r.pass dt
    match r.trip.trib.join with
    | some k => if complete ∨ k + 4800 ≤ r.pTickNow then r.joinEnd else r
    | none => r

/-- TRIB_TIMEOUT (R497). -/
def execTribTimeout (dt : Nat) (s : State) : Host.Outcome State Fault Refusal :=
  whenRunning s fun _ r =>
    let r := (r.pass dt).settleTrib
    let t := r.trip.trib
    match t.cfg, t.rxTick with
    | some c, some k => if t.paired && decide (k + c.timeout ≤ r.pTickNow) then r.tribLone else r
    | _, _ => r

/-- A port that may carry Tributary (R492). -/
def Switch.tribPort (w : Switch) (p : Nat) : Bool := decide (48 ≤ p) && decide (p < 64) && (w.port p).trib

/-- TRIB_SET (R492): in force from the next P tick.
DEDUCED, assumption 69: unsafe. -/
def execTribSet (c : Cmd) (twinId pairId portA : Nat) (portB : Option Nat) (key da timeout vlan : Nat) (s : State) :
    Host.Outcome State Fault Refusal :=
  runCmd { op := 0x0A04, pf0 := true } c s fun _ r =>
    if twinId = 0 ∨ 2 < twinId ∨ 65535 < pairId ∨ timeout < 3 ∨ 48 < timeout ∨ (vlan ≠ 0 ∧ (vlan % 4096 = 0 ∨ 4094 < vlan % 4096)) then (r, .status .range)
    else if !(r.sw.tribPort portA) ∨ !(portB.all fun p => r.sw.tribPort p) then (r, .status .tribPort)
    else
      let k := r.pTickNow + 1
      let r := r.settleTrib
      (r.modTrib fun t => { t with
        next := some ({ twinId := twinId, pairId := pairId, portA := portA, portB := portB, key := key, da := da, timeout := timeout,
                        vid := vlan % 4096, pcp := vlan / 8192 % 8 }, k) }, .ok)

/-- TRIB_QUERY (Table 14.9); the partner's EPOCH is in no field of a Tributary frame: a free value (assumption 30, DESIGN CHOICE). -/
def execTribQuery (c : Cmd) (s : State) : Host.Outcome State Fault Refusal :=
  runCmd { op := 0x0A05, pf0 := false } c s fun _ r =>
    let r := r.settleTrib
    let t := r.trip.trib
    let since : Nat := match t.rxTick with | some k => min (r.pTickNow - k) 65535 | none => 0
    let (e, r) := r.takeFree 32
    (r, .done { result := [t.state, ((t.cfg.map (·.twinId)).getD 0 : Nat), since, e.toNat] })

end Sys2Proof.Machine
end

