-- ==== Sys2Proof/Machine/Dispatch.lean ====
section
/-! DEFINITION. Which meaning each command and event has: one arm per constructor. -/

namespace Sys2Proof.Machine

open Sys2Proof

def exec (i : Instr) (s : State) : Host.Outcome State Fault Refusal :=
  match i with
  | .commandFetch fn octets poisoned => Sys2Proof.Machine.execCommandFetch fn octets poisoned s
  | .eventRingPost fn => Sys2Proof.Machine.execEventRingPost fn s
  | .ringHostWrite fn ring count => Sys2Proof.Machine.execRingHostWrite fn ring count s
  | .cmdEnableRise fn => Sys2Proof.Machine.execCmdEnableRise fn s
  | .cmdEnableFall fn => Sys2Proof.Machine.execCmdEnableFall fn s
  | .evtEnableRise fn => Sys2Proof.Machine.execEvtEnableRise fn s
  | .evtEnableFall fn => Sys2Proof.Machine.execEvtEnableFall fn s
  | .vnicEnableRise fn => Sys2Proof.Machine.execVnicEnableRise fn s
  | .vnicEnableFall fn => Sys2Proof.Machine.execVnicEnableFall fn s
  | .imaskWrite fn index value => Sys2Proof.Machine.execImaskWrite fn index value s
  | .registerWrite fn offset value => Sys2Proof.Machine.execRegisterWrite fn offset value s
  | .reg64LowRead fn offset => Sys2Proof.Machine.execReg64LowRead fn offset s
  | .devNop c => Sys2Proof.Machine.execDevNop c s
  | .devIdentify c => Sys2Proof.Machine.execDevIdentify c s
  | .devReplayCompletions c fromCseq => Sys2Proof.Machine.execDevReplayCompletions c fromCseq s
  | .devReplayEvents c fromEseq => Sys2Proof.Machine.execDevReplayEvents c fromEseq s
  | .devSnapshot c => Sys2Proof.Machine.execDevSnapshot c s
  | .paramGet c ids => Sys2Proof.Machine.execParamGet c ids s
  | .paramSet c records => Sys2Proof.Machine.execParamSet c records s
  | .paramDescribe c id => Sys2Proof.Machine.execParamDescribe c id s
  | .dirtyLogStart c m base length bitmapA bitmapB => Sys2Proof.Machine.execDirtyLogStart c m base length bitmapA bitmapB s
  | .dirtyLogSync c m => Sys2Proof.Machine.execDirtyLogSync c m s
  | .dirtyLogStop c m freeze => Sys2Proof.Machine.execDirtyLogStop c m freeze s
  | .devCommit c => Sys2Proof.Machine.execDevCommit c s
  | .devUnlock c => Sys2Proof.Machine.execDevUnlock c s
  | .vnicRxFrame fn descs => Sys2Proof.Machine.execVnicRxFrame fn descs s
  | .vnicTxFrame fn descs frame dmaErr => Sys2Proof.Machine.execVnicTxFrame fn descs frame dmaErr s
  | .functionLevelReset fn => Sys2Proof.Machine.execFunctionLevelReset fn s
  | .pcieLinkLoss => Sys2Proof.Machine.execPcieLinkLoss s
  | .d3hotEntry fn => Sys2Proof.Machine.execD3hotEntry fn s
  | .perstNFall => Sys2Proof.Machine.execPerstNFall s
  | .instCreate c sluice cistern ingest rank => Sys2Proof.Machine.execInstCreate c sluice cistern ingest rank s
  | .instDestroy c => Sys2Proof.Machine.execInstDestroy c s
  | .instCommit c => Sys2Proof.Machine.execInstCommit c s
  | .instStart c => Sys2Proof.Machine.execInstStart c s
  | .instStop c => Sys2Proof.Machine.execInstStop c s
  | .instReset c warm => Sys2Proof.Machine.execInstReset c warm s
  | .instResetDone n dt => Sys2Proof.Machine.execInstResetDone n dt s
  | .instSetShare c resource share => Sys2Proof.Machine.execInstSetShare c resource share s
  | .instSetRank c rank => Sys2Proof.Machine.execInstSetRank c rank s
  | .instResume c => Sys2Proof.Machine.execInstResume c s
  | .instQuery c => Sys2Proof.Machine.execInstQuery c s
  | .accountingPeriod dt => Sys2Proof.Machine.execAccountingPeriod dt s
  | .macFrameReceive port fid f v dt => Sys2Proof.Machine.execMacFrameReceive port fid f v dt s
  | .macFrameTransmit port t dt => Sys2Proof.Machine.execMacFrameTransmit port t dt s
  | .linkDown port rx dt => Sys2Proof.Machine.execLinkDown port rx dt s
  | .linkUp port speed half dt => Sys2Proof.Machine.execLinkUp port speed half dt s
  | .linkHoldExpiry port dt => Sys2Proof.Machine.execLinkHoldExpiry port dt s
  | .portEnableFall port dt => Sys2Proof.Machine.execPortEnableFall port dt s
  | .macCfgWrite port value => Sys2Proof.Machine.execMacCfgWrite port value s
  | .txThreshBaseWrite port base => Sys2Proof.Machine.execTxThreshBaseWrite port base s
  | .txThreshRestore port => Sys2Proof.Machine.execTxThreshRestore port s
  | .snapTake => Sys2Proof.Machine.execSnapTake s
  | .snapshotLatch dt => Sys2Proof.Machine.execSnapshotLatch dt s
  | .portSnapshot c mask => Sys2Proof.Machine.execPortSnapshot c mask s
  | .portThreshRestore c mask => Sys2Proof.Machine.execPortThreshRestore c mask s
  | .frameForward inp fid f dt => Sys2Proof.Machine.execFrameForward inp fid f dt s
  | .fdbEntryAge mac vid dt => Sys2Proof.Machine.execFdbEntryAge mac vid dt s
  | .nodeEntryForget pair mac dt => Sys2Proof.Machine.execNodeEntryForget pair mac dt s
  | .cisternCensus skew dt => Sys2Proof.Machine.execCisternCensus skew dt s
  | .cisternWalkDone orphans doubles dt => Sys2Proof.Machine.execCisternWalkDone orphans doubles dt s
  | .supervisionSend pair dt => Sys2Proof.Machine.execSupervisionSend pair dt s
  | .supervisionSilence pair mac b dt => Sys2Proof.Machine.execSupervisionSilence pair mac b dt s
  | .swVlanSet c vid members untagged => Sys2Proof.Machine.execSwVlanSet c vid members untagged s
  | .swFdbAdd c mac vid ports fns => Sys2Proof.Machine.execSwFdbAdd c mac vid ports fns s
  | .swFdbDel c mac vid => Sys2Proof.Machine.execSwFdbDel c mac vid s
  | .swFdbFlush c vid static => Sys2Proof.Machine.execSwFdbFlush c vid static s
  | .swFdbRead c => Sys2Proof.Machine.execSwFdbRead c s
  | .swHostVlan c m maxPcp defVid vids => Sys2Proof.Machine.execSwHostVlan c m maxPcp defVid vids s
  | .swRedSet c j mode => Sys2Proof.Machine.execSwRedSet c j mode s
  | .swNodeRead c j => Sys2Proof.Machine.execSwNodeRead c j s
  | .swCensusNow c skew => Sys2Proof.Machine.execSwCensusNow c skew s
  | .ptpSyncReceive m dt => Sys2Proof.Machine.execPtpSyncReceive m dt s
  | .ptpAnnounceReceive m dt => Sys2Proof.Machine.execPtpAnnounceReceive m dt s
  | .ptpSyncSend port dt => Sys2Proof.Machine.execPtpSyncSend port dt s
  | .pdelayReqReceive port domain seqId dt => Sys2Proof.Machine.execPdelayReqReceive port domain seqId dt s
  | .pdelayMeasure port x dt => Sys2Proof.Machine.execPdelayMeasure port x dt s
  | .ppsInEdge falling dt => Sys2Proof.Machine.execPpsInEdge falling dt s
  | .irigFrame m dt => Sys2Proof.Machine.execIrigFrame m dt s
  | .referenceLoss dt => Sys2Proof.Machine.execReferenceLoss dt s
  | .holdTimerExpiry dt => Sys2Proof.Machine.execHoldTimerExpiry dt s
  | .leapSecond dt => Sys2Proof.Machine.execLeapSecond dt s
  | .ppsOutEdge dt => Sys2Proof.Machine.execPpsOutEdge dt s
  | .servoEnFall => Sys2Proof.Machine.execServoEnFall s
  | .servoEnRise => Sys2Proof.Machine.execServoEnRise s
  | .tsuNowNsRead fn dt => Sys2Proof.Machine.execTsuNowNsRead fn dt s
  | .tsuTxqPopRead q => Sys2Proof.Machine.execTsuTxqPopRead q s
  | .timeQuery c => Sys2Proof.Machine.execTimeQuery c s
  | .timeSet c sec ns => Sys2Proof.Machine.execTimeSet c sec ns s
  | .timeReacquire c => Sys2Proof.Machine.execTimeReacquire c s
  | .ingestFrame p dt => Sys2Proof.Machine.execIngestFrame p dt s
  | .subSupervisionExpiry goose index dt => Sys2Proof.Machine.execSubSupervisionExpiry goose index dt s
  | .subSvSet c index x => Sys2Proof.Machine.execSubSvSet c index x s
  | .subGooseSet c index x => Sys2Proof.Machine.execSubGooseSet c index x s
  | .subDelete c kind index => Sys2Proof.Machine.execSubDelete c kind index s
  | .subRead c kind index => Sys2Proof.Machine.execSubRead c kind index s
  | .subKeySet c kind index keyA keyB => Sys2Proof.Machine.execSubKeySet c kind index keyA keyB s
  | .subList c kind => Sys2Proof.Machine.execSubList c kind s
  | .tickProcess n dt => Sys2Proof.Machine.execTickProcess n dt s
  | .decSyncEdge falling dt => Sys2Proof.Machine.execDecSyncEdge falling dt s
  | .cflChanSet c slot x => Sys2Proof.Machine.execCflChanSet c slot x s
  | .cflStreamSet c index x => Sys2Proof.Machine.execCflStreamSet c index x s
  | .cflCoefSet c set delay taps => Sys2Proof.Machine.execCflCoefSet c set delay taps s
  | .cflProtoLoad c proto table => Sys2Proof.Machine.execCflProtoLoad c proto table s
  | .cflBankSelect c slot bank len => Sys2Proof.Machine.execCflBankSelect c slot bank len s
  | .cflDcHold c slot hold => Sys2Proof.Machine.execCflDcHold c slot hold s
  | .cflDecSync c sec ns => Sys2Proof.Machine.execCflDecSync c sec ns s
  | .cflChanRead c slot => Sys2Proof.Machine.execCflChanRead c slot s
  | .nodeDispatch dt => Sys2Proof.Machine.execNodeDispatch dt s
  | .jobFinish n node gen cancelOut dt => Sys2Proof.Machine.execJobFinish n node gen cancelOut dt s
  | .budgetAbort n node gen dt => Sys2Proof.Machine.execBudgetAbort n node gen dt s
  | .graphExchange n dt => Sys2Proof.Machine.execGraphExchange n dt s
  | .exchangeTimeout n dt => Sys2Proof.Machine.execExchangeTimeout n dt s
  | .slcGraphLoad c octets sig image => Sys2Proof.Machine.execSlcGraphLoad c octets sig image s
  | .slcGraphUnload c => Sys2Proof.Machine.execSlcGraphUnload c s
  | .slcAdmitCheck c => Sys2Proof.Machine.execSlcAdmitCheck c s
  | .slcCancel c node => Sys2Proof.Machine.execSlcCancel c node s
  | .slcTrigger c bind => Sys2Proof.Machine.execSlcTrigger c bind s
  | .slcNodeRead c node => Sys2Proof.Machine.execSlcNodeRead c node s
  | .slcChainRead c ident => Sys2Proof.Machine.execSlcChainRead c ident s
  | .grpForce c sel group => Sys2Proof.Machine.execGrpForce c sel group s
  | .grpRelease c sel => Sys2Proof.Machine.execGrpRelease c sel s
  | .grpQuery c => Sys2Proof.Machine.execGrpQuery c s
  | .cleCycle n task dt => Sys2Proof.Machine.execCleCycle n task dt s
  | .cleEmptyJob n task dt => Sys2Proof.Machine.execCleEmptyJob n task dt s
  | .cleCycleFault n task dt => Sys2Proof.Machine.execCleCycleFault n task dt s
  | .retainCheckpoint dt => Sys2Proof.Machine.execRetainCheckpoint dt s
  | .cleProgLoad c octets sig image => Sys2Proof.Machine.execCleProgLoad c octets sig image s
  | .cleProgUnload c => Sys2Proof.Machine.execCleProgUnload c s
  | .cleTaskMode c index mode => Sys2Proof.Machine.execCleTaskMode c index mode s
  | .cleTaskStart c index warm => Sys2Proof.Machine.execCleTaskStart c index warm s
  | .cleTaskStep c index => Sys2Proof.Machine.execCleTaskStep c index s
  | .cleVarRead c index addr len => Sys2Proof.Machine.execCleVarRead c index addr len s
  | .cleVarWrite c index addr octets => Sys2Proof.Machine.execCleVarWrite c index addr octets s
  | .cleTaskRead c index => Sys2Proof.Machine.execCleTaskRead c index s
  | .loopEvaluation n index dt => Sys2Proof.Machine.execLoopEvaluation n index dt s
  | .mlrLoopSet c index x => Sys2Proof.Machine.execMlrLoopSet c index x s
  | .mlrLoopDelete c index => Sys2Proof.Machine.execMlrLoopDelete c index s
  | .mlrMode c index mode value => Sys2Proof.Machine.execMlrMode c index mode value s
  | .mlrInject c index stage kind order a fStart fEnd len hold seconds tick => Sys2Proof.Machine.execMlrInject c index stage kind order a fStart fEnd len hold seconds tick s
  | .mlrInjectStop c index => Sys2Proof.Machine.execMlrInjectStop c index s
  | .mlrCapture c slot index sigA sigB points seconds tick => Sys2Proof.Machine.execMlrCapture c slot index sigA sigB points seconds tick s
  | .mlrCaptureRead c slot => Sys2Proof.Machine.execMlrCaptureRead c slot s
  | .mlrLoopRead c index => Sys2Proof.Machine.execMlrLoopRead c index s
  | .gooseRetransmit d dt => Sys2Proof.Machine.execGooseRetransmit d dt s
  | .tribSend dt => Sys2Proof.Machine.execTribSend dt s
  | .tribReceive m dt => Sys2Proof.Machine.execTribReceive m dt s
  | .twinJoinEnd complete dt => Sys2Proof.Machine.execTwinJoinEnd complete dt s
  | .tribTimeout dt => Sys2Proof.Machine.execTribTimeout dt s
  | .sofbMismatch n level cause dt => Sys2Proof.Machine.execSofbMismatch n level cause dt s
  | .offPulseStart n dt => Sys2Proof.Machine.execOffPulseStart n dt s
  | .offPulseEnd n dt => Sys2Proof.Machine.execOffPulseEnd n dt s
  | .biChange n level edge dt => Sys2Proof.Machine.execBiChange n level edge dt s
  | .latchReset l dt => Sys2Proof.Machine.execLatchReset l dt s
  | .sioSessionExpiry fn dt => Sys2Proof.Machine.execSioSessionExpiry fn dt s
  | .pubGooseSet c index x => Sys2Proof.Machine.execPubGooseSet c index x s
  | .pubSvSet c index x => Sys2Proof.Machine.execPubSvSet c index x s
  | .pubDelete c kind index => Sys2Proof.Machine.execPubDelete c kind index s
  | .pubRead c kind index => Sys2Proof.Machine.execPubRead c kind index s
  | .tribSet c twinId pairId portA portB key da timeout vid => Sys2Proof.Machine.execTribSet c twinId pairId portA portB key da timeout vid s
  | .tribQuery c => Sys2Proof.Machine.execTribQuery c s
  | .sioUnlock c password => Sys2Proof.Machine.execSioUnlock c password s
  | .sioLock c => Sys2Proof.Machine.execSioLock c s
  | .sioPasswordSet c old new => Sys2Proof.Machine.execSioPasswordSet c old new s
  | .sioCfgSet c item index value => Sys2Proof.Machine.execSioCfgSet c item index value s
  | .sioFaultClear c n sofb => Sys2Proof.Machine.execSioFaultClear c n sofb s
  | .sioQuery c sofb => Sys2Proof.Machine.execSioQuery c sofb s
  | .drRowWrite d dt => Sys2Proof.Machine.execDrRowWrite d dt s
  | .xtrigInEdge n dt => Sys2Proof.Machine.execXtrigInEdge n dt s
  | .drAutoTrigger d dt => Sys2Proof.Machine.execDrAutoTrigger d dt s
  | .drRearmExpiry d dt => Sys2Proof.Machine.execDrRearmExpiry d dt s
  | .xtrigOutPulseEnd n dt => Sys2Proof.Machine.execXtrigOutPulseEnd n dt s
  | .drcSet c index x => Sys2Proof.Machine.execDrcSet c index x s
  | .drcDelete c index => Sys2Proof.Machine.execDrcDelete c index s
  | .drcMaskSet c index test chan points => Sys2Proof.Machine.execDrcMaskSet c index test chan points s
  | .drcTrigger c index seconds ns => Sys2Proof.Machine.execDrcTrigger c index seconds ns s
  | .drcArm c index => Sys2Proof.Machine.execDrcArm c index s
  | .drcStop c index => Sys2Proof.Machine.execDrcStop c index s
  | .drcList c index => Sys2Proof.Machine.execDrcList c index s
  | .drcRead c index number first rows => Sys2Proof.Machine.execDrcRead c index number first rows s
  | .drcExport c index number => Sys2Proof.Machine.execDrcExport c index number s
  | .drcRelease c index number => Sys2Proof.Machine.execDrcRelease c index number s
  | .cellarFlushSecond dt => Sys2Proof.Machine.execCellarFlushSecond dt s
  | .cellarFlushDone tagErases err dt => Sys2Proof.Machine.execCellarFlushDone tagErases err dt s
  | .stageLossRecord dt => Sys2Proof.Machine.execStageLossRecord dt s
  | .celRead c start count bad => Sys2Proof.Machine.execCelRead c start count bad s
  | .celFlush c => Sys2Proof.Machine.execCelFlush c s
  | .celChallenge c => Sys2Proof.Machine.execCelChallenge c s
  | .celClear c slot limit sig => Sys2Proof.Machine.execCelClear c slot limit sig s
  | .lgrRead c first count => Sys2Proof.Machine.execLgrRead c first count s
  | .lgrAssign c counter inst => Sys2Proof.Machine.execLgrAssign c counter inst s
  | .lgrAdd c counter n => Sys2Proof.Machine.execLgrAdd c counter n s
  | .operatingHour dt => Sys2Proof.Machine.execOperatingHour dt s
  | .tempBinMinute tj dt => Sys2Proof.Machine.execTempBinMinute tj dt s
  | .serviceDay dt => Sys2Proof.Machine.execServiceDay dt s
  | .ledgerWrite copyB dt => Sys2Proof.Machine.execLedgerWrite copyB dt s
  | .ledgerWearCheck dt => Sys2Proof.Machine.execLedgerWearCheck dt s
  | .keyRemask dt => Sys2Proof.Machine.execKeyRemask dt s
  | .trngHealthFail test dt => Sys2Proof.Machine.execTrngHealthFail test dt s
  | .srmQuery c => Sys2Proof.Machine.execSrmQuery c s
  | .srmLcChallenge c => Sys2Proof.Machine.execSrmLcChallenge c s
  | .srmLcAdvance c target sig ownerKey fuses => Sys2Proof.Machine.execSrmLcAdvance c target sig ownerKey fuses s
  | .srmKeyGenerate c slot type keyId attr => Sys2Proof.Machine.execSrmKeyGenerate c slot type keyId attr s
  | .srmKeyLoad c slot blob => Sys2Proof.Machine.execSrmKeyLoad c slot blob s
  | .srmKeyLoadClear c slot type keyId attr material => Sys2Proof.Machine.execSrmKeyLoadClear c slot type keyId attr material s
  | .srmKeyImport c slot type kekSlot keyId attr cipher => Sys2Proof.Machine.execSrmKeyImport c slot type kekSlot keyId attr cipher s
  | .srmKeyDerive c slot privSlot keyId attr peer => Sys2Proof.Machine.execSrmKeyDerive c slot privSlot keyId attr peer s
  | .srmKeyReplace c slot source kekSlot check keyId blob cipher testOk reach => Sys2Proof.Machine.execSrmKeyReplace c slot source kekSlot check keyId blob cipher testOk reach s
  | .srmKeyUnload c slot purge => Sys2Proof.Machine.execSrmKeyUnload c slot purge s
  | .srmKeyAttr c slot bits => Sys2Proof.Machine.execSrmKeyAttr c slot bits s
  | .srmKeyInfo c slot => Sys2Proof.Machine.execSrmKeyInfo c slot s
  | .srmKeyExport c slot kekSlot => Sys2Proof.Machine.execSrmKeyExport c slot kekSlot s
  | .srmCrypt c slot op d => Sys2Proof.Machine.execSrmCrypt c slot op d s
  | .srmRandom c len => Sys2Proof.Machine.execSrmRandom c len s
  | .srmAttestKey c slot nonce => Sys2Proof.Machine.execSrmAttestKey c slot nonce s
  | .srmAttestDevice c nonce => Sys2Proof.Machine.execSrmAttestDevice c nonce s
  | .srmIdentity c => Sys2Proof.Machine.execSrmIdentity c s
  | .srmDebugUnlock c sig => Sys2Proof.Machine.execSrmDebugUnlock c sig s
  | .canFrameReceive n f sof locked tec rec' dt => Sys2Proof.Machine.execCanFrameReceive n f sof locked tec rec' dt s
  | .canFrameEnd n b e tec rec' tdcv dt => Sys2Proof.Machine.execCanFrameEnd n b e tec rec' tdcv dt s
  | .canSlotInstant n cycle slot dt => Sys2Proof.Machine.execCanSlotInstant n cycle slot dt s
  | .canSlotWindowExpiry n cycle slot dt => Sys2Proof.Machine.execCanSlotWindowExpiry n cycle slot dt s
  | .canSupervisionExpiry n b dt => Sys2Proof.Machine.execCanSupervisionExpiry n b dt s
  | .canRecoveryDone n dt => Sys2Proof.Machine.execCanRecoveryDone n dt s
  | .fbBufSet c n b x => Sys2Proof.Machine.execFbBufSet c n b x s
  | .fbSchedSet c n len window cycles => Sys2Proof.Machine.execFbSchedSet c n len window cycles s
  | .fbTx c n b data => Sys2Proof.Machine.execFbTx c n b data s
  | .fbCancel c n b onWire => Sys2Proof.Machine.execFbCancel c n b onWire s
  | .fbBufRead c n b => Sys2Proof.Machine.execFbBufRead c n b s
  | .fbRecover c n => Sys2Proof.Machine.execFbRecover c n s
  | .errorReport unit kind by' dt => Sys2Proof.Machine.execErrorReport unit kind by' dt s
  | .selfTestDone unit pass dt => Sys2Proof.Machine.execSelfTestDone unit pass dt s
  | .islandRelockTimeout island dt => Sys2Proof.Machine.execIslandRelockTimeout island dt s
  | .hkpReturn pass dt => Sys2Proof.Machine.execHkpReturn pass dt s
  | .admissionRun dt => Sys2Proof.Machine.execAdmissionRun dt s
  | .fltList c => Sys2Proof.Machine.execFltList c s
  | .fltUnitRetest c unit => Sys2Proof.Machine.execFltUnitRetest c unit s
  | .fltInject c unit kind => Sys2Proof.Machine.execFltInject c unit kind s
  | .coldStart k dt => Sys2Proof.Machine.execColdStart k dt s
  | .warmStart k dt => Sys2Proof.Machine.execWarmStart k dt s
  | .protectionStart dt => Sys2Proof.Machine.execProtectionStart dt s
  | .sysrstNFall dt => Sys2Proof.Machine.execSysrstNFall dt s
  | .porstNFall dt => Sys2Proof.Machine.execPorstNFall dt s
  | .devRestart c cold => Sys2Proof.Machine.execDevRestart c cold s
  | .devImageWrite c offset len content erased => Sys2Proof.Machine.execDevImageWrite c offset len content erased s
  | .devImageCommit c tries => Sys2Proof.Machine.execDevImageCommit c tries s
  | .devImageConfirm c => Sys2Proof.Machine.execDevImageConfirm c s
  | .devBootQuery c => Sys2Proof.Machine.execDevBootQuery c s
  | .trialBootTimeout k dt => Sys2Proof.Machine.execTrialBootTimeout k dt s
  | .autoConfirmExpiry dt => Sys2Proof.Machine.execAutoConfirmExpiry dt s
  | .pwrfailNFall lowNs dt => Sys2Proof.Machine.execPwrfailNFall lowNs dt s
  | .powerFailReset dt => Sys2Proof.Machine.execPowerFailReset dt s
  | .pwrfailNRise k dt => Sys2Proof.Machine.execPwrfailNRise k dt s
  | .aonFeedChange a b dt => Sys2Proof.Machine.execAonFeedChange a b dt s
  | .corePowerLoss dt => Sys2Proof.Machine.execCorePowerLoss dt s
  | .thermalTrip tj dt => Sys2Proof.Machine.execThermalTrip tj dt s
  | .thermalRecover k dt => Sys2Proof.Machine.execThermalRecover k dt s
  | .sramScrub bank found dt => Sys2Proof.Machine.execSramScrub bank found dt s
  | .islandPllRelock island dt => Sys2Proof.Machine.execIslandPllRelock island dt s
  | .ppsOutPulseEnd dt => Sys2Proof.Machine.execPpsOutPulseEnd dt s

end Sys2Proof.Machine
end

