-- ==== Sys2Proof/Machine/Step.lean ====
section
/-! DEFINITION. One step of the block: the command or event at the front of the queue, or one tick of the clock. -/

namespace Sys2Proof.Machine

/-- A step on an empty queue: one tick of the 250 MHz clock passes for the counter and the local time (assumption 3, DESIGN CHOICE), and a
DEC_SYNC request whose tick it reaches is reported (R304), and a Tributary configuration whose tick it reaches comes into force (R511). -/
def State.idle (s : State) : State := { s with run := (s.run.pass 1).settleDecSync.settleTrib }

/-- The block takes the command or event at the front of its queue.
DESIGN CHOICE, assumption 3: unsafe. -/
def step (s : State) : Host.Outcome State Fault Refusal :=
  match s.pending with
  | [] => .next s.idle
  | i :: rest => exec i { s with pending := rest }

/-- `s` with the command a word spells at the front of its queue; unchanged where the word spells none.
DEDUCED, assumption 33: safe. -/
def State.withFetchWord (s : State) (nbits w : Nat) : State :=
  match decodeTableWord nbits w with
  | some i => { s with pending := i :: s.pending }
  | none => s

end Sys2Proof.Machine
end

