-- ==== Sys2Proof/WellFormed.lean ====
section
/-! DEFINITION. Which commands and events are well formed: every operand lies in the field that carries it, and every function,
port, instance, channel or line that the environment names exists. -/

namespace Sys2Proof

/-- Each number lies below its bound. -/
def below (l : List (Nat × Nat)) : Bool := l.all fun e => decide (e.1 < e.2)

/-- A block of `n` octets. -/
def isBlock (n : Nat) (l : List Nat) : Bool := decide (l.length = n) && l.all fun x => decide (x < 256)

/-- The operands of a command or event fit the fields of its table, and what it names exists. -/
def Instr.wf : Instr → Bool
  | .commandFetch fn octets _ => below [(fn, 33)] && isBlock 64 octets
  | .eventRingPost fn => below [(fn, 33)]
  | .ringHostWrite fn ring _ => below [(fn, 33), (ring, 4)]
  | .cmdEnableRise fn => below [(fn, 33)]
  | .cmdEnableFall fn => below [(fn, 33)]
  | .evtEnableRise fn => below [(fn, 33)]
  | .evtEnableFall fn => below [(fn, 33)]
  | .vnicEnableRise fn => below [(fn, 33)]
  | .vnicEnableFall fn => below [(fn, 33)]
  | .imaskWrite fn index _ => below [(fn, 33), (index, 32)]
  | .registerWrite fn offset value => below [(fn, 33), (offset, 2 ^ 32), (value, 2 ^ 64)]
  | .reg64LowRead fn _ => below [(fn, 33)]
  | .devNop c => below [(c.fn, 33)]
  | .devIdentify c => below [(c.fn, 33)]
  | .devReplayCompletions c _ => below [(c.fn, 33)]
  | .devReplayEvents c _ => below [(c.fn, 33)]
  | .devSnapshot c => below [(c.fn, 33)]
  | .paramGet c _ => below [(c.fn, 33)]
  | .paramSet c _ => below [(c.fn, 33)]
  | .paramDescribe c id => below [(c.fn, 33), (id, 2 ^ 32)]
  | .dirtyLogStart c m base length bitmapA bitmapB => below [(c.fn, 33), (m, 65536), (base, 2 ^ 64), (length, 2 ^ 64), (bitmapA, 2 ^ 64), (bitmapB, 2 ^ 64)]
  | .dirtyLogSync c m => below [(c.fn, 33), (m, 65536)]
  | .dirtyLogStop c m _ => below [(c.fn, 33), (m, 65536)]
  | .devCommit c => below [(c.fn, 33)]
  | .devUnlock c => below [(c.fn, 33)]
  | .vnicRxFrame fn descs => below [(fn, 33)] && descs.all (isBlock 32)
  | .vnicTxFrame fn descs _ _ => below [(fn, 33)] && descs.all (isBlock 32)
  | .functionLevelReset fn => below [(fn, 33)]
  | .pcieLinkLoss => true
  | .d3hotEntry fn => below [(fn, 33)]
  | .perstNFall => true
  | .instCreate c sluice cistern ingest rank => below [(c.fn, 33), (sluice, 65536), (cistern, 65536), (ingest, 65536), (rank, 256)]
  | .instDestroy c => below [(c.fn, 33)]
  | .instCommit c => below [(c.fn, 33)]
  | .instStart c => below [(c.fn, 33)]
  | .instStop c => below [(c.fn, 33)]
  | .instReset c _ => below [(c.fn, 33)]
  | .instResetDone n _ => below [(n, 32)]
  | .instSetShare c resource share => below [(c.fn, 33), (resource, 256), (share, 65536)]
  | .instSetRank c rank => below [(c.fn, 33), (rank, 256)]
  | .instResume c => below [(c.fn, 33)]
  | .instQuery c => below [(c.fn, 33)]
  | .accountingPeriod _ => true
  | .macFrameReceive port _ _ _ _ => below [(port, 64)]
  | .macFrameTransmit port _ _ => below [(port, 64)]
  | .linkDown port _ _ => below [(port, 64)]
  | .linkUp port speed _ _ => below [(port, 64), (speed, 16)]
  | .linkHoldExpiry port _ => below [(port, 64)]
  | .portEnableFall port _ => below [(port, 64)]
  | .macCfgWrite port _ => below [(port, 64)]
  | .txThreshBaseWrite port base => below [(port, 64), (base, 2 ^ 9)]
  | .txThreshRestore port => below [(port, 64)]
  | .snapTake => true
  | .snapshotLatch _ => true
  | .portSnapshot c mask => below [(c.fn, 33), (mask, 2 ^ 64)]
  | .portThreshRestore c mask => below [(c.fn, 33), (mask, 2 ^ 64)]
  | .frameForward inp _ _ _ => below [(inp, 68)]
  | .fdbEntryAge mac vid _ => below [(mac, 2 ^ 48), (vid, 4096)]
  | .nodeEntryForget pair mac _ => below [(pair, 32), (mac, 2 ^ 48)]
  | .cisternCensus _ _ => true
  | .cisternWalkDone _ _ _ => true
  | .supervisionSend pair _ => below [(pair, 32)]
  | .supervisionSilence pair mac _ _ => below [(pair, 32), (mac, 2 ^ 48)]
  | .swVlanSet c vid members untagged => below [(c.fn, 33), (vid, 65536), (members, 2 ^ 68), (untagged, 2 ^ 68)]
  | .swFdbAdd c mac vid ports fns => below [(c.fn, 33), (mac, 2 ^ 48), (vid, 65536), (ports, 2 ^ 68), (fns, 2 ^ 33)]
  | .swFdbDel c mac vid => below [(c.fn, 33), (mac, 2 ^ 48), (vid, 65536)]
  | .swFdbFlush c vid _ => below [(c.fn, 33), (vid, 65536)]
  | .swFdbRead c => below [(c.fn, 33)]
  | .swHostVlan c m maxPcp defVid _ => below [(c.fn, 33), (m, 256), (maxPcp, 256), (defVid, 65536)]
  | .swRedSet c j mode => below [(c.fn, 33), (j, 256), (mode, 256)]
  | .swNodeRead c j => below [(c.fn, 33), (j, 256)]
  | .swCensusNow c _ => below [(c.fn, 33)]
  | .ptpSyncReceive _ _ => true
  | .ptpAnnounceReceive _ _ => true
  | .ptpSyncSend port _ => below [(port, 64)]
  | .pdelayReqReceive port domain seqId _ => below [(port, 64), (domain, 256), (seqId, 65536)]
  | .pdelayMeasure port _ _ => below [(port, 64)]
  | .ppsInEdge _ _ => true
  | .irigFrame _ _ => true
  | .referenceLoss _ => true
  | .holdTimerExpiry _ => true
  | .leapSecond _ => true
  | .ppsOutEdge _ => true
  | .servoEnFall => true
  | .servoEnRise => true
  | .tsuNowNsRead fn _ => below [(fn, 33)]
  | .tsuTxqPopRead q => below [(q, 16)]
  | .timeQuery c => below [(c.fn, 33)]
  | .timeSet c sec ns => below [(c.fn, 33), (sec, 2 ^ 48), (ns, 2 ^ 32)]
  | .timeReacquire c => below [(c.fn, 33)]
  | .ingestFrame _ _ => true
  | .subSupervisionExpiry _ index _ => below [(index, 65536)]
  | .subSvSet c index _ => below [(c.fn, 33), (index, 65536)]
  | .subGooseSet c index _ => below [(c.fn, 33), (index, 65536)]
  | .subDelete c kind index => below [(c.fn, 33), (kind, 256), (index, 65536)]
  | .subRead c kind index => below [(c.fn, 33), (kind, 256), (index, 65536)]
  | .subKeySet c kind index keyA keyB => below [(c.fn, 33), (kind, 256), (index, 65536), (keyA, 65536), (keyB, 65536)]
  | .subList c kind => below [(c.fn, 33), (kind, 256)]
  | .tickProcess n _ => below [(n, 32)]
  | .decSyncEdge _ _ => true
  | .cflChanSet c slot _ => below [(c.fn, 33), (slot, 65536)]
  | .cflStreamSet c index _ => below [(c.fn, 33), (index, 65536)]
  | .cflCoefSet c set delay _ => below [(c.fn, 33), (set, 256), (delay, 2 ^ 32)]
  | .cflProtoLoad c proto _ => below [(c.fn, 33), (proto, 256)]
  | .cflBankSelect c slot bank len => below [(c.fn, 33), (slot, 65536), (bank, 256), (len, 65536)]
  | .cflDcHold c slot _ => below [(c.fn, 33), (slot, 65536)]
  | .cflDecSync c sec ns => below [(c.fn, 33), (sec, 2 ^ 48), (ns, 2 ^ 32)]
  | .cflChanRead c slot => below [(c.fn, 33), (slot, 65536)]
  | .nodeDispatch _ => true
  | .jobFinish n node gen _ _ => below [(n, 32), (node, 65536), (gen, 257)]
  | .budgetAbort n node gen _ => below [(n, 32), (node, 65536), (gen, 257)]
  | .graphExchange n _ => below [(n, 32)]
  | .exchangeTimeout n _ => below [(n, 32)]
  | .slcGraphLoad c _ _ _ => below [(c.fn, 33)]
  | .slcGraphUnload c => below [(c.fn, 33)]
  | .slcAdmitCheck c => below [(c.fn, 33)]
  | .slcCancel c node => below [(c.fn, 33), (node, 65536)]
  | .slcTrigger c bind => below [(c.fn, 33), (bind, 65536)]
  | .slcNodeRead c node => below [(c.fn, 33), (node, 65536)]
  | .slcChainRead c ident => below [(c.fn, 33), (ident, 65536)]
  | .grpForce c sel group => below [(c.fn, 33), (sel, 256), (group, 256)]
  | .grpRelease c sel => below [(c.fn, 33), (sel, 256)]
  | .grpQuery c => below [(c.fn, 33)]
  | .cleCycle n task _ => below [(n, 32), (task, 256)]
  | .cleEmptyJob n task _ => below [(n, 32), (task, 256)]
  | .cleCycleFault n task _ => below [(n, 32), (task, 256)]
  | .retainCheckpoint _ => true
  | .cleProgLoad c _ _ _ => below [(c.fn, 33)]
  | .cleProgUnload c => below [(c.fn, 33)]
  | .cleTaskMode c index mode => below [(c.fn, 33), (index, 65536), (mode, 256)]
  | .cleTaskStart c index _ => below [(c.fn, 33), (index, 65536)]
  | .cleTaskStep c index => below [(c.fn, 33), (index, 65536)]
  | .cleVarRead c index addr len => below [(c.fn, 33), (index, 65536), (addr, 65536), (len, 65536)]
  | .cleVarWrite c index addr _ => below [(c.fn, 33), (index, 65536), (addr, 65536)]
  | .cleTaskRead c index => below [(c.fn, 33), (index, 65536)]
  | .loopEvaluation n index _ => below [(n, 32), (index, 65536)]
  | .mlrLoopSet c index _ => below [(c.fn, 33), (index, 65536)]
  | .mlrLoopDelete c index => below [(c.fn, 33), (index, 65536)]
  | .mlrMode c index mode _ => below [(c.fn, 33), (index, 256), (mode, 256)]
  | .mlrInject c index stage kind order _ _ _ len hold seconds tick => below [(c.fn, 33), (index, 65536), (stage, 256), (kind, 256), (order, 256), (len, 2 ^ 32), (hold, 65536), (seconds, 2 ^ 48), (tick, 65536)]
  | .mlrInjectStop c index => below [(c.fn, 33), (index, 65536)]
  | .mlrCapture c slot index sigA sigB points seconds tick => below [(c.fn, 33), (slot, 256), (index, 65536), (sigA, 256), (sigB, 256), (points, 65536), (seconds, 2 ^ 48), (tick, 65536)]
  | .mlrCaptureRead c slot => below [(c.fn, 33), (slot, 256)]
  | .mlrLoopRead c index => below [(c.fn, 33), (index, 65536)]
  | .gooseRetransmit d _ => below [(d, 512)]
  | .tribSend _ => true
  | .tribReceive _ _ => true
  | .twinJoinEnd _ _ => true
  | .tribTimeout _ => true
  | .sofbMismatch n _ cause _ => below [(n, 32), (cause, 256)]
  | .offPulseStart n _ => below [(n, 32)]
  | .offPulseEnd n _ => below [(n, 32)]
  | .biChange n _ _ _ => below [(n, 32)]
  | .latchReset l _ => below [(l, 32)]
  | .sioSessionExpiry fn _ => below [(fn, 33)]
  | .pubGooseSet c index _ => below [(c.fn, 33), (index, 65536)]
  | .pubSvSet c index _ => below [(c.fn, 33), (index, 65536)]
  | .pubDelete c kind index => below [(c.fn, 33), (kind, 256), (index, 65536)]
  | .pubRead c kind index => below [(c.fn, 33), (kind, 256), (index, 65536)]
  | .tribSet c twinId pairId portA _ key da timeout vlan => below [(c.fn, 33), (twinId, 256), (pairId, 65536), (portA, 256), (key, 65536), (da, 2 ^ 48), (timeout, 256), (vlan, 65536)]
  | .tribQuery c => below [(c.fn, 33)]
  | .sioUnlock c _ => below [(c.fn, 33)]
  | .sioLock c => below [(c.fn, 33)]
  | .sioPasswordSet c _ _ => below [(c.fn, 33)]
  | .sioCfgSet c item index value => below [(c.fn, 33), (item, 256), (index, 65536), (value, 2 ^ 32)]
  | .sioFaultClear c n _ => below [(c.fn, 33), (n, 256)]
  | .sioQuery c _ => below [(c.fn, 33)]
  | .drRowWrite d _ => below [(d, 16)]
  | .xtrigInEdge n _ => below [(n, 4)]
  | .drAutoTrigger d _ => below [(d, 16)]
  | .drRearmExpiry d _ => below [(d, 16)]
  | .xtrigOutPulseEnd n _ => below [(n, 4)]
  | .drcSet c index _ => below [(c.fn, 33), (index, 65536)]
  | .drcDelete c index => below [(c.fn, 33), (index, 65536)]
  | .drcMaskSet c index test chan _ => below [(c.fn, 33), (index, 65536), (test, 256), (chan, 65536)]
  | .drcTrigger c index seconds ns => below [(c.fn, 33), (index, 65536), (seconds, 2 ^ 48), (ns, 2 ^ 32)]
  | .drcArm c index => below [(c.fn, 33), (index, 65536)]
  | .drcStop c index => below [(c.fn, 33), (index, 65536)]
  | .drcList c index => below [(c.fn, 33), (index, 65536)]
  | .drcRead c index number first rows => below [(c.fn, 33), (index, 65536), (number, 65536), (first, 2 ^ 32), (rows, 2 ^ 32)]
  | .drcExport c index number => below [(c.fn, 33), (index, 65536), (number, 65536)]
  | .drcRelease c index number => below [(c.fn, 33), (index, 65536), (number, 65536)]
  | .cellarFlushSecond _ => true
  | .cellarFlushDone _ _ _ => true
  | .stageLossRecord _ => true
  | .celRead c start count _ => below [(c.fn, 33), (start, 2 ^ 64), (count, 2 ^ 32)]
  | .celFlush c => below [(c.fn, 33)]
  | .celChallenge c => below [(c.fn, 33)]
  | .celClear c slot limit _ => below [(c.fn, 33), (slot, 65536), (limit, 2 ^ 64)]
  | .lgrRead c first count => below [(c.fn, 33), (first, 65536), (count, 65536)]
  | .lgrAssign c counter inst => below [(c.fn, 33), (counter, 65536), (inst, 65536)]
  | .lgrAdd c counter n => below [(c.fn, 33), (counter, 65536), (n, 2 ^ 64)]
  | .operatingHour _ => true
  | .tempBinMinute _ _ => true
  | .serviceDay _ => true
  | .ledgerWrite _ _ => true
  | .ledgerWearCheck _ => true
  | .keyRemask _ => true
  | .trngHealthFail test _ => below [(test, 256)]
  | .srmQuery c => below [(c.fn, 33)]
  | .srmLcChallenge c => below [(c.fn, 33)]
  | .srmLcAdvance c target _ _ _ => below [(c.fn, 33), (target, 256)]
  | .srmKeyGenerate c slot type keyId attr => below [(c.fn, 33), (slot, 256), (type, 256), (keyId, 2 ^ 32), (attr, 2 ^ 64)]
  | .srmKeyLoad c slot _ => below [(c.fn, 33), (slot, 256)]
  | .srmKeyLoadClear c slot type keyId attr _ => below [(c.fn, 33), (slot, 256), (type, 256), (keyId, 2 ^ 32), (attr, 2 ^ 64)]
  | .srmKeyImport c slot type kekSlot keyId attr _ => below [(c.fn, 33), (slot, 256), (type, 256), (kekSlot, 256), (keyId, 2 ^ 32), (attr, 2 ^ 64)]
  | .srmKeyDerive c slot privSlot keyId attr _ => below [(c.fn, 33), (slot, 256), (privSlot, 256), (keyId, 2 ^ 32), (attr, 2 ^ 64)]
  | .srmKeyReplace c slot source kekSlot _ keyId _ _ _ _ => below [(c.fn, 33), (slot, 256), (source, 256), (kekSlot, 256), (keyId, 2 ^ 32)]
  | .srmKeyUnload c slot _ => below [(c.fn, 33), (slot, 256)]
  | .srmKeyAttr c slot bits => below [(c.fn, 33), (slot, 256), (bits, 2 ^ 64)]
  | .srmKeyInfo c slot => below [(c.fn, 33), (slot, 256)]
  | .srmKeyExport c slot kekSlot => below [(c.fn, 33), (slot, 256), (kekSlot, 256)]
  | .srmCrypt c slot op _ => below [(c.fn, 33), (slot, 256), (op, 256)]
  | .srmRandom c len => below [(c.fn, 33), (len, 65536)]
  | .srmAttestKey c slot nonce => below [(c.fn, 33), (slot, 256), (nonce, 2 ^ 128)]
  | .srmAttestDevice c nonce => below [(c.fn, 33), (nonce, 2 ^ 128)]
  | .srmIdentity c => below [(c.fn, 33)]
  | .srmDebugUnlock c _ => below [(c.fn, 33)]
  | .canFrameReceive n _ _ _ _ _ _ => below [(n, 4)]
  | .canFrameEnd n b _ _ _ _ _ => below [(n, 4), (b, 128)]
  | .canSlotInstant n cycle slot _ => below [(n, 4), (cycle, 64), (slot, 32)]
  | .canSlotWindowExpiry n cycle slot _ => below [(n, 4), (cycle, 64), (slot, 32)]
  | .canSupervisionExpiry n b _ => below [(n, 4), (b, 128)]
  | .canRecoveryDone n _ => below [(n, 4)]
  | .fbBufSet c n b _ => below [(c.fn, 33), (n, 256), (b, 256)]
  | .fbSchedSet c n len window _ => below [(c.fn, 33), (n, 256), (len, 2 ^ 32), (window, 2 ^ 32)]
  | .fbTx c n b _ => below [(c.fn, 33), (n, 256), (b, 256)]
  | .fbCancel c n b _ => below [(c.fn, 33), (n, 256), (b, 256)]
  | .fbBufRead c n b => below [(c.fn, 33), (n, 256), (b, 256)]
  | .fbRecover c n => below [(c.fn, 33), (n, 256)]
  | .errorReport unit kind _ _ => below [(unit, 2 ^ 32), (kind, 256)]
  | .selfTestDone unit _ _ => below [(unit, 2 ^ 32)]
  | .islandRelockTimeout island _ => below [(island, 31)]
  | .hkpReturn _ _ => true
  | .admissionRun _ => true
  | .fltList c => below [(c.fn, 33)]
  | .fltUnitRetest c unit => below [(c.fn, 33), (unit, 2 ^ 32)]
  | .fltInject c unit kind => below [(c.fn, 33), (unit, 2 ^ 32), (kind, 256)]
  | .coldStart k _ => below [(k.bootSel, 4)]
  | .warmStart k _ => below [(k.bootSel, 4)]
  | .protectionStart _ => true
  | .sysrstNFall _ => true
  | .porstNFall _ => true
  | .devRestart c _ => below [(c.fn, 33)]
  | .devImageWrite c offset len _ _ => below [(c.fn, 33), (offset, 2 ^ 32), (len, 2 ^ 32)]
  | .devImageCommit c tries => below [(c.fn, 33), (tries, 256)]
  | .devImageConfirm c => below [(c.fn, 33)]
  | .devBootQuery c => below [(c.fn, 33)]
  | .trialBootTimeout k _ => below [(k.bootSel, 4)]
  | .autoConfirmExpiry _ => true
  | .pwrfailNFall _ _ => true
  | .powerFailReset _ => true
  | .pwrfailNRise k _ => below [(k.bootSel, 4)]
  | .aonFeedChange _ _ _ => true
  | .corePowerLoss _ => true
  | .thermalTrip _ _ => true
  | .thermalRecover k _ => below [(k.bootSel, 4)]
  | .sramScrub bank found _ => below [(bank, 2 ^ 32), (found, 3)]
  | .islandPllRelock island _ => below [(island, 31)]
  | .ppsOutPulseEnd _ => true

end Sys2Proof
end

