-- ==== Sys2Proof/Safety.lean ====
section
/-! DEFINITION. The terms statements use: commands that may run, next states, and what every state between steps keeps. -/

namespace Sys2Proof.Machine

/-- `s` after a step that changed only what runs. -/
def State.ran (s : State) (r : Run) : State := { s with run := r }

/-- `s` after a command of `c` that left `r` and completed with `rep`. -/
def State.done (s : State) (c : Cmd) (r : Run) (rep : Reply) : State := { s with run := r.finish c.fn c.cseq rep }

/-- `s` after a command of `c` that left `r` and completes in a later step. -/
def State.waits (s : State) (c : Cmd) (r : Run) : State := { s with run := r.started c.fn c.cseq }

/-- The command of `c` may execute now as `a`: it is accepted and may start (R67), and neither recovery (R643), nor the function
(R76), nor the instance field, nor its buffer (Table 2.8) refuses it. -/
abbrev State.Ready (s : State) (k : CmdSpec) (c : Cmd) (a : Accepted) : Prop :=
  s.commandFor k c = some a ∧ k.refuses s.sys c a = none

/-- A reply fits the host buffer of its command (Table 2.8). -/
def Reply.Fits (rep : Reply) (c : Cmd) (a : Accepted) : Prop :=
  rep.bufLen = 0 ∨ (rep.bufLen ≤ a.entry.bufLen ∧ c.bufErr = false)

/-- The device is out of reset. -/
abbrev State.Up (s : State) : Prop := s.sys.phase ≠ .reset

/-- The device is out of reset and its host is linked over PCIe. -/
abbrev State.Linked (s : State) : Prop := s.sys.phase ≠ .reset ∧ s.run.flt.lasting.contains 28 = false

/-- The host reaches function `fn`: the device is out of reset and linked, and in recovery it presents PF0 only (R643). -/
abbrev State.Hosts (s : State) (fn : Nat) : Prop := s.Linked ∧ (s.sys.phase = .recovery → fn = 0)

/-- The engines run: READY has risen, and the device is not in recovery. -/
abbrev State.Running (s : State) : Prop := s.sys.phase = .ready ∨ s.sys.phase = .running

/-- What every step keeps of reset, boot and power: out of reset PORST_N and SYSRST_N are high, core power is present, no thermal
reset holds, no power-fail sequence has ended in reset, the memory is not in self-refresh and no start has stopped in boot; in reset
no power-fail sequence runs and no restart waits; PORST_N is high only with core power present; a start that has stopped in boot
is in reset with both reset inputs high and no thermal reset; the boot control block and HKP_BOOT hold values that their fields can hold; the
DR region is at most 16 GiB. -/
structure Sys.Inv (s : Sys) : Prop where
  up : s.phase ≠ .reset → s.porstN = true ∧ s.sysrstN = true ∧ s.corePower = true ∧ s.thermal = false ∧
    s.pwrfailReset = false ∧ s.selfRefresh = false ∧ s.stuck = false
  reset : s.phase = .reset → s.pwrfailAt = none ∧ s.restartAsked = none
  supply : s.porstN = true → s.corePower = true
  inBoot : s.stuck = true → s.phase = .reset ∧ s.porstN = true ∧ s.sysrstN = true ∧ s.thermal = false
  tries : s.bcb0.block.tries ≤ 7 ∧ s.bcb1.block.tries ≤ 7
  bootSel : s.boot.bootSel < 4
  readyMs : s.boot.readyMs < 65536
  drLaid : s.drLaid ≤ 16

/-! ### What a command may change -/

/-- `r'` is `r` but for the host functions, the cause bits, the W1C bits set in the tick, the Cellar, what the block has put out and
the free values used. -/
def Run.OnlyHost (r r' : Run) : Prop :=
  r' = { r with
    fns := r'.fns, cause := r'.cause, w1cSet := r'.w1cSet, w1cTick := r'.w1cTick, cel := r'.cel, out := r'.out, free := r'.free }

/-- `r'` is `r` but for what `OnlyHost` names, VF Enable and NumVFs (Table 2.1), the place of the round robin (R66), the count of
acceptances (R125), and what a read of the TSU's registers latches or takes (R201, R226). -/
def Run.OnlyInterface (r r' : Run) : Prop :=
  r' = { r with
    fns := r'.fns, cause := r'.cause, w1cSet := r'.w1cSet, w1cTick := r'.w1cTick, cel := r'.cel, out := r'.out, free := r'.free
    vfEnable := r'.vfEnable, numVfs := r'.numVfs, lastFetched := r'.lastFetched, acceptances := r'.acceptances
    tsu := { r.tsu with secLatch := r'.tsu.secLatch, txq := r'.tsu.txq } }

/-- `r'` is `r` but for what `OnlyHost` names, the counters of the Strongroom, and configuration that is staged and not in effect. -/
def Run.OnlyStaged (r r' : Run) : Prop :=
  r' = { r with
    fns := r'.fns, cause := r'.cause, w1cSet := r'.w1cSet, w1cTick := r'.w1cTick, cel := r'.cel, out := r'.out, free := r'.free
    srm := { r.srm with stat := r'.srm.stat }
    ing := { r.ing with svStaged := r'.ing.svStaged, gooseStaged := r'.ing.gooseStaged }
    cfl := { r.cfl with chanStaged := r'.cfl.chanStaged, streamStaged := r'.cfl.streamStaged }
    slc := { r.slc with insts := r'.slc.insts }
    cle := { r.cle with insts := r'.cle.insts }
    mlr := { r.mlr with staged := r'.mlr.staged }
    trip := { r.trip with gooseStaged := r'.trip.gooseStaged, svStaged := r'.trip.svStaged }
    dr := { r.dr with staged := r'.dr.staged, masksStaged := r'.dr.masksStaged } } ∧
  (∀ n, r'.slcOf n = { r.slcOf n with staged := (r'.slcOf n).staged }) ∧
  (∀ n, r'.cleOf n = { r.cleOf n with staged := (r'.cleOf n).staged })

/-- The commands and events that may change reset, boot, power and the device configuration. -/
def changesDevice : Instr → Bool
  | .coldStart .. | .warmStart .. | .protectionStart .. | .sysrstNFall .. | .porstNFall .. | .trialBootTimeout ..
  | .autoConfirmExpiry .. | .pwrfailNFall .. | .powerFailReset .. | .pwrfailNRise .. | .aonFeedChange .. | .corePowerLoss ..
  | .thermalTrip .. | .thermalRecover .. | .tempBinMinute .. | .registerWrite .. | .paramSet .. | .devCommit .. | .devUnlock ..
  | .devRestart .. | .devImageWrite .. | .devImageCommit .. | .devImageConfirm .. => true
  | _ => false

/-- The commands that read: they change nothing but what a completion changes, and replay, report or free values. -/
def onlyReads : Instr → Bool
  | .devNop .. | .devIdentify .. | .devReplayCompletions .. | .devReplayEvents .. | .devSnapshot .. | .paramGet .. | .paramDescribe ..
  | .devBootQuery .. | .instQuery .. | .swFdbRead .. | .swNodeRead .. | .timeQuery .. | .subRead .. | .subList .. | .cflChanRead ..
  | .slcAdmitCheck .. | .slcNodeRead .. | .slcChainRead .. | .grpQuery .. | .cleVarRead .. | .cleTaskRead .. | .mlrLoopRead ..
  | .pubRead .. | .tribQuery .. | .drcList .. | .drcRead .. | .drcExport .. | .celRead .. | .lgrRead .. | .srmQuery .. | .srmKeyInfo ..
  | .srmAttestKey .. | .srmAttestDevice .. | .srmIdentity .. => true
  | _ => false

/-- The commands that stage configuration for the next commit of their instance. -/
def onlyStages : Instr → Bool
  | .subSvSet .. | .subGooseSet .. | .subDelete .. | .cflChanSet .. | .cflStreamSet .. | .slcGraphLoad .. | .slcGraphUnload ..
  | .cleProgLoad .. | .cleProgUnload .. | .mlrLoopSet .. | .mlrLoopDelete .. | .pubGooseSet .. | .pubSvSet .. | .pubDelete ..
  | .drcSet .. | .drcDelete .. | .drcMaskSet .. => true
  | _ => false

/-- The events of the host interface that move entries and rings and nothing else. -/
def onlyHostInterface : Instr → Bool
  | .commandFetch .. | .eventRingPost .. | .ringHostWrite .. | .cmdEnableRise .. | .cmdEnableFall .. | .evtEnableRise .. | .evtEnableFall ..
  | .vnicEnableRise .. | .reg64LowRead .. => true
  | _ => false

/-- The commands that only PF0 may issue, with their opcodes (R76 and the command tables of the chapters). -/
def pf0Command : Instr → Option (Nat × Cmd)
  | .dirtyLogStart c .. => some (0x0108, c)
  | .dirtyLogSync c .. => some (0x0109, c)
  | .dirtyLogStop c .. => some (0x010A, c)
  | .devCommit c => some (0x010B, c)
  | .devUnlock c => some (0x010C, c)
  | .devRestart c .. => some (0x0140, c)
  | .devImageWrite c .. => some (0x0141, c)
  | .devImageCommit c .. => some (0x0142, c)
  | .devImageConfirm c => some (0x0143, c)
  | .instCreate c .. => some (0x0200, c)
  | .instDestroy c => some (0x0201, c)
  | .instStart c => some (0x0203, c)
  | .instReset c .. => some (0x0205, c)
  | .instSetShare c .. => some (0x0206, c)
  | .instSetRank c .. => some (0x0207, c)
  | .instResume c => some (0x0208, c)
  | .portSnapshot c .. => some (0x0300, c)
  | .portThreshRestore c .. => some (0x0301, c)
  | .swVlanSet c .. => some (0x0302, c)
  | .swFdbAdd c .. => some (0x0303, c)
  | .swFdbDel c .. => some (0x0304, c)
  | .swFdbFlush c .. => some (0x0305, c)
  | .swFdbRead c => some (0x0306, c)
  | .swHostVlan c .. => some (0x0307, c)
  | .swRedSet c .. => some (0x0308, c)
  | .swNodeRead c .. => some (0x0309, c)
  | .swCensusNow c .. => some (0x030A, c)
  | .timeSet c .. => some (0x0401, c)
  | .timeReacquire c => some (0x0402, c)
  | .cflProtoLoad c .. => some (0x0603, c)
  | .cflDecSync c .. => some (0x0606, c)
  | .tribSet c .. => some (0x0A04, c)
  | .sioPasswordSet c .. => some (0x0A08, c)
  | .celRead c .. => some (0x0C00, c)
  | .celFlush c => some (0x0C01, c)
  | .celChallenge c => some (0x0C02, c)
  | .celClear c .. => some (0x0C03, c)
  | .lgrAssign c .. => some (0x0C05, c)
  | .srmLcChallenge c => some (0x0D01, c)
  | .srmLcAdvance c .. => some (0x0D02, c)
  | .srmKeyLoadClear c .. => some (0x0D05, c)
  | .srmDebugUnlock c .. => some (0x0D12, c)
  | .fbBufSet c .. => some (0x0E00, c)
  | .fbSchedSet c .. => some (0x0E01, c)
  | .fbRecover c .. => some (0x0E05, c)
  | .fltList c => some (0x0F00, c)
  | .fltUnitRetest c .. => some (0x0F01, c)
  | .fltInject c .. => some (0x0F02, c)
  | _ => none

end Sys2Proof.Machine
end

