-- ==== Sys2Proof/Certificates/Slice0/Obligations.lean ====
section
/-! DEFINITION. The statements about the model. A completion statement says of each command and event of its family where it has its
own effect, and what that effect is: `s.Ready k c a` says that the command may execute now, `s.Linked`, `s.Up` and `s.Running` that
the event can reach the block. -/

open Sys2Proof Sys2Proof.Machine

/-! ### The step and the whole machine -/

/-- A step takes the command at the front of the queue and is its meaning over the rest of the queue. -/
def Obligations.StepRunsFrontCommand : Prop :=
  ∀ (s : State) (i : Instr) (rest : List Instr), s.pending = i :: rest → step s = exec i { s with pending := rest }

/-- On an empty queue one tick of the 250 MHz clock passes: local time and the counter go on, the counter's 48-bit seconds wrap
(R198), a DEC_SYNC request whose tick has come is settled (R304), and a Tributary configuration whose tick has come is in force (R511); nothing else changes (the model's choice, assumption 3). -/
def Obligations.IdleStepIsOneTick : Prop :=
  ∀ s : State, s.pending = [] →
    step s = .next { s with run := ({ s.run with
      ticks := s.run.ticks + 1,
      tsu := { s.run.tsu.noteTq s.run.now with
        counter := (s.run.tsu.counter + s.run.tsu.inc) % (2 ^ 48 * 1000000000 * 2 ^ 32) } } : Run).settleDecSync.settleTrib }

/-- Every command and event answers a next state, and none touches the queue of those that wait behind it. -/
def Obligations.EveryCommandAnswersAndKeepsTheQueue : Prop :=
  ∀ (i : Instr) (s : State), ∃ t, exec i s = .next t ∧ t.pending = s.pending

/-- The state after reset: nothing waits, the device is in reset with no supply, EPOCH and every sequence register are 0, no command
has been accepted, every instance is FREE, the TSU is in FREERUN with the nominal increment, no event source is raised and all are masked. The values that the spec does
not state are the model's (assumption 31). -/
def Obligations.ResetState : Prop :=
  State.reset.pending = [] ∧ State.reset.sys.phase = .reset ∧ State.reset.sys.corePower = false ∧ State.reset.run.epoch = 0 ∧
  (∀ fn, State.reset.run.fn fn = {}) ∧ (∀ n, (State.reset.run.inst n).phase = .free) ∧
  State.reset.run.tsu.phase = .freerun ∧ State.reset.run.tsu.inc = 0x400000000 ∧
  State.reset.run.cause = [] ∧ State.reset.run.unmasked = [] ∧ State.reset.run.protection = false

/-- The invariant of reset, boot and power holds in the state after reset. -/
def Obligations.ResetMeetsBlockInvariant : Prop := Sys.Inv State.reset.sys

/-- Every step keeps the invariant of reset, boot and power, from every state that meets it: out of reset PORST_N, SYSRST_N and
core power are present, no thermal reset, power-fail reset or self-refresh holds; a device in reset runs no power-fail sequence; TRIES,
BOOT_SEL and READY_MS fit their fields; the DR region is at most 16 GiB. -/
def Obligations.StepKeepsBlockInvariant : Prop :=
  ∀ s t : State, Sys.Inv s.sys → step s = .next t → Sys.Inv t.sys

/-! ### Chapter 2: the host interface -/

/-- The doorbells and ring enables (R50 to R53, R92).
Choices of the model behind these rows: assumptions 36, 64. -/
def Obligations.RingRowsComplete : Prop :=
  (∀ (s : State) (fn ring : Nat) (count : Word), s.Hosts fn → fn < 33 → ring < 4 →
      ((s.run.fn fn).ring ring).badCount ring count = false →
      exec (.ringHostWrite fn ring count) s =
        .next (s.ran ((s.run.hostAccess fn).modFn fn fun f => f.setRing ring { (s.run.fn fn).ring ring with host := count }))) ∧
  (∀ (s : State) (fn : Nat), s.Hosts fn → (s.run.fn fn).cmdEn = false → fn < 33 →
      exec (.cmdEnableRise fn) s =
        .next (s.ran ((s.run.hostAccess fn).modFn fn fun f => if f.cmdEn then f else { f with cmdEn := true, ring0 := f.ring0.enabled }))) ∧
  (∀ (s : State) (fn : Nat), s.Up → fn < 33 →
      exec (.cmdEnableFall fn) s =
        .next (s.ran (s.run.modFn fn fun f => { f with cmdEn := false, seqStall := false, ring0 := f.ring0.disabled }))) ∧
  (∀ (s : State) (fn : Nat), s.Hosts fn → (s.run.fn fn).evtEn = false → fn < 33 →
      exec (.evtEnableRise fn) s =
        .next (s.ran ((s.run.hostAccess fn).modFn fn fun f => if f.evtEn then f else { f with evtEn := true, ring1 := f.ring1.enabled }))) ∧
  (∀ (s : State) (fn : Nat), s.Up → fn < 33 →
      exec (.evtEnableFall fn) s =
        .next (s.ran (s.run.modFn fn fun f => { f with evtEn := false, ring1 := f.ring1.disabled }))) ∧
  (∀ (s : State) (fn : Nat), s.Hosts fn → (s.run.fn fn).vnicEn = false → fn < 33 →
      exec (.vnicEnableRise fn) s =
        .next (s.ran ((s.run.hostAccess fn).modFn fn fun f =>
          if f.vnicEn then f else { f with vnicEn := true, ring2 := f.ring2.enabled, ring3 := f.ring3.enabled }))) ∧
  (∀ (s : State) (fn : Nat), s.Up → fn < 33 →
      exec (.vnicEnableFall fn) s =
        .next (s.ran ((s.run.modFn fn fun f =>
          { f with vnicEn := false, ring2 := f.ring2.disabled, ring3 := f.ring3.disabled }).dropHost fn)))

/-- The entry that the device takes of a command ring: it counts up MBX_RING_DEV, MBX_SEQ[0] becomes its CSEQ and it joins the
accepted commands (R65, R66); the oldest entry that waits is posted to the event ring at the slot and phase of its count (R56, R70).
Choices of the model behind these rows: assumptions 33, 75, 94, 99, 100. -/
def Obligations.IntakeAndPostingComplete : Prop :=
  (∀ (s : State) (fn : Nat) (octets : List Nat), s.Up → fn < 33 → s.run.mayFetch s.sys fn = true →
      let e := entryOf octets
      e.cseq = (s.run.fn fn).cseqAccepted + 1 →
      exec (.commandFetch fn octets false) s =
        .next (s.ran (((({ s.run with lastFetched := fn, acceptances := s.run.acceptances + 1 } : Run).modFn fn fun f =>
            { f with ring0 := { f.ring0 with dev := f.ring0.dev + 1 } }).modFn fn fun f =>
          { f with cseqAccepted := e.cseq,
                   accepted := f.accepted ++ [Accepted.mk e (targetOf fn e)
                     (match targetOf fn e with | some n => (s.run.inst n).gen | none => 0) false s.run.acceptances] }).sweep 256 fn))) ∧
  (∀ (s : State) (fn : Nat) (p : Post) (rest : List Post), s.Up → (s.run.fn fn).post = p :: rest → s.run.mayPost fn = true →
      exec (.eventRingPost fn) s =
        .next (s.ran (
          let g := (s.run.fn fn).ring1
          let r := match p with | .completion c false => s.run.writeLate fn c | _ => s.run
          let r := r.modFn fn fun f => { f with
            post := rest, ring1 := { g with dev := g.dev + 1 },
            eseqPosted := match p with | .event e false => e.eseq | _ => f.eseqPosted }
          let r := (r.emit (.ringEntry fn g.slot g.phase p)).dma fn (g.base + 64 * g.slot) 64
          match p with
          | .completion c _ | .rejected c => if c.quiet then r else r.raiseSource fn (compSource fn)
          | _ => r)))

/-- Registers written and read by the host that have rows of their own, and the rest of them (R7, R11, R62, R135, R145, R155, R201,
R226).
Choices of the model behind these rows: assumptions 36, 48, 52, 64, 94, 95. -/
def Obligations.RegisterRowsComplete : Prop :=
  (∀ (s : State) (fn index : Nat) (value : Word), s.Hosts fn → fn < 33 → index < 32 →
      exec (.imaskWrite fn index value) s =
        .next (s.ran ((List.range 32).foldl (fun (r : Run) j =>
          if s.run.routedTo s.run.ownSources fn (32 * index + j) then r.maskBit fn (32 * index + j) (value.getLsbD j) else r)
          (s.run.hostAccess fn)))) ∧
  (∀ (s : State) (fn offset value : Nat), s.Hosts fn → ¬ (fn = 0 ∧ offset = 0x100008) →
      exec (.registerWrite fn offset value) s = .next (s.ran (s.run.writeReg s.sys.locked fn offset value))) ∧
  (∀ (s : State) (value : Nat), s.Linked →
      exec (.registerWrite 0 0x100008 value) s =
        .next { s with sys := { s.sys with tripped := s.sys.tripped && !value.testBit 31 } }) ∧
  (∀ (s : State) (fn offset v : Nat), s.Hosts fn → (s.run.hostAccess fn).reg64 fn offset = some v → ¬ (fn = 0 ∧ 0x180000 ≤ offset ∧ offset < 0x1A0000) →
      exec (.reg64LowRead fn offset) s =
        .next (s.ran (((s.run.hostAccess fn).modFn fn fun f => { f with latch := tabSet f.latch offset (v / 2 ^ 32 % 2 ^ 32) }).emit
          (.readData fn offset (v % 2 ^ 32))))) ∧
  (∀ (s : State) (fn offset v : Nat), s.Hosts fn → (s.run.hostAccess fn).reg64 fn (offset + 4) = none → ¬ (fn = 0 ∧ 0x180000 ≤ offset ∧ offset < 0x1A0000) →
      offset % 8 = 0 → tabGet (s.run.fn fn).latch offset = some v →
      exec (.reg64LowRead fn (offset + 4)) s =
        .next (s.ran (((s.run.hostAccess fn).modFn fn fun f => { f with latch := tabDel f.latch offset }).emit
          (.readData fn (offset + 4) v)))) ∧
  (∀ (s : State) (fn offset : Nat), s.Hosts fn → (s.run.hostAccess fn).reg64 fn offset = none → ¬ (fn = 0 ∧ 0x180000 ≤ offset ∧ offset < 0x1A0000) →
      offset % 8 = 0 →
      exec (.reg64LowRead fn offset) s =
        .next (s.ran ((s.run.hostAccess fn).emit (.readData fn offset (reg32 s.sys (s.run.hostAccess fn) fn offset))))) ∧
  (∀ s : State, s.Linked →
      let sec := (tabGet s.run.tsu.secLatch 0).getD (secOf s.run.now) % 2 ^ 48
      exec (.reg64LowRead 0 0x180010) s =
        .next (s.ran (((s.run.modFn 0 fun f => { f with latch := tabSet f.latch 0x180010 (sec / 2 ^ 32 % 2 ^ 32) }).modTsu fun t =>
          { t with secLatch := tabDel t.secLatch 0 }).emit (.readData 0 0x180010 (sec % 2 ^ 32))))) ∧
  (∀ (s : State) (n : Nat) (value : Word), s.Up → n < 64 → macCfgBad n value.toNat = false → s.sys.locked = false →
      let r := (s.run.modPort n fun p => { p with
            maxFrame := field value.toNat 27 16, fec := if 60 ≤ n then field value.toNat 11 10 else 0, mode := field value.toNat 7 4 }).modPort n
          fun p => { p with tsEn := value.toNat.testBit 3, loopback := value.toNat.testBit 2 }
      exec (.macCfgWrite n value) s =
        .next (s.ran (if value.toNat.testBit 31 then r.modPort n fun p => { p with enable := true }
          else if (s.run.port n).enable then r.portDisable n else r))) ∧
  (∀ (s : State) (n : Nat) (value : Word), s.Up → n < 64 → macCfgBad n value.toNat = false → s.sys.locked = true →
      let same := decide ((s.run.port n).maxFrame = field value.toNat 27 16 ∧
        (s.run.port n).fec = (if 60 ≤ n then field value.toNat 11 10 else 0) ∧ (s.run.port n).mode = field value.toNat 7 4)
      let r := (if same then s.run else s.run.lockedWrite 0 (0x00160000 + 0x400 * n)).modPort n
          fun p => { p with tsEn := value.toNat.testBit 3, loopback := value.toNat.testBit 2 }
      exec (.macCfgWrite n value) s =
        .next (s.ran (if value.toNat.testBit 31 then r.modPort n fun p => { p with enable := true }
          else if (s.run.port n).enable then r.portDisable n else r))) ∧
  (∀ (s : State) (n base : Nat), s.Up → threshOk base = true →
      exec (.txThreshBaseWrite n base) s = .next (s.ran (s.run.modPort n fun p => { p with base := base, cur := base }))) ∧
  (∀ (s : State) (n : Nat), s.Up →
      exec (.txThreshRestore n) s = .next (s.ran (s.run.modPort n fun p => { p with cur := p.base }))) ∧
  (∀ s : State, s.Up → s.run.sw.snapAt = none →
      exec .snapTake s = .next (s.ran (s.run.modSw fun w => { w with snapAt := some (s.run.now + 2000) }))) ∧
  (∀ (s : State) (fn dt : Nat), s.Up → (s.sys.phase = .recovery → fn = 0) →
      exec (.tsuNowNsRead fn dt) s =
        .next (s.ran ((((s.run.pass dt).hostAccess fn).modTsu fun t =>
          { t with secLatch := tabSet t.secLatch fn (secOf (s.run.pass dt).now % 2 ^ 48) }).emit
            (.readData fn 0x180008 (nsOf (s.run.pass dt).now))))) ∧
  (∀ (s : State) (q : Nat) (e : TxStamp) (rest : List TxStamp), s.Up → (tabGetD s.run.tsu.txq q {}).entries = e :: rest →
      exec (.tsuTxqPopRead q) s =
        .next (s.ran ((s.run.modTsu fun t =>
          { t with txq := tabSet t.txq q { tabGetD s.run.tsu.txq q {} with entries := rest, latched := e.time } }).emit
            (.readData 0 (0x181000 + 0x20 * q) e.popWord))))

/-- The device commands that change no configuration (R76, R84 to R86). The length of a snapshot is open, so DEV_SNAPSHOT says both
outcomes of its fit (assumption 6). -/
def Obligations.DeviceCommandsComplete : Prop :=
  (∀ (s : State) (c : Cmd) (a : Accepted), s.Ready { op := 0x0100, pf0 := false, recovery := true } c a →
      exec (.devNop c) s = .next (s.done c s.run {})) ∧
  (∀ (s : State) (c : Cmd) (a : Accepted), s.Ready { op := 0x0101, pf0 := false, recovery := true } c a →
      exec (.devIdentify c) s =
        .next (s.done c s.run { result := [partNumber, mbxId c.fn, s.run.epoch.toNat, s.sys.serial] })) ∧
  (∀ (s : State) (c : Cmd) (a : Accepted) (start : Word), s.Ready { op := 0x0102, pf0 := false } c a →
      ((s.run.fn c.fn).cseqAccepted + 1 - start).toNat ≤ 256 →
      let l := (s.run.fn c.fn).replayable start ((s.run.fn c.fn).cseqAccepted + 1 - start).toNat
      exec (.devReplayCompletions c start) s =
        .next (s.done c (s.run.modFn c.fn fun f => { f with post := f.post ++ l.map fun x => Post.completion x true })
          { result := [(l.length : Int)] })) ∧
  (∀ (s : State) (c : Cmd) (a : Accepted) (start : Word), s.Ready { op := 0x0103, pf0 := false } c a →
      ((s.run.fn c.fn).eseqRaised + 1 - start).toNat ≤ 4096 →
      let l := (s.run.fn c.fn).replayEvents start ((s.run.fn c.fn).eseqRaised + 1 - start).toNat
      exec (.devReplayEvents c start) s =
        .next (s.done c ((s.run.takeFree 32).2.modFn c.fn fun f => { f with post := f.post ++ l.map fun x => Post.event x true })
          { result := [(l.length : Int), (match l.getLast? with | some e => e.eseq | none => (s.run.takeFree 32).1).toNat] })) ∧
  (∀ (s : State) (c : Cmd) (a : Accepted), s.Ready { op := 0x0104, pf0 := false } c a → c.bufErr = false →
      let sections := Config.snapshotSections c.fn (s.sys, s.run)
      let total := 64 + (sections.map snapshotBytes).sum
      exec (.devSnapshot c) s =
        .next (if total ≤ a.entry.bufLen then
            s.done c s.run {
              bufLen := total
              buffer := [(1 : Int), c.fn, s.run.epoch.toNat, (s.run.fn c.fn).cseqAccepted.toNat, (s.run.fn c.fn).cseqCompleted.toNat,
                (s.run.fn c.fn).eseqRaised.toNat, sections.length, secOf s.run.now, nsOf s.run.now, total] ++
                sections.flatMap snapshotSection }
          else s.done c s.run { status := .buf, result := [(total : Int)] }))

/-- Parameters and the device configuration (R77 to R83, R685, R686).
Choices of the model behind these rows: assumptions 50, 52, 53, 56, 93, 94. -/
def Obligations.ParameterAndConfigCommandsComplete : Prop :=
  (∀ (s : State) (c : Cmd) (a : Accepted) (id : Nat) (p : PInfo) (v : Int), s.Ready { op := 0x0105, pf0 := false } c a →
      paramOf s.sys s.run id = some p → p.readable c.fn = true → p.value = some v →
      exec (.paramGet c [id]) s =
        .next (s.done c s.run { result := [(id : Int), p.ty, 0, putValue p.ty v] })) ∧
  (∀ (s : State) (c : Cmd) (a : Accepted) (ids : List Nat), s.Ready { op := 0x0105, pf0 := false } c a → 2 ≤ ids.length → ids.length ≤ 256 →
      16 * ids.length ≤ a.entry.bufLen → c.bufErr = false →
      let x := ids.foldl (fun (acc : Run × List (Status × List Int)) id =>
        ((getRecord s.sys acc.1 c.fn id).1, acc.2 ++ [(getRecord s.sys acc.1 c.fn id).2])) (s.run, [])
      exec (.paramGet c ids) s =
        .next (s.done c x.1 { status := firstBad (x.2.map (·.1)), buffer := x.2.flatMap (·.2), bufLen := 16 * ids.length })) ∧
  (∀ (s : State) (c : Cmd) (a : Accepted) (records : List ParamRec), s.Ready { op := 0x0106, pf0 := false } c a →
      1 ≤ records.length → records.length ≤ 256 → (∀ x ∈ records, (judgeSet s.sys s.run c.fn x).1 = .ok) →
      (records.length = 1 ∨ (16 * records.length ≤ a.entry.bufLen ∧ c.bufErr = false)) →
      let x := records.foldl (fun (acc : Sys × Run) x => applySet acc.1 acc.2 x.ident (judgeSet s.sys s.run c.fn x).2.1) (s.sys, s.run)
      exec (.paramSet c records) s =
        .next (({ s with sys := x.1 }).done c x.2 {
          buffer := if records.length = 1 then [] else records.map fun _ => 0
          bufLen := if records.length = 1 then 0 else 16 * records.length })) ∧
  (∀ (s : State) (c : Cmd) (a : Accepted) (id : Nat) (p : PInfo), s.Ready { op := 0x0107, pf0 := false } c a →
      paramOf s.sys s.run id = some p → p.readable c.fn = true → 8 ≤ a.entry.bufLen → c.bufErr = false →
      ∃ (r : Run) (lo hi step : Int) (d : Int),
        exec (.paramDescribe c id) s =
          .next (s.done c r { result := [(p.ty : Int), (Config.paramClassCode p.cls).toNat, p.unit, lo, hi, step], buffer := [d], bufLen := 8 }) ∧
        (∀ x, p.range = some x → x = (lo, hi, step)) ∧ (∀ x, p.dflt = some x → d = x) ∧ r = { s.run with free := s.run.free + 4 }) ∧
  (∀ (s : State) (c : Cmd) (a : Accepted), s.Ready { op := 0x010B, pf0 := true } c a → stagedBad s.sys s.run = false →
      let x := applyStaged s.sys s.run
      exec (.devCommit c) s =
        .next (({ s with sys := { x.1 with locked := true } }).done c
          ((Run.configStore { x.2 with
            fns := x.2.fns.map fun (f : FnState) => ({ f with lockedRaised := false } : FnState)
            store := x.2.store.commit (some (captureConfig x.1 x.2)) }).configEvent 2) {})) ∧
  (∀ (s : State) (c : Cmd) (a : Accepted), s.Ready { op := 0x010C, pf0 := true } c a →
      exec (.devUnlock c) s =
        .next (({ s with sys := { s.sys with locked := false } }).done c (s.run.configEvent 1) {}))

/-- Dirty-page logging (R95 to R99).
Choices of the model behind these rows: assumptions 7, 92, 94. -/
def Obligations.DirtyLogCommandsComplete : Prop :=
  (∀ (s : State) (c : Cmd) (a : Accepted) (m base length bitmapA bitmapB : Nat), s.Ready { op := 0x0108, pf0 := true } c a →
      dirtyArgsOk m base length bitmapA bitmapB = true → (s.run.fn m).dirty = none →
      exec (.dirtyLogStart c m base length bitmapA bitmapB) s =
        .next (s.done c (s.run.modFn m fun f =>
          { f with dirty := some { base := base, length := length, bitmapA := bitmapA, bitmapB := bitmapB } }) {})) ∧
  (∀ (s : State) (c : Cmd) (a : Accepted) (m : Nat) (d : DirtyLog), s.Ready { op := 0x0109, pf0 := true } c a →
      1 ≤ m → m ≤ 32 → (s.run.fn m).dirty = some d →
      exec (.dirtyLogSync c m) s =
        .next (s.done c ((s.run.modFn m fun f => { f with dirty := some d.switch }).emit d.closed)
          { result := [if d.activeB then 0 else 1, d.outside] })) ∧
  (∀ (s : State) (c : Cmd) (a : Accepted) (m : Nat) (freeze : Bool) (d : DirtyLog), s.Ready { op := 0x010A, pf0 := true } c a →
      1 ≤ m → m ≤ 32 → (s.run.fn m).dirty = some d →
      let r := s.run.modFn m fun f => { f with dirty := none, frozen := f.frozen || freeze }
      exec (.dirtyLogStop c m freeze) s =
        .next (s.done c ((if freeze then r.dropHost m else r).emit d.closed) { result := [if d.activeB then 0 else 1, d.outside] }))

/-- The virtual NIC: a complete frame that waits goes to the descriptors given, and a frame of the host enters IPORT_HOST and its
descriptors return (R87 to R94).
Choices of the model behind these rows: assumptions 54, 75, 81, 99, 100. -/
def Obligations.VirtualNicRowsComplete : Prop :=
  (∀ (s : State) (fn : Nat) (octets : List (List Nat)) (x : Queued) (rest : List Queued) (h : Held), s.Up → fn < 33 →
      let descs := octets.map rxDescOf
      (s.run.fn fn).vnicEn = true → (s.run.fn fn).frozen = false → (s.run.fn fn).ring2.err = false → descs ≠ [] →
      descs.length ≤ (s.run.fn fn).ring2.waiting → tabGetD s.run.sw.hostQ fn [] = x :: rest → s.run.held x.fid = some h →
      h.complete = true → (descs.length = (s.run.fn fn).ring2.waiting ∨ egressLen h.frame x ≤ (descs.map (·.len)).sum) →
      exec (.vnicRxFrame fn octets) s = .next (s.ran (s.run.vnicReceive fn x h descs))) ∧
  (∀ (s : State) (fn : Nat) (octets : List (List Nat)) (frame : Frame) (l : List TxDesc) (r : Run), s.Up → fn < 33 →
      (s.run.fn fn).vnicEn = true → (s.run.fn fn).frozen = false → (s.run.fn fn).ring3.err = false →
      frameDescs (octets.map txDescOf) = some l → l.length ≤ (s.run.fn fn).ring3.waiting →
      (l.map (·.len)).sum ≤ 1996 → s.run.vnicSend fn { frame with len := (l.map (·.len)).sum } = (r, true) →
      exec (.vnicTxFrame fn octets frame false) s =
        .next (s.ran (((List.range l.length).foldl (fun (r : Run) _ => r.returnDesc fn 3 fun slot phase => .txDesc fn slot 0 phase)
          (r.modFn fn fun f => { f with vnicTx := (f.vnicTx + 1) % 2 ^ 64 })).raiseSource fn (vnicSource fn)))) ∧
  (∀ (s : State) (fn : Nat) (octets : List (List Nat)) (frame : Frame) (l : List TxDesc) (dmaErr : Bool), s.Up → fn < 33 →
      (s.run.fn fn).vnicEn = true → (s.run.fn fn).frozen = false → (s.run.fn fn).ring3.err = false →
      frameDescs (octets.map txDescOf) = some l → l.length ≤ (s.run.fn fn).ring3.waiting →
      (dmaErr = true ∨ 1996 < (l.map (·.len)).sum) →
      exec (.vnicTxFrame fn octets frame dmaErr) s =
        .next (s.ran (((List.range l.length).foldl (fun (r : Run) _ => r.returnDesc fn 3 fun slot phase =>
            .txDesc fn slot (if dmaErr then 2 else 1) phase)
          (s.run.modFn fn fun f => { f with vnicTxErr := (f.vnicTxErr + 1) % 2 ^ 64 })).raiseSource fn (vnicSource fn))))

/-- The resets of the host interface (R44 to R46, R506, R669): accepted commands and instances stay as they are, and an FLR ends the
function's safety session.
Choices of the model behind these rows: assumptions 64. -/
def Obligations.HostInterfaceResetsComplete : Prop :=
  (∀ (s : State) (fn : Nat), s.Up → 1 ≤ fn → fn < 33 →
      exec (.functionLevelReset fn) s =
        .next (s.ran ((s.run.fnReset s.run.ownSources fn).raise { ev := .vfReset, source := 899, data := [(fn : Int)] }))) ∧
  (∀ s : State, s.Up →
      exec (.functionLevelReset 0) s =
        .next (s.ran (((List.range 32).map (· + 1)).foldl (fun (r : Run) m => r.hostReset s.run.ownSources m)
          (({ s.run with vfEnable := false, numVfs := 0 } : Run).fnReset s.run.ownSources 0)))) ∧
  (∀ s : State, s.Up → exec .pcieLinkLoss s = .next (s.ran (s.run.flrAll s.run.ownSources))) ∧
  (∀ (s : State) (fn : Nat), s.Up → fn < 33 →
      exec (.d3hotEntry fn) s = .next (s.ran (s.run.hostReset s.run.ownSources fn))) ∧
  (∀ s : State, s.Up → exec .perstNFall s = .next (s.ran (s.run.flrAll s.run.ownSources)))

/-! ### Chapters 3 and 4: instances, ports -/

/-- The instance commands that complete at once, on an instance in a state that allows them (R102 to R105, R111 to R115, R121, R127).
Choices of the model behind these rows: assumptions 65, 66, 72, 80. -/
def Obligations.InstanceCommandsComplete : Prop :=
  (∀ (s : State) (c : Cmd) (a : Accepted) (n sl ci ig rank : Nat), s.Ready { op := 0x0200, pf0 := true } c a → a.target = some n →
      (s.run.inst n).phase = .free → sl ≤ 1024 → ci ≤ 1024 → ig ≤ 1024 → rank ≤ 255 →
      s.run.sharesFit n { sluice := sl, cistern := ci, ingest := ig } = true →
      exec (.instCreate c sl ci ig rank) s =
        .next (s.done c (((s.run.modInst n fun i =>
          { cells := i.cells, rank := rank, granted := { sluice := sl, cistern := ci, ingest := ig }, inEffect := { sluice := sl, cistern := ci, ingest := ig } }).routeInst
            n true).instState n .idle) {})) ∧
  (∀ (s : State) (c : Cmd) (a : Accepted) (n : Nat), s.Ready { op := 0x0201, pf0 := true } c a → a.target = some n →
      ((s.run.inst n).phase = .idle ∨ (s.run.inst n).phase = .ready ∨ (s.run.inst n).phase = .shed) → s.run.latchHeld n = false →
      exec (.instDestroy c) s =
        .next (s.done c ((((s.run.routeInst n false).destroyInst n).instState n .free).modInst n fun i => { cells := i.cells }) {})) ∧
  (∀ (s : State) (c : Cmd) (a : Accepted) (n : Nat), s.Ready { op := 0x0202, pf0 := false } c a → a.target = some n →
      s.run.commitTurn c.fn c.cseq = true →
      ((s.run.inst n).phase = .idle ∨ (s.run.inst n).phase = .ready ∨ ((s.run.inst n).phase = .active ∧
        (s.run.slcOf n).staged = none ∧ (s.run.cleOf n).newImage = (s.run.cleOf n).image)) →
      s.run.commitDefect n (s.sys.drLaid * 2 ^ 30) = none →
      let claims := s.run.claimsOf n (s.run.newGraph n) (s.run.cleOf n).newImage
      s.run.conflicts n s.run.trip.ballMux claims = [] →
      let x := (s.run.trialOf n).1.admission (some (n, (s.run.trialOf n).2))
      x.refusals = [] →
      exec (.instCommit c) s =
        .next (s.done c (s.run.applyCommit n (s.run.slcOf n).staged (s.run.newRanges n) (s.run.cleOf n).newImage claims x.bounds x.needs) {})) ∧
  (∀ (s : State) (c : Cmd) (a : Accepted) (n : Nat), s.Ready { op := 0x0202, pf0 := false } c a → a.target = some n →
      s.run.commitTurn c.fn c.cseq = true → (s.run.inst n).phase = .active →
      ((s.run.slcOf n).staged ≠ none ∨ (s.run.cleOf n).newImage ≠ (s.run.cleOf n).image) →
      s.run.commitDefect n (s.sys.drLaid * 2 ^ 30) = none →
      let claims := s.run.claimsOf n (s.run.newGraph n) (s.run.cleOf n).newImage
      s.run.conflicts n s.run.trip.ballMux claims = [] →
      let x := (s.run.trialOf n).1.admission (some (n, (s.run.trialOf n).2))
      x.refusals = [] →
      exec (.instCommit c) s =
        .next (s.waits c ((s.run.modSlc n fun y => { y with
            exchange := some (Exchange.mk (s.run.slcOf n).staged (s.run.newRanges n) (s.run.stagedOf n) (c.fn, c.cseq) 0 claims
              x.bounds x.needs)
            staged := none }).modCleInst n fun y => { y with exchange := some (s.run.cleOf n).newImage, staged := none }))) ∧
  (∀ (s : State) (c : Cmd) (a : Accepted) (n : Nat), s.Ready { op := 0x0203, pf0 := true } c a → a.target = some n →
      (s.run.inst n).phase = .ready → s.run.srm.startRefused = false →
      exec (.instStart c) s =
        .next (s.done c ((s.run.routeInst n true).activate n ((s.run.routeInst n true).inst n).warmNext) {})) ∧
  (∀ (s : State) (c : Cmd) (a : Accepted) (n resource share : Nat), s.Ready { op := 0x0206, pf0 := true } c a → a.target = some n →
      (s.run.inst n).phase ≠ .free → resource ≤ 2 → share ≤ 1024 →
      s.run.sharesFit n ((s.run.inst n).granted.put resource share) = true →
      exec (.instSetShare c resource share) s =
        .next (s.done c (s.run.modInst n fun i => { i with granted := (s.run.inst n).granted.put resource share }) {})) ∧
  (∀ (s : State) (c : Cmd) (a : Accepted) (n rank : Nat), s.Ready { op := 0x0207, pf0 := true } c a → a.target = some n →
      (s.run.inst n).phase ≠ .free → rank ≤ 255 →
      exec (.instSetRank c rank) s = .next (s.done c (s.run.modInst n fun i => { i with rank := rank }) {})) ∧
  (∀ (s : State) (c : Cmd) (a : Accepted) (n : Nat), s.Ready { op := 0x0208, pf0 := true } c a → a.target = some n →
      (s.run.inst n).phase = .shed →
      let x := s.run.admission (some (n, (s.run.slcOf n).graph))
      x.refusals = [] →
      exec (.instResume c) s = .next (s.done c ((s.run.storeBounds x.bounds x.needs).activate n true) {})) ∧
  (∀ (s : State) (c : Cmd) (a : Accepted) (n : Nat), s.Ready { op := 0x0209, pf0 := false } c a → a.target = some n →
      let i := s.run.inst n
      exec (.instQuery c) s =
        .next (s.done c s.run { result := [(i.phase.code : Int), i.gen, i.rank, i.inEffect.sluice, i.inEffect.cistern, i.inEffect.ingest,
          i.inFlight, i.dispatches, i.cells, i.authFrames, i.parsedFrames] }))

/-- A reset or a stop begins and its command waits; it ends when no work of the old GEN remains; the accounting period restarts the
rate counters and brings the granted shares into effect (R108, R113, R116, R120).
Choices of the model behind these rows: assumptions 66. -/
def Obligations.InstanceResetRowsComplete : Prop :=
  (∀ (s : State) (c : Cmd) (a : Accepted) (n : Nat), s.Ready { op := 0x0204, pf0 := false } c a → a.target = some n →
      (s.run.inst n).phase = .active →
      exec (.instStop c) s = .next (s.waits c (s.run.resetInst c n true).1)) ∧
  (∀ (s : State) (c : Cmd) (a : Accepted) (n : Nat) (warm : Bool), s.Ready { op := 0x0205, pf0 := true } c a → a.target = some n →
      ((s.run.inst n).phase = .ready ∨ (s.run.inst n).phase = .active ∨ (s.run.inst n).phase = .shed) →
      let i := s.run.inst n
      let w : ResetWait := { fn := c.fn, cseq := c.cseq, warm := warm, was := i.phase, gen := i.gen, resets := i.resets,
                             warmNext := i.warmNext, routed := i.routedVf }
      exec (.instReset c warm) s =
        .next (s.waits c ((s.run.beginReset n (c.fn, c.cseq)).modInst n fun i => { i with reset := some w }))) ∧
  (∀ (s : State) (n dt : Nat), s.Running → (s.run.inst n).phase = .resetting → s.run.instQuiet n = true →
      let r := s.run.pass dt
      exec (.instResetDone n dt) s =
        .next (s.ran (match (s.run.inst n).reset with
          | some w =>
            let r := r.modInst n fun i => { i with reset := none, warmNext := w.warm }
            let r := if w.warm then r else (r.modSlc n (·.initialised)).cleInitial n
            (r.instState n .ready).finish w.fn w.cseq {}
          | none => r.instState n .ready))) ∧
  (∀ (s : State) (dt : Nat), s.Running → (s.run.pass dt).passed 1000000 0 = true →
      exec (.accountingPeriod dt) s = .next (s.ran (s.run.pass dt).newPeriod))

/-- Frames at a port and the state of its link (R136 to R154).
Choices of the model behind these rows: assumptions 95. -/
def Obligations.PortRowsComplete : Prop :=
  (∀ (s : State) (n fid : Nat) (f : Frame) (v : RxVerdict) (dt : Nat), s.Running → (s.run.port n).enable = true → (s.run.port n).link = true →
      exec (.macFrameReceive n fid f v dt) s = .next (s.ran ((s.run.pass dt).receive n fid f v))) ∧
  (∀ (s : State) (n q : Nat) (t : TxStep) (dt : Nat), s.Running →
      let r := ((s.run.pass dt).settlePort n).takeCells t.present
      let r' := (List.range 8).foldl (fun (r : Run) (q : Nat) => r.dropLong ((r.port n).queue q).length n q) r
      (r.port n).link = true → (r.port n).enable = true → (r.port n).sending = none → r'.pickQueue n t.present = some q →
      exec (.macFrameTransmit n t dt) s = .next (s.ran (Run.serve Run.cellFault r' n q t))) ∧
  (∀ (s : State) (n q : Nat) (x : Queued) (t : TxStep) (dt : Nat), s.Running →
      let r := ((s.run.pass dt).settlePort n).takeCells t.present
      (r.port n).link = true → (r.port n).enable = true → (r.port n).sending = some (q, x) →
      exec (.macFrameTransmit n t dt) s =
        .next (s.ran (match t.eccCell with
          | some cell => Run.eccDrop Run.cellFault r x.fid cell
          | none => if t.underrun then r.underrun n q x else r))) ∧
  (∀ (s : State) (n : Nat) (rx : Option (Nat × Frame)) (dt : Nat), s.Running → (s.run.port n).link = true →
      exec (.linkDown n rx dt) s = .next (s.ran (((((s.run.pass dt).endReception n rx).dropIncoming n).linkDown n).raisePair (n / 2) 1))) ∧
  (∀ (s : State) (n speed : Nat) (half : Bool) (dt : Nat), s.Running → n < 64 →
      let r := if (s.run.pass dt).holdOver n then (s.run.pass dt).holdExpires n else s.run.pass dt
      let p := r.port n
      let speed' := match p.mode with | 1 => 2 | 3 => 5 | 4 => 6 | _ => speed
      p.enable = true → p.link = false → r.portHeld n = false → (speedsOf p.mode).contains speed' = true →
      (half = false ∨ p.mode = 3 ∨ p.mode = 4) →
      exec (.linkUp n speed half dt) s =
        .next (s.ran ((((r.settlePort n).modPort n fun p =>
          { p with link := true, speed := speed', speedUnsup := false, pcsSync := true, fecLock := decide (p.fec ≠ 0),
                   holding := false, cur := p.base }).raisePortLink n).raisePair (n / 2) 1))) ∧
  (∀ (s : State) (n dt : Nat), s.Running →
      let r := s.run.pass dt
      let p := r.port n
      p.holding = true → p.link = false → (p.holdSince + usTicks (100 * p.hold)) * 400 / islandPeriod n ≤ r.cyclesOf n →
      exec (.linkHoldExpiry n dt) s =
        .next (s.ran (((r.dropQueues n [0, 1, 2, 3] 22).modPort n fun p => { p with holding := false }).raise
          { ev := .portHoldExpired, source := 64 + n,
            data := [(n : Int), (([0, 1, 2, 3].map fun q => (p.queue q).length).sum : Nat)] }))) ∧
  (∀ (s : State) (n dt : Nat), s.Running → (s.run.port n).enable = true →
      exec (.portEnableFall n dt) s = .next (s.ran ((s.run.pass dt).portDisable n)))

/-- Counter snapshots and the thresholds of the ports of a mask (R145, R155 to R159).
Choices of the model behind these rows: assumptions 95. -/
def Obligations.SnapshotRowsComplete : Prop :=
  (∀ (s : State) (dt : Nat) (t : Instant), s.Up → s.run.sw.snapAt = some t → t ≤ (s.run.pass dt).now →
      exec (.snapshotLatch dt) s =
        .next (s.ran (s.run.sw.snapWait.foldl (fun (r : Run) (w : Nat × Word × List Nat) => r.finish w.1 w.2.1 (r.snapReply w.2.2))
          (((s.run.pass dt).mapPorts fun p => { p with snap := p.stat }).modSw fun w => { w with snapAt := none, snapT := t, snapWait := [] })))) ∧
  (∀ (s : State) (c : Cmd) (a : Accepted) (mask : Nat), s.Ready { op := 0x0300, pf0 := true } c a → s.run.sw.snapAt = none →
      16 + 256 * (bitsOf 64 mask).length ≤ a.entry.bufLen → c.bufErr = false →
      exec (.portSnapshot c mask) s =
        .next (s.waits c (s.run.takeSnap.modSw fun w => { w with snapWait := w.snapWait ++ [(c.fn, c.cseq, bitsOf 64 mask)] }))) ∧
  (∀ (s : State) (c : Cmd) (a : Accepted) (mask : Nat), s.Ready { op := 0x0301, pf0 := true } c a →
      exec (.portThreshRestore c mask) s =
        .next (s.done c ((bitsOf 64 mask).foldl (fun (r : Run) (n : Nat) => r.modPort n fun p => { p with cur := p.base }) s.run) {}))

/-! ### Chapter 5: the switch -/

/-- Forwarding, ageing, the census and supervision (R164, R169 to R192).
Choices of the model behind these rows: assumptions 8, 63, 82. -/
def Obligations.SwitchEventsComplete : Prop :=
  (∀ (s : State) (inp fid : Nat) (f : Frame) (dt : Nat), s.Running → inp < 64 →
      exec (.frameForward inp fid f dt) s = .next (s.ran ((s.run.pass dt).forwardExternal inp fid f))) ∧
  (∀ (s : State) (inp fid : Nat) (f : Frame) (dt : Nat), s.Running → 64 ≤ inp → inp ≤ 67 →
      exec (.frameForward inp fid f dt) s = .next (s.ran ((s.run.pass dt).forwardInternal inp fid))) ∧
  (∀ (s : State) (mac vid dt : Nat) (e : FdbEntry), s.Running →
      s.run.sw.fdb.find? (fun e => e.mac == mac && e.vid == vid) = some e → s.run.sw.live (s.run.pass dt).now e = false →
      exec (.fdbEntryAge mac vid dt) s = .next (s.ran ((s.run.pass dt).modSw fun w => { w with fdb := w.fdbDrop mac vid }))) ∧
  (∀ (s : State) (pair mac dt : Nat), s.Running →
      exec (.nodeEntryForget pair mac dt) s =
        .next (s.ran ((s.run.pass dt).modSw fun w => { w with nodes := w.nodes.filter fun n =>
          !(n.pair == pair && n.mac == mac && decide (n.refreshed + w.nodeForget * 1000000000 ≤ (s.run.pass dt).now)) }))) ∧
  (∀ (s : State) (skew : Int) (dt : Nat), s.Running → s.run.sw.walking = false →
      (s.run.pass dt).now / 100000000 ≠ s.run.sw.censusAt →
      let free := ((s.run.sw.free : Int) + skew).toNat
      let sum := ({ s.run.sw with free := free } : Switch).cellSum
      exec (.cisternCensus skew dt) s =
        .next (s.ran ((s.run.pass dt).modSw fun w => { w with
          censusAt := (s.run.pass dt).now / 100000000, free := free, censusSum := sum, walking := decide (sum ≠ s.run.censusTotal) }))) ∧
  (∀ (s : State) (skew : Int) (dt : Nat), s.Running → s.run.sw.walking = true →
      (s.run.pass dt).now / 100000000 ≠ s.run.sw.censusAt →
      exec (.cisternCensus skew dt) s =
        .next (s.ran ((s.run.pass dt).modSw fun w => { w with
          censusAt := (s.run.pass dt).now / 100000000, free := ((w.free : Int) + skew).toNat, skipped := (w.skipped + 1) % 65536 }))) ∧
  (∀ (s : State) (orphans : Nat) (doubles : List (Nat × Nat)) (dt : Nat), s.Running → s.run.sw.walking = true →
      let r := (s.run.pass dt).modSw fun w =>
        { w with walking := false, walkWait := [], reclaimed := (w.reclaimed + orphans) % 2 ^ 64, free := w.free + orphans - doubles.length }
      let r' := if orphans = 0 then r
        else r.raise { ev := .cisternLeak, source := 128, data := [((orphans % 2 ^ 32 : Nat) : Int), s.run.sw.censusSum] }
      exec (.cisternWalkDone orphans doubles dt) s =
        .next (s.ran (s.run.sw.walkWait.foldl (fun (r : Run) (w : Nat × Word) =>
            r.finish w.1 w.2 { result := [(s.run.sw.censusSum : Int), orphans, r.sw.double] })
          (doubles.foldl (fun (r : Run) (e : Nat × Nat) =>
            ((r.modSw fun w => { w with double := (w.double + 1) % 65536 }).raise
              { ev := .cisternDouble, source := 129, data := [(e.1 : Int), e.2] }).islandOther 16) r')))) ∧
  (∀ (s : State) (pair dt : Nat), s.Running → s.run.sw.mode pair ≠ 0 →
      (∀ t, tabGet s.run.sw.supSentAt pair = some t → t + s.run.sw.lifeCheck * 1000000 ≤ (s.run.pass dt).now) →
      let r := ((s.run.pass dt).sendSupervision pair Config.deviceMac).modSw fun w =>
        { w with supSentAt := tabSet w.supSentAt pair (s.run.pass dt).now }
      exec (.supervisionSend pair dt) s =
        .next (s.ran (if s.run.sw.mode pair = 2 ∨ s.run.sw.mode pair = 4 ∨ s.run.sw.mode pair = 5 then
          (r.sw.proxies.filter fun x => x.pair == pair).foldl (fun (r : Run) (x : Proxy) =>
            r.sendSupervision pair x.mac (some Config.deviceMac)) r else r))) ∧
  (∀ (s : State) (pair mac dt : Nat) (b : Bool) (n : Node) (t : Instant), s.Running → s.run.sw.node pair mac = some n →
      ((if b then n.supB else n.supA).getD n.since + 3 * s.run.sw.lifeCheck * 1000000 ≤ (s.run.pass dt).now) →
      (if b then n.supA else n.supB) = some t → (s.run.pass dt).now < t + 3 * s.run.sw.lifeCheck * 1000000 →
      exec (.supervisionSilence pair mac b dt) s = .next (s.ran ((s.run.pass dt).raisePair pair 2 [(mac : Int)])))

/-- The switch commands (R163, R168, R179, R182, R194).
Choices of the model behind these rows: assumptions 11, 63, 82. -/
def Obligations.SwitchCommandsComplete : Prop :=
  (∀ (s : State) (c : Cmd) (a : Accepted) (vid members untagged : Nat), s.Ready { op := 0x0302, pf0 := true } c a → vidOk vid = true →
      exec (.swVlanSet c vid members untagged) s =
        .next (s.done c (s.run.modSw fun w =>
          { w with vlans := tabSet w.vlans vid { members := bitsOf 68 members, untagged := bitsOf 68 untagged } }) {})) ∧
  (∀ (s : State) (c : Cmd) (a : Accepted) (mac vid ports fns : Nat), s.Ready { op := 0x0303, pf0 := true } c a → vidOk vid = true →
      ((s.run.sw.fdb.any fun x => x.mac == mac && x.vid == vid) = true ∨ (s.run.sw.bucket mac vid).length < 8) →
      exec (.swFdbAdd c mac vid ports fns) s =
        .next (s.done c (s.run.modSw fun w => { w with fdb := w.fdbDrop mac vid ++
          [{ mac := mac, vid := vid, static := true, ports := bitsOf 68 ports, fns := bitsOf 33 fns, refreshed := s.run.now }] }) {})) ∧
  (∀ (s : State) (c : Cmd) (a : Accepted) (mac vid ports fns : Nat) (old : FdbEntry), s.Ready { op := 0x0303, pf0 := true } c a → vidOk vid = true →
      (s.run.sw.fdb.any fun x => x.mac == mac && x.vid == vid) = false → 8 ≤ (s.run.sw.bucket mac vid).length →
      oldestLearned (s.run.sw.bucket mac vid) = some old →
      exec (.swFdbAdd c mac vid ports fns) s =
        .next (s.done c (s.run.modSw fun w => { w with fdb := w.fdbDrop old.mac old.vid ++
          [{ mac := mac, vid := vid, static := true, ports := bitsOf 68 ports, fns := bitsOf 33 fns, refreshed := s.run.now }] }) {})) ∧
  (∀ (s : State) (c : Cmd) (a : Accepted) (mac vid : Nat), s.Ready { op := 0x0304, pf0 := true } c a →
      (s.run.sw.fdb.any fun x => x.mac == mac && x.vid == vid && s.run.sw.live s.run.now x) = true →
      exec (.swFdbDel c mac vid) s = .next (s.done c (s.run.modSw fun w => { w with fdb := w.fdbDrop mac vid }) {})) ∧
  (∀ (s : State) (c : Cmd) (a : Accepted) (vid : Nat) (static : Bool), s.Ready { op := 0x0305, pf0 := true } c a → vid < 4095 →
      let goes (e : FdbEntry) : Bool := (vid == 0 || e.vid == vid) && (static || !e.static)
      exec (.swFdbFlush c vid static) s =
        .next (s.done c (s.run.modSw fun w => { w with fdb := w.fdb.filter fun e => !goes e })
          { result := [((s.run.sw.fdb.filter goes).length : Int)] })) ∧
  (∀ (s : State) (c : Cmd) (a : Accepted), s.Ready { op := 0x0306, pf0 := true } c a →
      let l := s.run.sw.fdb.filter (s.run.sw.live s.run.now)
      24 * l.length ≤ a.entry.bufLen → c.bufErr = false →
      exec (.swFdbRead c) s =
        .next (s.done c s.run { bufLen := 24 * l.length, buffer := l.flatMap fun e =>
          [(e.mac : Int), e.vid, maskOfSet e.ports, maskOfSet e.fns, ((s.run.now - e.refreshed) / 1000000000 : Nat)] })) ∧
  (∀ (s : State) (c : Cmd) (a : Accepted) (m maxPcp defVid : Nat) (vids : List Nat), s.Ready { op := 0x0307, pf0 := true, buf := true, need := some (2 * vids.length) } c a →
      m ≤ 32 → maxPcp ≤ 7 → vidOk defVid = true → vids.length ≤ 64 → vids.all vidOk = true →
      exec (.swHostVlan c m maxPcp defVid vids) s =
        .next (s.done c (s.run.modSw fun w =>
          { w with hostVlans := tabSet w.hostVlans m { maxPcp := maxPcp, defVid := defVid, vids := vids } }) {})) ∧
  (∀ (s : State) (c : Cmd) (a : Accepted) (j mode : Nat), s.Ready { op := 0x0308, pf0 := true } c a → j < 32 → mode ≤ 5 →
      (s.sys.locked = false ∨ mode = s.run.sw.mode j) → (s.run.port (2 * j)).mode = (s.run.port (2 * j + 1)).mode →
      (s.run.port (2 * j)).maxFrame = (s.run.port (2 * j + 1)).maxFrame → (mode = 5 → s.run.sw.mode (j ^^^ 1) = 5) →
      (s.run.sw.port (2 * j)).trib = false → (s.run.sw.port (2 * j + 1)).trib = false →
      exec (.swRedSet c j mode) s = .next (s.done c (s.run.modSw fun w => w.setMode j mode) {})) ∧
  (∀ (s : State) (c : Cmd) (a : Accepted) (j : Nat), s.Ready { op := 0x0309, pf0 := true } c a → j < 32 →
      let l := s.run.sw.nodes.filter fun n => n.pair == j
      32 * l.length ≤ a.entry.bufLen → c.bufErr = false →
      exec (.swNodeRead c j) s =
        .next (s.done c (s.run.takeFree 32).2 { bufLen := 32 * l.length, buffer := l.flatMap fun n =>
          [(n.mac : Int), n.newest, n.a.last, n.b.last, (s.run.takeFree 32).1.toNat, ((s.run.now - n.refreshed) / 1000000 : Nat)] })) ∧
  (∀ (s : State) (c : Cmd) (a : Accepted) (skew : Int), s.Ready { op := 0x030A, pf0 := true } c a → s.run.sw.walking = false →
      let free := ((s.run.sw.free : Int) + skew).toNat
      let sum := ({ s.run.sw with free := free } : Switch).cellSum
      (sum = s.run.censusTotal →
        exec (.swCensusNow c skew) s =
          .next (s.done c (s.run.modSw fun w => { w with free := free, censusSum := sum, walking := false })
            { result := [(sum : Int), 0, s.run.sw.double] })) ∧
      (sum ≠ s.run.censusTotal →
        exec (.swCensusNow c skew) s =
          .next (s.waits c (s.run.modSw fun w =>
            { w with free := free, censusSum := sum, walking := true, walkWait := w.walkWait ++ [(c.fn, c.cseq)] }))))

/-! ### Chapter 6: time -/

/-- Messages and edges that feed the TSU, and those it sends (R202 to R221).
Choices of the model behind these rows: assumptions 13, 77, 78. -/
def Obligations.TimeMessagesComplete : Prop :=
  (∀ (s : State) (m : SyncMsg) (dt : Nat), s.Up → exec (.ptpSyncReceive m dt) s = .next (s.ran ((s.run.pass dt).sync m))) ∧
  (∀ (s : State) (m : AnnounceMsg) (dt : Nat), s.Up →
      exec (.ptpAnnounceReceive m dt) s = .next (s.ran ((s.run.pass dt).announce m))) ∧
  (∀ (s : State) (port dt k : Nat), s.Running → (s.run.pass dt).isMaster port = true → (s.run.port port).link = true →
      ((tabGet s.run.tsu.syncSent port = none ∧ k = 0) ∨
        ∃ m t, tabGet s.run.tsu.syncSent port = some (m, t) ∧ t + 1000000000 ≤ (s.run.pass dt).now ∧ k = (m + 1) % 65536) →
      let r := (s.run.pass dt).modTsu fun t => { t with syncSent := tabSet t.syncSent port (k, (s.run.pass dt).now) }
      let r' := r.sendPtp port 0x011B19000000 64 (.ptp 0 r.tsu.domainOf k 0)
      exec (.ptpSyncSend port dt) s =
        .next (s.ran (r'.sendPtp port 0x011B19000000 (if r'.tsu.regs.profile = 1 then 104 else 82) (.announce r'.tsu.masterData)))) ∧
  (∀ (s : State) (port domain seqId dt : Nat), s.Running → (s.run.pass dt).pdelayPort port = true →
      exec (.pdelayReqReceive port domain seqId dt) s =
        .next (s.ran (((s.run.pass dt).takeFree 64).2.sendPtp port 0x0180C200000E 72
          (.ptp 3 domain seqId ((s.run.pass dt).takeFree 64).1.toInt)))) ∧
  (∀ (s : State) (port k dt : Nat) (x : PdelayTimes), s.Running → (s.run.pass dt).pdelayPort port = true →
      ((tabGet s.run.tsu.pdelayAt port = none ∧ k = 0) ∨
        ∃ m t, tabGet s.run.tsu.pdelayAt port = some (m, t) ∧ t + 1000000000 ≤ (s.run.pass dt).now ∧ k = (m + 1) % 65536) →
      let r := (s.run.pass dt).sendPtp port 0x0180C200000E 72 (.ptp 2 (s.run.pass dt).tsu.domainOf k 0)
      exec (.pdelayMeasure port x dt) s =
        .next (s.ran (r.modTsu fun t => { t with
          linkDelay := tabSet t.linkDelay port (r.meanLinkDelay port x), pdelayAt := tabSet t.pdelayAt port (k, r.now) }))) ∧
  (∀ (s : State) (falling : Bool) (dt : Nat), s.Up → falling = s.run.tsu.regs.inPol →
      exec (.ppsInEdge falling dt) s = .next (s.ran (s.run.pass dt).ppsEdge)) ∧
  (∀ (s : State) (m : IrigMsg) (dt : Nat), s.Up → exec (.irigFrame m dt) s = .next (s.ran ((s.run.pass dt).irigFrame m)))

/-- Loss of reference, HOLDOVER, leap seconds, the PPS output and the servo enable (R207 to R210, R222, R223).
Choices of the model behind these rows: assumptions 77. -/
def Obligations.TimeEventsComplete : Prop :=
  (∀ (s : State) (dt : Nat), s.Up → exec (.referenceLoss dt) s = .next (s.ran (s.run.pass dt).referenceLoss)) ∧
  (∀ (s : State) (dt : Nat) (t : Instant), s.Up → s.run.tsu.lossAt = some t → s.run.tsu.phase = .holdPending →
      t + 10000000000 ≤ (s.run.pass dt).now →
      exec (.holdTimerExpiry dt) s = .next (s.ran ((s.run.pass dt).enter .holdover))) ∧
  (∀ (s : State) (dt : Nat), s.Up → (s.run.pass dt).leapDue = true →
      let new := s.run.tsu.regs.utcOffset + s.run.tsu.regs.leapStep
      exec (.leapSecond dt) s =
        .next (s.ran (((s.run.pass dt).modTsu fun t => { t with lastLeap := some (secOf (s.run.pass dt).now * 1000000000, t.regs.utcOffset), regs := { t.regs with
          utcOffset := new, leapPending := false, utcConfig := if t.regs.fromPtp then t.regs.utcConfig else new } }).raise
          { ev := .leap, source := 197, data := [new] }))) ∧
  (∀ (s : State) (dt : Nat), s.Up → s.sys.phase ≠ .recovery → (s.run.pass dt).onSecond = true → (s.run.pass dt).tsu.gated = false →
      exec (.ppsOutEdge dt) s =
        .next (s.ran (((s.run.pass dt).modTsu fun t =>
          { t with ppsOut := true, ppsOutSince := secOf (s.run.pass dt).now * 1000000000 }).emit (.ball .ppsOut .high)))) ∧
  (∀ (s : State) (dt : Nat), s.Up → s.run.tsu.ppsOut = true →
      s.run.tsu.ppsOutSince + s.run.tsu.regs.outWidth * 1000000 ≤ (s.run.pass dt).now →
      exec (.ppsOutPulseEnd dt) s =
        .next (s.ran (((s.run.pass dt).modTsu fun t => { t with ppsOut := false }).emit (.ball .ppsOut .low)))) ∧
  (∀ s : State, s.Up → s.run.tsu.regs.servoEn = true → exec .servoEnFall s = .next (s.ran s.run.servoOff)) ∧
  (∀ s : State, s.Up → s.run.tsu.regs.servoEn = false → exec .servoEnRise s = .next (s.ran s.run.servoOn))

/-- The time commands (R228, Table 6.2, Table 6.5).
Choices of the model behind these rows: assumptions 77. -/
def Obligations.TimeCommandsComplete : Prop :=
  (∀ (s : State) (c : Cmd) (a : Accepted), s.Ready { op := 0x0400, pf0 := false } c a →
      exec (.timeQuery c) s =
        .next (s.done c s.run { result := [(secOf s.run.now : Int), nsOf s.run.now, s.run.tsu.phase.code, s.run.tsu.tq,
          roundRat s.run.tsu.servo.theta, roundRat (s.run.tsu.servo.y * 256),
          ((match s.run.tsu.parent with | some p => p.ref.gm | none => 0 : Nat) : Int)] })) ∧
  (∀ (s : State) (c : Cmd) (a : Accepted) (sec ns : Nat), s.Ready { op := 0x0401, pf0 := true } c a → ns < 1000000000 →
      s.run.tsu.regs.src = 0 →
      let new := sec % 2 ^ 48 * 1000000000 + ns
      exec (.timeSet c sec ns) s =
        .next (s.done c (s.run.stepTo (new * 2 ^ 32) ((new : Int) - s.run.now)).toFreerun {})) ∧
  (∀ (s : State) (c : Cmd) (a : Accepted), s.Ready { op := 0x0402, pf0 := true } c a →
      (s.run.tsu.phase = .acquiring ∨ s.run.tsu.phase = .holdover) →
      exec (.timeReacquire c) s = .next (s.done c s.run.toFreerun {}))

/-! ### Chapters 7 and 8: ingest and Confluence -/

/-- The head frame of IPORT_INGEST judged for every subscription, supervision, and the subscription commands (R234 to R259).
Choices of the model behind these rows: assumptions 81, 89. -/
def Obligations.IngestRowsComplete : Prop :=
  (∀ (s : State) (p : IngestPdu) (dt q : Nat) (x : Queued) (h : Held), s.Running → s.run.sw.ingestHead = some (q, x) →
      tabGet s.run.sw.frames x.fid = some h → h.complete = true → (s.run.pass dt).ingestRoom h.frame.etype h.frame.da p = true →
      exec (.ingestFrame p dt) s =
        .next (s.ran ((((s.run.pass dt).ingest h.frame.etype h.frame.da p h.arrival).modSw fun w =>
          { w with ingestQ := tabPut w.ingestQ q ((tabGetD w.ingestQ q []).drop 1) [] }).release x.fid))) ∧
  (∀ (s : State) (goose : Bool) (index dt : Nat), s.Running →
      exec (.subSupervisionExpiry goose index dt) s =
        .next (s.ran ((s.run.pass dt).expire goose index (s.run.pass dt).now))) ∧
  (∀ (s : State) (c : Cmd) (a : Accepted) (n index i : Nat) (x y : SvRec) (z : SubRec) (r : Run),
      s.Ready { op := 0x0500, pf0 := false, buf := true, need := some 296 } c a →
      a.target = some n → (s.run.inst n).phase ≠ .free → svRecord x = some y →
      (index = 0xFFFF ∨ s.run.ing.notOwn false c.fn n index = none) → s.run.stageSub false n index (.sv y) = .ok (r, i, z) →
      296 ≤ a.entry.bufLen → c.bufErr = false →
      exec (.subSvSet c index x) s =
        .next (s.done c (r.trimStaged n) {
          result := [(i : Int)]
          buffer := match z with | .sv v => v.chans.map fun c => (c.slot : Int) | .goose _ => []
          bufLen := 296 })) ∧
  (∀ (s : State) (c : Cmd) (a : Accepted) (n index i : Nat) (x y : GooseRec) (z : SubRec) (r : Run),
      s.Ready { op := 0x0501, pf0 := false, buf := true, need := some 424 } c a →
      a.target = some n → (s.run.inst n).phase ≠ .free → gooseRecord x = some y →
      (index = 0xFFFF ∨ s.run.ing.notOwn true c.fn n index = none) → s.run.stageSub true n index (.goose y) = .ok (r, i, z) →
      exec (.subGooseSet c index x) s =
        .next (s.done c (r.trimStaged n) {
          result := [(i : Int)]
          buffer := match z with | .sv v => v.chans.map fun c => (c.slot : Int) | .goose _ => [] })) ∧
  (∀ (s : State) (c : Cmd) (a : Accepted) (n kind index : Nat), s.Ready { op := 0x0502, pf0 := false } c a →
      a.target = some n → (s.run.inst n).phase ≠ .free → kind ≤ 1 → s.run.ing.notOwn (kind == 1) c.fn n index = none →
      let f (t : Tab (Nat × Option SubRec)) :=
        if (s.run.sub (kind == 1) index).isSome || s.run.waitsFor (kind == 1) n index then tabSet t index (n, none) else tabDel t index
      exec (.subDelete c kind index) s =
        .next (s.done c ((s.run.modIng fun x => x.setStaged (kind == 1) (f (x.staged (kind == 1)))).trimStaged n) {})) ∧
  (∀ (s : State) (c : Cmd) (a : Accepted) (n kind index : Nat) (x : Sub), s.Ready { op := 0x0503, pf0 := false } c a →
      a.target = some n → (s.run.inst n).phase ≠ .free → kind ≤ 1 → s.run.ownSub (kind == 1) c.fn n index = .ok x →
      (if kind = 1 then 424 else 296) ≤ a.entry.bufLen → c.bufErr = false →
      exec (.subRead c kind index) s =
        .next (s.done c s.run { result := [(x.phase.code : Int), index, x.count, x.sq, secOf (x.arrived.getD 0), nsOf (x.arrived.getD 0)],
                                buffer := subFields index x.record, bufLen := if kind = 1 then 424 else 296 })) ∧
  (∀ (s : State) (c : Cmd) (a : Accepted) (n kind index keyA keyB : Nat) (x : Sub), s.Ready { op := 0x0504, pf0 := false } c a →
      a.target = some n → (s.run.inst n).phase ≠ .free → kind ≤ 1 → keySlotOk keyA = true → keySlotOk keyB = true →
      s.run.ownSub (kind == 1) c.fn n index = .ok x → s.run.srm.ingestMayUse n keyA = true → s.run.srm.ingestMayUse n keyB = true →
      exec (.subKeySet c kind index keyA keyB) s =
        .next (s.done c (s.run.modSub (kind == 1) index fun x => { x with record := x.record.withKeys keyA keyB }) {})) ∧
  (∀ (s : State) (c : Cmd) (a : Accepted) (n kind : Nat), s.Ready { op := 0x0505, pf0 := false } c a →
      a.target = some n → (s.run.inst n).phase ≠ .free → kind ≤ 1 →
      let own := (s.run.ing.table (kind == 1)).filter fun e => e.2.inst == n
      4 * own.length ≤ a.entry.bufLen → c.bufErr = false →
      exec (.subList c kind) s =
        .next (s.done c s.run { buffer := own.flatMap fun e => [(e.1 : Int), (e.2.phase.code : Int)], bufLen := 4 * own.length }))

/-- The DEC_SYNC edge and the Confluence commands (R277, R288, R290 to R294, R301).
Choices of the model behind these rows: assumptions 89. -/
def Obligations.ConfluenceRowsComplete : Prop :=
  (∀ (s : State) (falling : Bool) (dt : Nat), s.Running → s.run.cfl.pinEn = true → falling = s.run.cfl.pol →
      exec (.decSyncEdge falling dt) s = .next (s.ran ((s.run.pass dt).decSyncRequest (s.run.pass dt).now).1)) ∧
  (∀ (s : State) (c : Cmd) (a : Accepted) (n slot : Nat) (x : ChanRec), s.Ready { op := 0x0600, pf0 := false, buf := true, need := some 32 } c a →
      a.target = some n → (s.run.inst n).phase ≠ .free → x.ok (s.run.slotOnQ n slot) = true → ((s.run.slotView n).any fun e => e.1 == slot) = true →
      exec (.cflChanSet c slot x) s =
        .next (s.done c (s.run.modCfl fun y => { y with chanStaged := tabSet y.chanStaged slot (n, x) }) {})) ∧
  (∀ (s : State) (c : Cmd) (a : Accepted) (n index : Nat) (x : StreamRec), s.Ready { op := 0x0601, pf0 := false, buf := true, need := some 24 } c a →
      a.target = some n → (s.run.inst n).phase ≠ .free → x.ok = true → s.run.ing.notOwn false c.fn n index = none →
      exec (.cflStreamSet c index x) s =
        .next (s.done c (s.run.modCfl fun y => { y with streamStaged := tabSet y.streamStaged index (n, x) }) {})) ∧
  (∀ (s : State) (c : Cmd) (a : Accepted) (n set delay : Nat) (taps : List Word), s.Ready { op := 0x0602, pf0 := false, buf := true, need := some (4 * taps.length) } c a →
      a.target = some n → (s.run.inst n).phase ≠ .free → 1 ≤ taps.length → taps.length ≤ 64 → set < 32 →
      ((s.run.cfl.chansOf n).any fun e => e.2.usesSet set) = false →
      exec (.cflCoefSet c set delay taps) s =
        .next (s.done c (s.run.modCfl fun y => { y with coefs := tabSet y.coefs (32 * n + set) { taps := taps, delay := delay % 2 ^ 32 } }) {})) ∧
  (∀ (s : State) (c : Cmd) (a : Accepted) (proto : Nat) (table : List (List Word)), s.Ready { op := 0x0603, pf0 := true, buf := true, need := some 32832 } c a →
      1 ≤ proto → proto ≤ 4 → (s.run.cfl.chans.any fun e => e.2.record.proto == proto) = false → protoOk table = true →
      exec (.cflProtoLoad c proto table) s =
        .next (s.done c (s.run.modCfl fun y => { y with protos := tabSet y.protos proto table }) {})) ∧
  (∀ (s : State) (c : Cmd) (a : Accepted) (n slot bank len : Nat) (ch : Chan), s.Ready { op := 0x0604, pf0 := false } c a →
      a.target = some n → (s.run.inst n).phase ≠ .free → tabGet s.run.cfl.chans slot = some ch → ch.inst = n →
      bank ≤ 1 → 1 ≤ len → len ≤ 4096 →
      exec (.cflBankSelect c slot bank len) s =
        .next (s.done c (s.run.bankRequest slot (bank == 1) len).1 { result := [((s.run.bankRequest slot (bank == 1) len).2 : Int)] })) ∧
  (∀ (s : State) (c : Cmd) (a : Accepted) (n slot : Nat) (hold : Bool) (ch : Chan), s.Ready { op := 0x0605, pf0 := false } c a →
      a.target = some n → (s.run.inst n).phase ≠ .free → tabGet s.run.cfl.chans slot = some ch → ch.inst = n →
      exec (.cflDcHold c slot hold) s = .next (s.done c (s.run.modChan slot fun ch => { ch with dcHold := hold }) {})) ∧
  (∀ (s : State) (c : Cmd) (a : Accepted) (sec ns : Nat) (r : Run), s.Ready { op := 0x0606, pf0 := true } c a →
      ns < 1000000000 → sec < 2 ^ 48 → s.run.decSyncRequest (sec * 1000000000 + ns) = (r, true) →
      exec (.cflDecSync c sec ns) s =
        .next (s.done c r { result := [((r.cfl.dsTick / 4800 : Nat) : Int), ((r.cfl.dsTick % 4800 : Nat) : Int)] })) ∧
  (∀ (s : State) (c : Cmd) (a : Accepted) (n slot : Nat) (ch : Chan), s.Ready { op := 0x0607, pf0 := false } c a →
      a.target = some n → (s.run.inst n).phase ≠ .free → tabGet s.run.cfl.chans slot = some ch → ch.inst = n →
      32 ≤ a.entry.bufLen → c.bufErr = false →
      exec (.cflChanRead c slot) s =
        .next (s.done c s.run { result := [(s.run.cfl.chanState ch : Int), (s.run.cfl.chanDelay ch : Int)],
                                buffer := ch.record.fields slot, bufLen := 32 }))

/-! ### Chapter 9: Sluice -/

/-- Ticks, dispatch, ends of jobs and exchanges (R265, R315 to R319, R330).
Choices of the model behind these rows: assumptions 65, 67, 68, 72, 84, 91. -/
def Obligations.SluiceEventsComplete : Prop :=
  (∀ (s : State) (n dt q : Nat), s.Running →
      let r := (s.run.pass dt).settleDecSync
      let h := r.cfl.h n
      tabGet r.cfl.next n = some q → (r.inst n).phase = .active → dueCounter q h ≤ r.tsu.counter →
      let after := r.nowExact - qInstant q - (h : Rat) * 1000
      let ns := after.floor.toNat
      let slots := ((r.applyDecSync n q).cfl.chansOf n).map (·.1)
      let r₁ := slots.foldl (fun (r : Run) c =>
        match tabGet r.cfl.chans c with | some x => if x.onQ then r.qTick c q h else r | none => r) (r.applyDecSync n q)
      let outs := slots.filter fun c => match tabGet r₁.cfl.chans c with | some x => x.record.drEn && x.drPhase == 0 | none => false
      let r₂ := if q % 3 = 0 then slots.foldl (fun (r : Run) c => r.pTick c (q / 3) h) r₁ else r₁
      let r₃ := (r₂.drTick n q outs.contains).modCfl fun x => { x with next := tabSet x.next n (q + 1), done := tabSet x.done n (q + 1) }
      let r₄ := if decide (20000 < after) = true then r₃.tickLate n (if q % 3 = 0 then q / 3 % 4800 else q % 14400) ns else r₃
      let r₅ := if q % 3 = 0 then r₄.pFlag n (q / 3) ns else r₄
      exec (.tickProcess n dt) s =
        .next (s.ran (r₅.fire n fun _ b => b.param != 0 &&
          ((b.kind == 2 && q % b.param == 0) || (b.kind == 1 && q % 3 == 0 && q / 3 % b.param == 0))))) ∧
  (∀ (s : State) (dt u : Nat) (f : Flight) (deferred : Bool), s.Running → (s.run.pass dt).pick = some (f, u, deferred) →
      let r := (s.run.pass dt).dispatch f u deferred
      let op := match (s.run.slcOf f.inst).g.nodes[f.node]? with | some g => g.op | none => 0
      exec (.nodeDispatch dt) s =
        .next (s.ran (if f.cls = 2 then (match r.loopDev f.inst op with | some l => r.mlrStart l f.tick | none => r)
          else if f.cls = 3 then r.cleImage f.inst op else r))) ∧
  (∀ (s : State) (n i gen dt : Nat) (cancelOut : Bool) (f : Flight) (e : JobEnd), s.Running →
      (s.run.slc.flights.find? fun f => f.inst == n && f.node == i && f.gen == gen && f.phase == .executing) = some f →
      (s.run.pass dt).jobEndOf f cancelOut = some e →
      (f.cls = 3 ∨ f.engine.isSome = true ∨ (s.run.pass dt).ticks ≤ (s.run.pass dt).budgetEnd f true) →
      let x := (s.run.pass dt).jobEnds f e
      exec (.jobFinish n i gen cancelOut dt) s =
        .next (s.ran ((if s.run.liveJob f = true ∧ f.engine = some .empty then x.1.modNode n i fun s => { s with held := true } else x.1).chainsLate x.2))) ∧
  (∀ (s : State) (n i gen dt : Nat) (f : Flight), s.Running →
      (s.run.slc.flights.find? fun f => f.inst == n && f.node == i && f.gen == gen && f.phase == .executing) = some f →
      f.cls ≠ 3 → f.engine = none → (s.run.pass dt).budgetEnd f false ≤ (s.run.pass dt).ticks →
      let x := (s.run.pass dt).jobEnds f .aborted
      exec (.budgetAbort n i gen dt) s = .next (s.ran (x.1.chainsLate x.2))) ∧
  (∀ (s : State) (n dt : Nat) (e : Exchange), s.Running → (s.run.inst n).phase = .active → (s.run.pass dt).flagDue n = true →
      (s.run.pass dt).graphQuiet n = true → (s.run.slcOf n).exchange = some e → e.ticks < 96 →
      let r := s.run.pass dt
      let image := match (s.run.cleOf n).exchange with | some i => i | none => (s.run.cleOf n).image
      exec (.graphExchange n dt) s =
        .next (s.ran ((((r.putStaged n e.staged).applyCommit n e.graph e.ranges image e.claims e.bounds e.needs).putStaged n
          ((r.stagedOf n).since e.staged)).finish e.wait.1 e.wait.2 {}))) ∧
  (∀ (s : State) (n dt : Nat) (e : Exchange), s.Running → (s.run.slcOf n).exchange = some e → 96 ≤ e.ticks →
      exec (.exchangeTimeout n dt) s = .next (s.ran ((s.run.pass dt).exchangeFails n)))

/-- The Sluice and group commands (R311, R316, R323, R328, R332, R410, R416, R688).
Choices of the model behind these rows: assumptions 29, 67, 68, 75, 88, 91, 99, 100. -/
def Obligations.SluiceCommandsComplete : Prop :=
  (∀ (s : State) (c : Cmd) (a : Accepted) (n sig : Nat) (octets : List Nat) (data : Graph),
      s.Ready { op := 0x0700, pf0 := false, buf := true, need := some octets.length } c a → a.target = some n →
      (s.run.inst n).phase ≠ .free →
      let image := readImage octets data
      imageDefect image = none →
      exec (.slcGraphLoad c octets sig data) s =
        .next (match s.run.verifyBundle n octets sig with
          | (r, true) => s.done c (r.modSlc n fun x => { x with staged := some (some image) })
              { result := [(image.nodes.length : Int), (image.edges.length : Int)] }
          | (r, false) => s.done c r { status := .auth })) ∧
  (∀ (s : State) (c : Cmd) (a : Accepted) (n : Nat), s.Ready { op := 0x0701, pf0 := false } c a → a.target = some n →
      (s.run.inst n).phase ≠ .free →
      exec (.slcGraphUnload c) s = .next (s.done c (s.run.modSlc n fun x => { x with staged := some none }) {})) ∧
  (∀ (s : State) (c : Cmd) (a : Accepted) (n : Nat), s.Ready { op := 0x0702, pf0 := false } c a → a.target = some n →
      (s.run.inst n).phase ≠ .free →
      let t := s.run.trialOf n
      let x := t.1.admission (some (n, t.2))
      let bounds : List Nat := x.bounds.flatMap (·.2)
      let ids : List Nat := (t.1.coveredAll (some (n, t.2))).flatMap fun y => y.graph.chains.map fun z => chainObject z.ident
      24 * x.refusals.length + 16 * bounds.length ≤ a.entry.bufLen → c.bufErr = false →
      exec (.slcAdmitCheck c) s =
        .next (s.done c s.run {
          status := x.status
          result := match x.refusals with | y :: _ => y.fields | [] => []
          buffer := x.refusals.flatMap (·.fields) ++ (ids.zip bounds).flatMap fun e => [(e.1 : Int), ((e.2 : Nat) : Int)]
          bufLen := 24 * x.refusals.length + 16 * bounds.length })) ∧
  (∀ (s : State) (c : Cmd) (a : Accepted) (n node : Nat) (x : NodeSt), s.Ready { op := 0x0703, pf0 := false } c a → a.target = some n →
      (s.run.inst n).phase ≠ .free → (s.run.slcOf n).nodes[node]? = some x →
      exec (.slcCancel c node) s =
        .next (s.done c ((s.run.sluiceCycle [] [(n, node)]).cancelledLoops s.run.slc.flights) { result := [(x.phase.code : Int)] })) ∧
  (∀ (s : State) (c : Cmd) (a : Accepted) (n bind : Nat) (b : GBind), s.Ready { op := 0x0704, pf0 := false } c a → a.target = some n →
      (s.run.inst n).phase = .active → (s.run.slcOf n).g.binds[bind]? = some b → b.kind = 5 →
      (∀ t, tabGet (s.run.slcOf n).triggers bind = some t → t + b.param * 10000 ≤ s.run.now) →
      exec (.slcTrigger c bind) s =
        .next (s.done c ((s.run.modSlc n fun x => { x with triggers := tabSet x.triggers bind s.run.now }).fire n fun k _ => k == bind) {})) ∧
  (∀ (s : State) (c : Cmd) (a : Accepted) (n node : Nat) (x : NodeSt), s.Ready { op := 0x0705, pf0 := false } c a → a.target = some n →
      (s.run.inst n).phase ≠ .free → (s.run.slcOf n).nodes[node]? = some x →
      exec (.slcNodeRead c node) s =
        .next (s.done c s.run { result := [(x.status : Int), x.nstat, x.flags.toNat, x.jobs, x.overruns] })) ∧
  (∀ (s : State) (c : Cmd) (a : Accepted) (n ident k : Nat) (z : ChainSt), s.Ready { op := 0x0706, pf0 := false } c a → a.target = some n →
      (s.run.inst n).phase ≠ .free → ((s.run.slcOf n).g.chains.findIdx? fun z => z.ident == ident) = some k →
      (s.run.slcOf n).chains[k]? = some z →
      exec (.slcChainRead c ident) s = .next (s.done c s.run { result := [(z.bound : Int), z.largest, z.measured] })) ∧
  (∀ (s : State) (c : Cmd) (a : Accepted) (n sel group : Nat) (z : Selector), s.Ready { op := 0x0707, pf0 := false } c a →
      a.target = some n → (s.run.inst n).phase ≠ .free → (s.run.slcOf n).sels[sel]? = some z → group < 8 →
      ((((s.run.slcOf n).g.sels[sel]?).getD {}).allowed.testBit group) = true →
      exec (.grpForce c sel group) s =
        .next (s.done c ((s.run.modSlc n fun x =>
          { x with sels := modAt x.sels sel fun z => { z with forced := some group, released := false } }).noteMirror (.groups n)) {})) ∧
  (∀ (s : State) (c : Cmd) (a : Accepted) (n sel : Nat) (z : Selector), s.Ready { op := 0x0708, pf0 := false } c a →
      a.target = some n → (s.run.inst n).phase ≠ .free → (s.run.slcOf n).sels[sel]? = some z →
      exec (.grpRelease c sel) s =
        .next (s.done c ((s.run.modSlc n fun x =>
          { x with sels := modAt x.sels sel fun z => { z with
              forced := none, released := z.forced.isSome && z.request.isSome && z.request != some z.active } }).noteMirror (.groups n)) {})) ∧
  (∀ (s : State) (c : Cmd) (a : Accepted) (n : Nat), s.Ready { op := 0x0709, pf0 := false } c a →
      a.target = some n → (s.run.inst n).phase ≠ .free →
      exec (.grpQuery c) s =
        .next (s.done c (s.run.takeFree 32).2 { result := (s.run.slcOf n).sels.flatMap fun z =>
          [(z.active : Int), if z.forced.isSome then 1 else 0, ((z.request.getD 0xFF : Nat) : Int),
           match z.changedAt with
           | some t => ((min ((s.run.now - t) / 1000000000) (2 ^ 32 - 1) : Nat) : Int)
           | none => ((s.run.takeFree 32).1.toNat : Int)] }))

/-! ### Chapters 12 and 13: the CLE and Millrace -/

/-- Cycles of tasks, jobs that run none, and checkpoints (R423, R438, R440, R443, R447).
Choices of the model behind these rows: assumptions 75. -/
def Obligations.CleEventsComplete : Prop :=
  (∀ (s : State) (n i dt : Nat) (f : Flight) (x : CycleRes), s.Running → (s.run.pass dt).taskFlight n i = some f →
      (s.run.pass dt).cycleOf n i f = some x → x.fate = .ended → (s.run.pass dt).engineDone f x.cost = true →
      exec (.cleCycle n i dt) s = .next (s.ran ((s.run.pass dt).cycleEnds n i f x))) ∧
  (∀ (s : State) (n i dt : Nat) (f : Flight) (x : CycleRes), s.Running → (s.run.pass dt).taskFlight n i = some f →
      (s.run.pass dt).cycleOf n i f = some x → x.fate ≠ .ended → (s.run.pass dt).engineDone f x.cost = true →
      exec (.cleCycleFault n i dt) s = .next (s.ran ((s.run.pass dt).cycleFaults n i f x))) ∧
  (∀ (s : State) (n i dt : Nat) (f : Flight) (t : TaskSt), s.Running → (s.run.pass dt).taskFlight n i = some f →
      (s.run.pass dt).task n i = some t → t.image = none → (s.run.pass dt).engineDone f 8 = true →
      exec (.cleEmptyJob n i dt) s = .next (s.ran ((s.run.pass dt).emptyJob n i f))) ∧
  (∀ (s : State) (dt : Nat), s.Running → (s.run.pass dt).passed 1000000000 0 = true → s.run.flt.hkpAway = false →
      s.run.flt.hkpDead = false →
      exec (.retainCheckpoint dt) s = .next (s.ran (s.run.pass dt).checkpoints))

/-- The CLE commands (R432, R444 to R446, R453).
Choices of the model behind these rows: assumptions 75, 88, 99, 100. -/
def Obligations.CleCommandsComplete : Prop :=
  (∀ (s : State) (c : Cmd) (a : Accepted) (n sig : Nat) (octets : List Nat) (image : CleImage),
      s.Ready { op := 0x0800, pf0 := false, buf := true, need := some octets.length } c a → a.target = some n → (s.run.inst n).phase ≠ .free → image.ok = true →
      exec (.cleProgLoad c octets sig image) s =
        .next (match s.run.verifyBundle n octets sig with
          | (r, true) => s.done c (r.modCleInst n fun x => { x with staged := some (some image) })
              { result := [(image.tasks.length : Int), (image.units : Int)] }
          | (r, false) => s.done c r { status := .auth })) ∧
  (∀ (s : State) (c : Cmd) (a : Accepted) (n : Nat), s.Ready { op := 0x0801, pf0 := false } c a → a.target = some n →
      (s.run.inst n).phase ≠ .free →
      exec (.cleProgUnload c) s = .next (s.done c (s.run.modCleInst n fun x => { x with staged := some none }) {})) ∧
  (∀ (s : State) (c : Cmd) (a : Accepted) (n index mode : Nat) (t : TaskSt) (m : TaskMode), s.Ready { op := 0x0802, pf0 := false } c a →
      a.target = some n → (s.run.inst n).phase ≠ .free → s.run.task n index = some t → modeOf mode = some m →
      (m = .hold → t.task.supervisory = true) → (t.mode.may m = true ∨ (t.image.isSome = true ∧ t.wait ≠ [])) →
      exec (.cleTaskMode c index mode) s =
        .next (if t.image.isSome then
            s.waits c (s.run.modTask n index fun t => { t with wait := t.wait ++ [{ fn := c.fn, cseq := c.cseq, ask := .mode m }] })
          else s.done c (s.run.cleMode n index m) {})) ∧
  (∀ (s : State) (c : Cmd) (a : Accepted) (n index : Nat) (warm : Bool) (t : TaskSt), s.Ready { op := 0x0803, pf0 := false } c a →
      a.target = some n → (s.run.inst n).phase ≠ .free → s.run.task n index = some t → (t.mode = .stop ∨ t.mode = .halted) →
      exec (.cleTaskStart c index warm) s = .next (s.done c (s.run.cleStart n index warm) {})) ∧
  (∀ (s : State) (c : Cmd) (a : Accepted) (n index : Nat) (t : TaskSt), s.Ready { op := 0x0804, pf0 := false } c a →
      a.target = some n → (s.run.inst n).phase ≠ .free → s.run.task n index = some t → t.mode = .hold → t.step = none →
      exec (.cleTaskStep c index) s =
        .next (s.waits c (s.run.modTask n index fun t => { t with step := some (c.fn, c.cseq) }))) ∧
  (∀ (s : State) (c : Cmd) (a : Accepted) (n index addr len : Nat) (t : TaskSt), s.Ready { op := 0x0805, pf0 := false } c a →
      a.target = some n → (s.run.inst n).phase ≠ .free → s.run.task n index = some t → spanOk t.task addr len = true →
      len ≤ a.entry.bufLen → c.bufErr = false →
      exec (.cleVarRead c index addr len) s =
        .next (s.done c s.run { buffer := (List.range len).map fun k => ((tabGetD t.va (addr + k) 0 : Nat) : Int), bufLen := len })) ∧
  (∀ (s : State) (c : Cmd) (a : Accepted) (n index addr : Nat) (octets : List Byte) (t : TaskSt),
      s.Ready { op := 0x0806, pf0 := false, buf := true, need := some octets.length } c a →
      a.target = some n → (s.run.inst n).phase ≠ .free → s.run.task n index = some t →
      (t.mode = .stop ∨ (t.mode = .hold ∧ t.task.supervisory = true)) → spanOk t.task addr octets.length = true →
      (∀ k < octets.length, (t.task.vars.any fun v => decide (v.addr ≤ addr + k) && decide (addr + k < v.addr + v.size)) = true) →
      exec (.cleVarWrite c index addr octets) s =
        .next (if t.image.isSome then
            s.waits c (s.run.modTask n index fun t => { t with wait := t.wait ++ [{ fn := c.fn, cseq := c.cseq, ask := .write addr octets }] })
          else s.done c (s.run.cleStore n index addr octets) {})) ∧
  (∀ (s : State) (c : Cmd) (a : Accepted) (n index : Nat) (t : TaskSt), s.Ready { op := 0x0807, pf0 := false } c a →
      a.target = some n → (s.run.inst n).phase ≠ .free → s.run.task n index = some t →
      exec (.cleTaskRead c index) s =
        .next (s.done c s.run { result := [(t.mode.code : Int), if t.task.supervisory then 1 else 0, (t.task.engine : Int),
          (t.lastFault : Int), (t.cycleNo : Int), (t.dev : Int), (t.longest : Int)] }))

/-- Evaluations of a loop and the Millrace commands (R460, R465, R471 to R476).
Choices of the model behind these rows: assumptions 76. -/
def Obligations.MillraceRowsComplete : Prop :=
  (∀ (s : State) (n index dt l : Nat) (f : Flight) (x : LoopSt) (y : GNode), s.Running →
      (s.run.slc.flights.find? fun f => f.inst == n && f.cls == 2 && f.phase == .executing && f.engine.isNone &&
        f.gen == (s.run.inst n).gen && match (s.run.slcOf n).g.nodes[f.node]? with | some x => x.op == index | none => false) = some f →
      s.run.loopDev n index = some l → s.run.loop l = some x → (s.run.slcOf n).g.nodes[f.node]? = some y →
      loopCost x.record ≤ y.budget →
      f.start * 4000 + clsDispatch 2 + loopCost x.record * clsPeriod 2 ≤ (s.run.pass dt).ticks * 4000 →
      exec (.loopEvaluation n index dt) s =
        .next (s.ran (((s.run.pass dt).mlrEvaluate l (x.tickOf f)).modFlight f fun f => { f with engine := some .done }))) ∧
  (∀ (s : State) (c : Cmd) (a : Accepted) (n index : Nat) (x : LoopRec), s.Ready { op := 0x0900, pf0 := false, buf := true, need := some 320 } c a →
      a.target = some n → (s.run.inst n).phase ≠ .free → index < 64 → loopDefect x = none →
      exec (.mlrLoopSet c index x) s =
        .next (s.done c (s.run.modMlr fun y => { y with staged := tabSet y.staged (64 * n + index) (some x) }) {})) ∧
  (∀ (s : State) (c : Cmd) (a : Accepted) (n index : Nat), s.Ready { op := 0x0901, pf0 := false } c a →
      a.target = some n → (s.run.inst n).phase ≠ .free → ((s.run.loopView n).any fun e => e.1 == index) = true →
      exec (.mlrLoopDelete c index) s =
        .next (s.done c (s.run.modMlr fun y => { y with staged := tabSet y.staged (64 * n + index) none }) {})) ∧
  (∀ (s : State) (c : Cmd) (a : Accepted) (n index mode l : Nat) (value : Option Word) (x : LoopSt), s.Ready { op := 0x0902, pf0 := false } c a →
      a.target = some n → (s.run.inst n).phase ≠ .free → s.run.loopDev n index = some l → s.run.loop l = some x → mode ≤ 1 →
      exec (.mlrMode c index mode value) s =
        .next (s.done c (s.run.modLoop l fun x => { x with reqs := x.reqs ++ [{ auto := mode == 1, cause := 1, value := value }] }) {})) ∧
  (∀ (s : State) (c : Cmd) (acc : Accepted) (n index stage kind order len hold seconds tick l : Nat) (a fStart fEnd : Word) (x : LoopSt),
      s.Ready { op := 0x0903, pf0 := false } c acc →
      acc.target = some n → (s.run.inst n).phase ≠ .free → s.run.loopDev n index = some l → s.run.loop l = some x →
      let i : Inject := { stage := stage, kind := kind, order := order, a := a, fStart := fStart, fEnd := fEnd, len := len, hold := hold,
                          tick := seconds * (if x.record.gridQ then 14400 else 4800) + tick, lfsr := 2 ^ order - 1 }
      injectOk x.record i tick = true → x.inject = none → (8 ≤ stage ∨ x.auto = true ∨ stage < x.record.preset) →
      exec (.mlrInject c index stage kind order a fStart fEnd len hold seconds tick) s =
        .next (s.done c (s.run.modLoop l fun x => { x with inject := some i }) {})) ∧
  (∀ (s : State) (c : Cmd) (a : Accepted) (n index l : Nat) (x : LoopSt), s.Ready { op := 0x0904, pf0 := false } c a →
      a.target = some n → (s.run.inst n).phase ≠ .free → s.run.loopDev n index = some l → s.run.loop l = some x → x.inject.isSome = true →
      exec (.mlrInjectStop c index) s =
        .next (s.done c ((s.run.modLoop l fun x => { x with inject := none }).mlrEvent l .mlrCapture [0xFF, 2]) {})) ∧
  (∀ (s : State) (c : Cmd) (a : Accepted) (n slot index sigA sigB points seconds tick l : Nat) (x : LoopSt),
      s.Ready { op := 0x0905, pf0 := false } c a →
      a.target = some n → (s.run.inst n).phase ≠ .free → s.run.loopDev n index = some l → s.run.loop l = some x →
      slot < 4 → sigA ≤ 18 → sigB ≤ 18 → 1 ≤ points → points ≤ 4096 → tick < (if x.record.gridQ then 14400 else 4800) →
      (s.run.mlr.caps.getD slot {}).busy = false →
      exec (.mlrCapture c slot index sigA sigB points seconds tick) s =
        .next (s.done c (s.run.modMlr fun y => { y with caps := modAt y.caps slot fun _ =>
          { busy := true, loop := l, inst := x.inst, sigA := sigA, sigB := sigB, len := points,
            tick := seconds * (if x.record.gridQ then 14400 else 4800) + tick } }) {})) ∧
  (∀ (s : State) (c : Cmd) (a : Accepted) (slot : Nat), s.Ready { op := 0x0906, pf0 := false } c a → slot < 4 →
      let z := s.run.mlr.caps.getD slot {}
      z.busy = false → z.readableBy c.fn = true →
      16 * z.points.length ≤ a.entry.bufLen → c.bufErr = false →
      exec (.mlrCaptureRead c slot) s =
        .next (s.done c (s.run.modMlr fun y => { y with caps := modAt y.caps slot fun z => { z with done := false } })
          { buffer := z.points.flatMap pointFields, bufLen := 16 * z.points.length })) ∧
  (∀ (s : State) (c : Cmd) (a : Accepted) (n index l : Nat) (x : LoopSt), s.Ready { op := 0x0907, pf0 := false } c a →
      a.target = some n → (s.run.inst n).phase ≠ .free → s.run.loopDev n index = some l → s.run.loop l = some x →
      exec (.mlrLoopRead c index) s =
        .next (s.done c s.run { result := [if x.auto then 1 else 0, if x.missed then 1 else 0, (x.sat : Int), x.limited + 1,
          (x.out.toNat : Int), (x.manual.toNat : Int), (l : Int)] }))

/-! ### Chapter 14: publications, Tributary, safety I/O -/

/-- The retransmission of a GOOSE publication and the publication commands (R480 to R485, R511).
Choices of the model behind these rows: assumptions 71. -/
def Obligations.PublicationRowsComplete : Prop :=
  (∀ (s : State) (d dt : Nat), s.Running → exec (.gooseRetransmit d dt) s = .next (s.ran ((s.run.pass dt).gooseRetry d))) ∧
  (∀ (s : State) (c : Cmd) (a : Accepted) (n index i : Nat) (x : GoosePub), s.Ready { op := 0x0A00, pf0 := false, buf := true, need := some 512 } c a →
      a.target = some n → (s.run.inst n).phase ≠ .free → x.ok = true → s.run.pubKeyOk n x.auth x.key = true →
      pubIndex ((s.run.gooseView n).map (·.1)) 512 index = some i →
      exec (.pubGooseSet c index x) s =
        .next (s.done c (s.run.modTrip fun t => { t with gooseStaged := tabSet t.gooseStaged (512 * n + i) (some x) }) { result := [(i : Int)] })) ∧
  (∀ (s : State) (c : Cmd) (a : Accepted) (n index i : Nat) (x : SvPub), s.Ready { op := 0x0A01, pf0 := false, buf := true, need := some 192 } c a →
      a.target = some n → (s.run.inst n).phase ≠ .free → x.ok = true → s.run.pubKeyOk n x.auth x.key = true →
      pubIndex ((s.run.svView n).map (·.1)) 64 index = some i →
      exec (.pubSvSet c index x) s =
        .next (s.done c (s.run.modTrip fun t => { t with svStaged := tabSet t.svStaged (512 * n + i) (some x) }) { result := [(i : Int)] })) ∧
  (∀ (s : State) (c : Cmd) (a : Accepted) (n index : Nat), s.Ready { op := 0x0A02, pf0 := false } c a →
      a.target = some n → (s.run.inst n).phase ≠ .free →
      (((s.run.svView n).any fun e => e.1 == index) = true →
        exec (.pubDelete c 0 index) s =
          .next (s.done c (s.run.modTrip fun t => { t with svStaged := tabSet t.svStaged (512 * n + index) none }) {})) ∧
      (((s.run.gooseView n).any fun e => e.1 == index) = true →
        exec (.pubDelete c 1 index) s =
          .next (s.done c (s.run.modTrip fun t => { t with gooseStaged := tabSet t.gooseStaged (512 * n + index) none }) {}))) ∧
  (∀ (s : State) (c : Cmd) (a : Accepted) (n index d : Nat), s.Ready { op := 0x0A03, pf0 := false } c a →
      a.target = some n → (s.run.inst n).phase ≠ .free →
      (∀ x, s.run.svDev n index = some d → s.run.svPub d = some x →
        exec (.pubRead c 0 index) s =
          .next (s.done c s.run { result := [(x.smpCnt : Int), 0, if s.run.suspended n then 0 else 1] })) ∧
      (∀ x, s.run.gooseDev n index = some d → s.run.goosePub d = some x →
        exec (.pubRead c 1 index) s =
          .next (s.done c s.run { result := [(x.stNum : Int), (x.sqNum : Int),
            if s.run.suspended n then 0 else if x.twinOff then 2 else 1] })))

/-- Tributary and the twin pair (R492 to R497, R654).
Choices of the model behind these rows: assumptions 30, 69. -/
def Obligations.TributaryRowsComplete : Prop :=
  (∀ (s : State) (dt : Nat), s.Running → exec (.tribSend dt) s = .next (s.ran (s.run.pass dt).settleTrib.tribSend)) ∧
  (∀ (s : State) (m : TribMsg) (dt : Nat), s.Running → exec (.tribReceive m dt) s = .next (s.ran ((s.run.pass dt).settleTrib.tribReceive m))) ∧
  (∀ (s : State) (complete : Bool) (dt k : Nat), s.Running → s.run.trip.trib.join = some k →
      (complete = true ∨ k + 4800 ≤ (s.run.pass dt).pTickNow) →
      exec (.twinJoinEnd complete dt) s = .next (s.ran (s.run.pass dt).joinEnd)) ∧
  (∀ (s : State) (dt k : Nat) (x : TribCfg), s.Running →
      let r := (s.run.pass dt).settleTrib
      r.trip.trib.cfg = some x → r.trip.trib.rxTick = some k → r.trip.trib.paired = true → k + x.timeout ≤ r.pTickNow →
      exec (.tribTimeout dt) s = .next (s.ran r.tribLone)) ∧
  (∀ (s : State) (c : Cmd) (a : Accepted) (twinId pairId portA key da timeout vlan : Nat) (portB : Option Nat), s.Ready { op := 0x0A04, pf0 := true } c a →
      1 ≤ twinId → twinId ≤ 2 → pairId ≤ 65535 → 3 ≤ timeout → timeout ≤ 48 →
      (vlan = 0 ∨ (1 ≤ vlan % 4096 ∧ vlan % 4096 ≤ 4094)) → s.run.sw.tribPort portA = true →
      (portB.all fun p => s.run.sw.tribPort p) = true →
      let x : TribCfg := { twinId := twinId, pairId := pairId, portA := portA, portB := portB, key := key, da := da, timeout := timeout,
                           vid := vlan % 4096, pcp := vlan / 8192 % 8 }
      exec (.tribSet c twinId pairId portA portB key da timeout vlan) s =
        .next (s.done c (s.run.settleTrib.modTrib fun t => { t with next := some (x, s.run.pTickNow + 1) }) {})) ∧
  (∀ (r : Run) (x : TribCfg) (k : Nat), r.trip.trib.next = some (x, k) →
      r.settleTrib = if k ≤ r.pTickNow then r.tribEnter x else r) ∧
  (∀ (s : State) (c : Cmd) (a : Accepted), s.Ready { op := 0x0A05, pf0 := false } c a →
      let r := s.run.settleTrib
      exec (.tribQuery c) s =
        .next (s.done c (r.takeFree 32).2 { result := [(r.trip.trib.state : Int), (((r.trip.trib.cfg.map (·.twinId)).getD 0 : Nat) : Int),
          ((match r.trip.trib.rxTick with | some k => min (r.pTickNow - k) 65535 | none => 0 : Nat) : Int), (r.takeFree 32).1.toNat] }))

/-- Outputs, inputs, latches and sessions of safety I/O (R499 to R503, R506).
Choices of the model behind these rows: assumptions 70. -/
def Obligations.SafetyIoEventsComplete : Prop :=
  (∀ (s : State) (n cause dt : Nat) (level : Bool), s.Up → (s.run.so n).enabled = true → (s.run.so n).contradicts level cause = true →
      exec (.sofbMismatch n level cause dt) s =
        .next (s.ran (((s.run.pass dt).modSo n fun z => { z with sofb := level }).soFault n cause))) ∧
  (∀ (s : State) (n dt : Nat), s.Up → (s.run.so n).enabled = true → (s.run.so n).drive = true → (s.run.so n).pulse = none →
      (s.run.pass dt).passed 1000000000 (n * 31250000) = true →
      exec (.offPulseStart n dt) s =
        .next (s.ran (((s.run.pass dt).modSo n fun z => { z with pulse := some (s.run.ticks + dt) }.follow true).emit (.ball (.so n) .low)))) ∧
  (∀ (s : State) (n dt t : Nat), s.Up → (s.run.so n).pulse = some t → t + usTicks s.run.trip.offPulse ≤ s.run.ticks + dt →
      let r := (s.run.pass dt).modSo n fun z => { z with pulse := none, stat := tabInc z.stat 1 }.follow false
      exec (.offPulseEnd n dt) s = .next (s.ran (if (r.so n).enabled then r.emit (.ball (.so n) .high) else r))) ∧
  (∀ (s : State) (n edge dt : Nat) (level : Bool), s.Up → n < 32 → (s.run.bi n).level ≠ level →
      edge + (s.run.bi n).debounce * 25000 ≤ s.run.ticks + dt →
      let r := s.run.pass dt
      let r' := r.modTrip fun t => { t with bis := modAt t.bis n fun z =>
        { z with level := level, since := r.ticks, changes := (z.changes + 1) % 2 ^ 64, log := ((r.now, level) :: z.log).take 64 } }
      exec (.biChange n level edge dt) s =
        .next (s.ran ((r'.resetInput n level (s.run.bi n).since).drTriggerAll
          (fun _ x => (if level then x.record.biRise else x.record.biFall).contains n)
          { instant := r.instantAt edge, cause := 2, index := n }))) ∧
  (∀ (s : State) (l dt t : Nat), s.Up → (s.run.latch l).highSince = some t → (s.run.latch l).set = true → t + msTicks 20 ≤ s.run.ticks + dt →
      let r := s.run.pass dt
      exec (.latchReset l dt) s =
        .next (s.ran (if r.trcHolds l then
            r.latchRefuse l
          else (r.modLatch l fun z => { z with set := false, changes := (z.changes + 1) % 65536, highSince := none }).latchEvent l 2))) ∧
  (∀ (s : State) (fn dt t : Nat), s.Up → tabGet s.run.trip.sessions fn = some t → t + msTicks 600000 ≤ s.run.ticks + dt →
      exec (.sioSessionExpiry fn dt) s =
        .next (s.ran ((s.run.pass dt).modTrip fun x => { x with sessions := tabDel x.sessions fn })))

/-- The safety I/O commands (R499, R505 to R508, R511); what a password verifies as is open, so SIO_UNLOCK says both outcomes of it.
Choices of the model behind these rows: assumptions 70, 80. -/
def Obligations.SafetyIoCommandsComplete : Prop :=
  (∀ (s : State) (c : Cmd) (a : Accepted) (password : List Nat) (salt hash : Nat), s.Ready { op := 0x0A06, pf0 := false, buf := true, need := some password.length } c a →
      s.run.verifier = some (salt, hash) → (∀ t, s.run.trip.lockout = some t → t ≤ s.run.ticks) →
      let r := s.run.modTrip fun t => { t with fails := 0, lockout := none, sessions := tabSet t.sessions c.fn s.run.ticks }
      let wait := lockoutOf (s.run.trip.fails + 1)
      let r' := s.run.modTrip fun t =>
        { t with fails := s.run.trip.fails + 1, lockout := if wait = 0 then none else some (s.run.ticks + msTicks (wait * 1000)) }
      exec (.sioUnlock c password) s =
        .next (if passwordOk password && verifierOf password salt == hash then s.done c ((r.sioConfigNote c.fn).unlockRecord c 0) {}
          else s.done c (((r'.sioConfigNote c.fn).raise
            { ev := .sioAuthFail, source := 709, data := [((s.run.trip.fails + 1 : Nat) : Int), wait] }).unlockRecord c 1) { status := .auth })) ∧
  (∀ (s : State) (c : Cmd) (a : Accepted) (password : List Nat) (t : Nat), s.Ready { op := 0x0A06, pf0 := false, buf := true, need := some password.length } c a →
      s.run.trip.lockout = some t → s.run.ticks < t →
      exec (.sioUnlock c password) s = .next (s.done c ((s.run.sioConfigNote c.fn).unlockRecord c 2) { status := .sioLockout })) ∧
  (∀ (s : State) (c : Cmd) (a : Accepted), s.Ready { op := 0x0A07, pf0 := false } c a →
      exec (.sioLock c) s =
        .next (s.done c (s.run.modTrip fun t => { t with sessions := tabDel t.sessions c.fn }) {})) ∧
  (∀ (s : State) (c : Cmd) (a : Accepted) (old new : List Nat), s.Ready { op := 0x0A08, pf0 := true, buf := true, need := some (2 + old.length + new.length) } c a → passwordOk new = true → s.run.srm.trngFail = false →
      let right : Bool := match s.run.verifier with | none => old.isEmpty | some (salt, hash) => verifierOf old salt == hash
      let note (r : Run) (outcome : Int) : Run := r.stage { type := 0x0022, time := r.now, data := [outcome, c.fn, c.cseq.toNat] }
      let salt := s.run.takeFree 128
      exec (.sioPasswordSet c old new) s =
        .next (if right then
            s.done c (note ((salt.2.setVerifier salt.1.toNat (verifierOf new salt.1.toNat)).sioConfigNote c.fn) 0) {}
          else s.done c (note s.run 1) { status := .auth })) ∧
  (∀ (s : State) (c : Cmd) (a : Accepted) (item index value : Nat), s.Ready { op := 0x0A09, pf0 := false } c a →
      s.run.verifier.isSome = true → s.run.session c.fn = true → sioRange item index value = true → s.run.sioMay c.fn item index = true →
      (item = 2 → (s.run.so (index / 2 * 2)).drive = false ∧ (s.run.so (index / 2 * 2 + 1)).drive = false) →
      let r := (s.run.sioSet item index value).raise { ev := .sioConfig, source := 708, data := [(item : Int), index, c.fn] }
      exec (.sioCfgSet c item index value) s =
        .next (s.done c (r.stage
            { type := 0x0020, time := r.now,
              data := [(item : Int), index, s.run.sioItem item index, value, c.fn, c.cseq.toNat] }) {})) ∧
  (∀ (s : State) (c : Cmd) (a : Accepted) (n : Nat) (sofb : List Bool), s.Ready { op := 0x0A0A, pf0 := false } c a → n < 32 →
      s.run.verifier.isSome = true → s.run.session c.fn = true → (c.fn = 0 ∨ (s.run.so n).owner = some (c.fn - 1)) →
      (((s.run.channelsOf n).zip sofb).any fun e => (s.run.so e.1).level != e.2) = false →
      exec (.sioFaultClear c n sofb) s =
        .next (s.done c ((s.run.channelsOf n).foldl (fun (r : Run) i => r.modSo i fun z => { z with fault := false, cause := 0, sofb := z.level }) s.run) {})) ∧
  (∀ (s : State) (c : Cmd) (a : Accepted) (sofb : Word), s.Ready { op := 0x0A0B, pf0 := false } c a →
      let r := (List.range 32).foldl (fun (r : Run) i => r.modSo i fun z => { z with sofb := sofb.getLsbD i }) s.run
      let word (p : Nat → Bool) : Int := ((List.range 32).foldl (fun n i => if p i then n + 2 ^ i else n) 0 : Nat)
      exec (.sioQuery c sofb) s =
        .next (s.done c r { result := [word fun i => (r.so i).drive, word fun i => (r.so i).sofb, word fun i => (r.so i).fault,
          word fun i => (r.latch i).set, word fun i => (r.bi i).level] }))

/-! ### Chapter 15: recorders -/

/-- Rows, triggers and timers of the recorders (R519 to R526).
Choices of the model behind these rows: assumptions 91. -/
def Obligations.RecorderEventsComplete : Prop :=
  (∀ (s : State) (d dt : Nat), s.Running → exec (.drRowWrite d dt) s = .next (s.ran ((s.run.pass dt).drWrite d))) ∧
  (∀ (s : State) (n dt : Nat), s.Running →
      exec (.xtrigInEdge n dt) s =
        .next (s.ran ((s.run.pass dt).drTriggerAll (fun d x => x.record.xin.contains n && !(((tabGet s.run.dr.xout n).map (·.recs)).getD []).contains d)
          { instant := (s.run.pass dt).now, cause := 3, index := n }))) ∧
  (∀ (s : State) (d dt : Nat) (x : Rec) (w : DrRow), s.Running → s.run.recorder d = some x → x.phase = .armed → x.record.auto = true →
      (x.ring.find? fun w => decide ((x.armedAt : Rat) + (x.record.autoT : Rat) * 1000000 ≤ w.at')) = some w →
      exec (.drAutoTrigger d dt) s =
        .next (s.ran ((s.run.pass dt).drTrigger d { instant := w.at'.floor.toNat, cause := 5 }))) ∧
  (∀ (s : State) (d dt : Nat), s.Running → exec (.drRearmExpiry d dt) s = .next (s.ran ((s.run.pass dt).drRearmed d))) ∧
  (∀ (s : State) (n dt : Nat) (x : XOut), s.Running → tabGet s.run.dr.xout n = some x → x.till ≤ s.run.ticks + dt →
      exec (.xtrigOutPulseEnd n dt) s =
        .next (s.ran (((s.run.pass dt).modDr fun y => { y with xout := tabDel y.xout n }).emit (.ball (.xtrigOut n) .z))))

/-- The recorder commands (R516, R520, R524, R527, R528, R533, R534).
Choices of the model behind these rows: assumptions 25, 75, 91, 99, 100. -/
def Obligations.RecorderCommandsComplete : Prop :=
  (∀ (s : State) (c : Cmd) (a : Accepted) (n index : Nat) (x : DrRec), s.Ready { op := 0x0B00, pf0 := false, buf := true, need := some (64 + 40 * (x.analog.length + x.binary.length)) } c a →
      a.target = some n → (s.run.inst n).phase ≠ .free → index < 16 → x.ok = true →
      exec (.drcSet c index x) s =
        .next (s.done c (s.run.modDr fun y => { y with staged := tabSet y.staged (16 * n + index) (some x) }) {})) ∧
  (∀ (s : State) (c : Cmd) (a : Accepted) (n index : Nat), s.Ready { op := 0x0B01, pf0 := false } c a →
      a.target = some n → (s.run.inst n).phase ≠ .free → ((s.run.drView n).any fun e => e.1 == index) = true →
      exec (.drcDelete c index) s =
        .next (s.done c (s.run.modDr fun y => { y with staged := tabSet y.staged (16 * n + index) none }) {})) ∧
  (∀ (s : State) (c : Cmd) (a : Accepted) (n index test chan i : Nat) (points : List (Int × Word × Word)) (x : DrRec),
      s.Ready { op := 0x0B02, pf0 := false, buf := !points.isEmpty } c a →
      a.target = some n → (s.run.inst n).phase ≠ .free → ((s.run.drView n).find? fun e => e.1 == index) = some (i, x) → test < 8 →
      (points = [] ∨ (maskPointsOk points = true ∧ chan < x.analog.length)) →
      exec (.drcMaskSet c index test chan points) s =
        .next (s.done c (s.run.modDr fun y =>
          { y with masksStaged := tabSet y.masksStaged (8 * (16 * n + index) + test)
                     (if points.isEmpty then none else some { chan := chan, points := points }) }) {})) ∧
  (∀ (s : State) (c : Cmd) (a : Accepted) (n index seconds ns d : Nat) (x : Rec), s.Ready { op := 0x0B03, pf0 := false } c a →
      a.target = some n → (s.run.inst n).phase ≠ .free → s.run.drOf n index = some (d, x) → ns < 1000000000 →
      exec (.drcTrigger c index seconds ns) s =
        .next (s.done c (s.run.drTrigger d
          { instant := if seconds = 0 ∧ ns = 0 then s.run.now else seconds * 1000000000 + ns, cause := 4 }) {})) ∧
  (∀ (s : State) (c : Cmd) (a : Accepted) (n index d : Nat) (x : Rec), s.Ready { op := 0x0B04, pf0 := false } c a →
      a.target = some n → (s.run.inst n).phase ≠ .free → s.run.drOf n index = some (d, x) → (x.phase = .stopped ∨ x.phase = .full) →
      x.roomToArm = true →
      exec (.drcArm c index) s = .next (s.done c (s.run.drArm d) {})) ∧
  (∀ (s : State) (c : Cmd) (a : Accepted) (n index d : Nat) (x : Rec), s.Ready { op := 0x0B04, pf0 := false } c a →
      a.target = some n → (s.run.inst n).phase ≠ .free → s.run.drOf n index = some (d, x) →
      exec (.drcStop c index) s = .next (s.done c (s.run.drEnter d .stopped 1) {})) ∧
  (∀ (s : State) (c : Cmd) (a : Accepted) (n index d : Nat) (x : Rec), s.Ready { op := 0x0B05, pf0 := false } c a →
      a.target = some n → (s.run.inst n).phase ≠ .free → s.run.drOf n index = some (d, x) →
      288 * x.held.length ≤ a.entry.bufLen → c.bufErr = false →
      exec (.drcList c index) s =
        .next (s.done c s.run { buffer := x.held.flatMap fun h => h.header x.index x.record.bufBytes, bufLen := 288 * x.held.length })) ∧
  (∀ (s : State) (c : Cmd) (a : Accepted) (n index number first rows d : Nat) (x : Rec) (h : DrRecord), s.Ready { op := 0x0B06, pf0 := false } c a →
      a.target = some n → (s.run.inst n).phase ≠ .free → s.run.drOf n index = some (d, x) → x.heldRecord number = some h →
      first + rows ≤ h.rows.length → rows * h.rowBytes ≤ a.entry.bufLen → c.bufErr = false →
      exec (.drcRead c index number first rows) s =
        .next (s.done c s.run { buffer := (((h.rows.drop first).take rows).flatMap (DrRow.octets h.record)).map Int.ofNat, bufLen := rows * h.rowBytes })) ∧
  (∀ (s : State) (c : Cmd) (a : Accepted) (n index number d : Nat) (x : Rec) (h : DrRecord), s.Ready { op := 0x0B07, pf0 := false } c a →
      a.target = some n → (s.run.inst n).phase ≠ .free → s.run.drOf n index = some (d, x) → x.heldRecord number = some h →
      let items := s.run.comtradeItems s.sys.serial d x h
      let cfg := Config.comtradeCfg items
      let inf := Config.comtradeInf items
      let dat := (List.range h.rows.length).flatMap fun i =>
        match h.rows[i]? with | some w => datSample (h.rows.head?.getD { q := 0, values := [], quals := [] }) h.record i w | none => []
      let len := 32 + cfg.length + dat.length + inf.length
      let head : List Nat := [32, cfg.length, 32 + cfg.length, dat.length, 32 + cfg.length + dat.length, inf.length]
      c.bufErr = false →
      exec (.drcExport c index number) s =
        .next (if a.entry.bufLen < len then s.done c s.run { status := .buf, result := [(len : Int)] }
          else s.done c s.run { buffer := (head ++ cfg ++ dat ++ inf).map Int.ofNat, bufLen := len })) ∧
  (∀ (s : State) (c : Cmd) (a : Accepted) (n index number d : Nat) (x : Rec) (h : DrRecord), s.Ready { op := 0x0B08, pf0 := false } c a →
      a.target = some n → (s.run.inst n).phase ≠ .free → s.run.drOf n index = some (d, x) → x.heldRecord number = some h →
      exec (.drcRelease c index number) s =
        .next (s.done c (s.run.modRec d fun y => { y with held := y.held.filter fun h => h.number != number }) {}))

/-! ### Chapters 16 and 17: Cellar, ledger, Strongroom -/

/-- Flushes, lost records and the Cellar commands; the signature of CEL_CLEAR is open, so both outcomes are said (R541, R543, R546, R547, R556).
Choices of the model behind these rows: assumptions 19, 44, 63, 79. -/
def Obligations.CellarRowsComplete : Prop :=
  (∀ (s : State) (dt : Nat), s.Up → (s.run.pass dt).onSecond = true → s.run.cel.stage ≠ [] →
      exec (.cellarFlushSecond dt) s = .next (s.ran ((s.run.pass dt).modCel (·.flush)))) ∧
  (∀ (s : State) (dt tagErases : Nat) (err : Option (Nat × Nat)), s.Up → s.run.cel.flushing = true →
      let p := s.run.pass dt
      let r := (((if s.run.cel.powerFail then p.endCommits else p).flushOnce).count .flbErases tagErases).afterFlush
      exec (.cellarFlushDone tagErases err dt) s =
        .next (s.ran (match err with
          | some (a, n) => if flushAddress a then r.raise { ev := .celFlushErr, source := 803, data := [(a : Int), n] } else r
          | none => r))) ∧
  (∀ (s : State) (dt : Nat), s.Up → s.run.cel.lostNow ≠ 0 → s.run.stageFull = false →
      let r := (s.run.pass dt).modCel fun c => { c with lostNow := 0 }
      let x : CelItem := { type := 4, time := r.now, data := [(s.run.cel.lostNow : Int)] }
      let e : Raise := { ev := .celLoss, source := 800, data := [((s.run.cel.lostNow % 2 ^ 32 : Nat) : Int)] }
      exec (.stageLossRecord dt) s =
        .next (s.ran (if s.run.cel.stage.length = 4095 then (r.stage x).raise e else (r.raise e).stage x))) ∧
  (∀ (s : State) (c : Cmd) (a : Accepted) (start count : Nat) (bad : List Nat), s.Ready { op := 0x0C00, pf0 := true } c a →
      1 ≤ count → count ≤ 65536 → s.run.cel.tail ≤ start →
      let l := (s.run.cel.ring.filter fun x => decide (start ≤ x.seq)).take count
      72 * l.length ≤ a.entry.bufLen → c.bufErr = false →
      exec (.celRead c start count bad) s =
        .next (s.done c (s.run.reportPages l bad) { buffer := l.flatMap fun x => x.fields (s.run.verdict bad x), bufLen := 72 * l.length })) ∧
  (∀ (s : State) (c : Cmd) (a : Accepted), s.Ready { op := 0x0C01, pf0 := true } c a →
      (s.run.cel.stage = [] → s.run.cel.flushing = false → exec (.celFlush c) s = .next (s.done c s.run {})) ∧
      (s.run.cel.stage ≠ [] ∨ s.run.cel.flushing = true →
        exec (.celFlush c) s =
          .next (s.waits c (s.run.modCel fun k => { k.flush with flushWait := k.flushWait ++ [(c.fn, c.cseq)] })))) ∧
  (∀ (s : State) (c : Cmd) (a : Accepted), s.Ready { op := 0x0C02, pf0 := true } c a → s.run.srm.trngFail = false →
      16 ≤ a.entry.bufLen → c.bufErr = false →
      exec (.celChallenge c) s =
        .next (s.done c ((s.run.takeFree 128).2.modCel fun k => { k with
            nonce := some ((s.run.takeFree 128).1, s.run.now + 300000000000), oldNonces := (k.nonce.toList.map (·.1)) ++ k.oldNonces })
          { result := [((s.run.takeFree 128).1.toNat : Int), s.run.cel.logEpoch], buffer := [(s.sys.serial : Int)], bufLen := 16 })) ∧
  (∀ (s : State) (c : Cmd) (a : Accepted) (slot limit sig : Nat) (k : Key), s.Ready { op := 0x0C03, pf0 := true, buf := true, need := some 96 } c a →
      s.run.cel.clearing = none → s.run.cel.tail ≤ limit → limit < s.run.cel.nextSeq → 8 ≤ slot → s.run.srm.key slot = some k →
      s.run.srm.trngFail = false → s.run.srm.commandServes k c.fn 5 = true →
      let msg (nonce : Nat) := [label [0x43, 0x45, 0x4C, 0x43, 0x4C, 0x52], s.sys.serial, s.run.cel.logEpoch, nonce, limit]
      let w : ClearWait := { fn := c.fn, cseq := c.cseq, limit := limit, oldEpoch := s.run.cel.logEpoch, keyId := k.keyId, serial := s.sys.serial }
      let r := (s.run.srmCount 0).modCel fun k => { k with clearing := some w }
      exec (.celClear c slot limit sig) s =
        .next (match s.run.clearCheck c.fn k msg sig with
          | none => s.waits c (if s.run.cel.stage = [] then r.clearStep w else r.modCel (·.flush))
          | some st => s.done c (s.run.srmCount 0) { status := st }))

/-- The ledger: its counters, hours, minutes and days, writes and wear (R548 to R556).
Choices of the model behind these rows: assumptions 79, 92. -/
def Obligations.LedgerRowsComplete : Prop :=
  (∀ (s : State) (c : Cmd) (a : Accepted) (first count : Nat), s.Ready { op := 0x0C04, pf0 := false } c a → first + count ≤ 4096 →
      (∀ k, first ≤ k → k < first + count → c.fn = 0 ∨ k < 256 ∨ tabGet s.run.lgr.owner k = some (c.fn - 1)) →
      8 * count ≤ a.entry.bufLen → c.bufErr = false →
      exec (.lgrRead c first count) s =
        .next (s.done c s.run { buffer := (List.range count).map fun k => (s.run.lgr.value (k + first) : Int), bufLen := 8 * count })) ∧
  (∀ (s : State) (c : Cmd) (a : Accepted) (counter inst : Nat), s.Ready { op := 0x0C05, pf0 := true } c a → 256 ≤ counter → counter < 4096 →
      inst < 32 →
      exec (.lgrAssign c counter inst) s =
        .next (s.done c (s.run.modLgr fun l => { l with owner := tabSet l.owner counter inst }) {})) ∧
  (∀ (s : State) (c : Cmd) (a : Accepted) (counter n : Nat), s.Ready { op := 0x0C06, pf0 := false } c a → 256 ≤ counter → counter < 4096 →
      ((∃ k, a.target = some k ∧ tabGet s.run.lgr.owner counter = some k) ∨ (a.target = none ∧ c.fn = 0)) →
      exec (.lgrAdd c counter n) s = .next (s.done c (s.run.ledgerAdd counter n) {})) ∧
  (∀ (s : State) (dt : Nat), s.Up → s.run.lgr.powerAt + msTicks (3600000 * (s.run.lgr.hours + 1)) ≤ s.run.ticks + dt →
      exec (.operatingHour dt) s =
        .next (s.ran (((s.run.pass dt).modLgr fun l => { l with hours := l.hours + 1 }).count .operatingHours))) ∧
  (∀ (s : State) (tj : Int) (dt : Nat), s.Up → s.run.lgr.minuteAt + msTicks 60000 ≤ s.run.ticks + dt →
      exec (.tempBinMinute tj dt) s =
        .next { s with
          sys := { s.sys with tj := tj, maxTj := max s.sys.maxTj tj },
          run := ((s.run.pass dt).modLgr fun l => { l with minuteAt := s.run.ticks + dt }).count (.tempBin (tempBin tj)) }) ∧
  (∀ (s : State) (dt : Nat), s.Up → exec (.serviceDay dt) s = .next (s.ran (s.run.pass dt).serviceDay)) ∧
  (∀ (s : State) (copyB : Bool) (dt x : Nat) (l : List Nat), s.Up → (s.run.pass dt).entriesDue = x :: l →
      exec (.ledgerWrite copyB dt) s = .next (s.ran ((s.run.pass dt).writeEntries (x :: l) copyB))) ∧
  (∀ (s : State) (dt : Nat), s.Up →
      let r := s.run.pass dt
      let left := Config.lifeLeft (s.run.lgr.value 6) 100000 (s.run.lgr.value 1)
      let r' := r.modLgr fun l => { l with wearDay := some (dayOf r.now), wearLow := decide (left + s.run.lgr.value 1 < 14610) }
      exec (.ledgerWearCheck dt) s =
        .next (s.ran (if s.run.lgr.wearDay = some (dayOf r.now) then r
          else if left + s.run.lgr.value 1 < 14610 ∧ s.run.lgr.wearLow = false then
            r'.raise { ev := .lgrWear, source := 809, data := [(left : Int)] }
          else r')))

/-- The state of the Strongroom: re-masking, TRNG failure, the life cycle and debug unlocking; what a signature verifies as is open, so
both outcomes are said (R562, R563, R565, R583, R588, R589).
Choices of the model behind these rows: assumptions 63, 80. -/
def Obligations.StrongroomStateRowsComplete : Prop :=
  (∀ (s : State) (dt : Nat), s.Up → s.run.srm.remaskAt + msTicks 100 ≤ s.run.ticks + dt →
      let r := (s.run.pass dt).modSrm fun x => { x with remaskAt := s.run.ticks + dt }
      exec (.keyRemask dt) s =
        .next (s.ran (if s.run.srm.trngFail then r.srmCount 7 s.run.srm.slots.length
          else (s.run.srm.slots.foldl (fun (r : Run) (e : Nat × Key) =>
            (r.random (8 * materialBytes e.2.type)).2.modSrm fun s =>
              { s with slots := tabSet s.slots e.1 { e.2 with mask := Nat.xor e.2.mask (r.random (8 * materialBytes e.2.type)).1 } }) r).remaskContexts))) ∧
  (∀ (s : State) (test dt : Nat), s.Running → s.run.srm.trngFail = false →
      exec (.trngHealthFail test dt) s =
        .next (s.ran ((((({ s.run.pass dt with srm := { s.run.srm with trngFail := true } } : Run)).srmCount 6).raise
          { ev := .srmTrng, source := 835, data := [(test : Int)] }).islandOther 30 true))) ∧
  (∀ (s : State) (c : Cmd) (a : Accepted), s.Ready { op := 0x0D00, pf0 := false } c a →
      exec (.srmQuery c) s =
        .next (s.done c s.run { result := [(s.run.srm.lc.code : Int), if s.run.srm.debug then 1 else 0, s.run.srm.slots.length,
          if s.run.srm.bankB then 1 else 0] })) ∧
  (∀ (s : State) (c : Cmd) (a : Accepted), s.Ready { op := 0x0D01, pf0 := true } c a → s.run.srm.trngFail = false →
      exec (.srmLcChallenge c) s =
        .next (s.done c ((s.run.takeFree 128).2.modSrm fun x => { x with
            nonce := some ((s.run.takeFree 128).1, s.run.now + 300000000000), oldNonces := (x.nonce.toList.map (·.1)) ++ x.oldNonces })
          { result := [((s.run.takeFree 128).1.toNat : Int), s.run.srm.lc.code] })) ∧
  (∀ (s : State) (c : Cmd) (a : Accepted) (target sig ownerKey fuses : Nat),
      s.Ready { op := 0x0D02, pf0 := true, buf := true, need := some (sigLen384 + if Lc.ofCode target = .secured then pointLen384 else 0) } c a →
      target < 5 → s.run.srm.lc.allows (Lc.ofCode target) = true → (Lc.ofCode target = .provisioned → s.run.srm.trngFail = false) →
      let next := Lc.ofCode target
      let msg (nonce : Nat) := [label [0x4C, 0x43, 0x41, 0x44, 0x56], s.sys.serial, s.run.srm.lc.code, target, nonce] ++
        (if next = .secured then [ownerKey] else [])
      let moved := s.run.cancelClear.advance next ownerKey fuses
      let r := if 2 ≤ fuses ∧ (next = .returned ∨ next = .scrapped) then moved.protectionEnds else moved
      exec (.srmLcAdvance c target sig ownerKey fuses) s =
        .next (match s.run.lcCheck (s.run.srm.signer next ownerKey) msg sig with
          | none => if fuses < 3 then s.waits c (r.modSrm fun x => { x with advancing := some (c.fn, c.cseq) }) else s.done c r {}
          | some st => s.done c s.run { status := st })) ∧
  (∀ (s : State) (c : Cmd) (a : Accepted) (sig : Nat), s.Ready { op := 0x0D12, pf0 := true, buf := true, need := some sigLen384 } c a →
      (s.run.insts.any fun i => i.phase == .active || i.phase == .shed) = false → s.run.srm.lc = .secured →
      let msg (nonce : Nat) := [label [0x44, 0x42, 0x47, 0x55, 0x4E, 0x4C], s.sys.serial, nonce]
      exec (.srmDebugUnlock c sig) s =
        .next (match s.run.lcCheck ((s.run.srm.key 5).map (·.material)) msg sig with
          | none => s.done c s.run.debugUnlock {}
          | some st => s.done c s.run { status := st }))

/-- Keys made, loaded, replaced, unloaded and changed (R569 to R582, R589). What a blob opens as, an unwrapped key and a shared secret are
open values of the cryptography: where the command needs one, its outcome is a match on it.
Choices of the model behind these rows: assumptions 17, 18, 44, 80. -/
def Obligations.KeyCommandsComplete : Prop :=
  (∀ (s : State) (c : Cmd) (a : Accepted) (slot type keyId attr : Nat), s.Ready { op := 0x0D03, pf0 := false } c a →
      s.run.newKeyRefused c.fn slot type keyId attr = none → isPublic type = false → type ≠ 8 → s.run.srm.trngFail = false →
      let x := s.run.generate type keyId attr
      let r := x.2.loadKey slot x.1
      (r.blobReply s.sys.serial slot x.1).Fits c a →
      exec (.srmKeyGenerate c slot type keyId attr) s = .next (s.done c r (r.blobReply s.sys.serial slot x.1))) ∧
  (∀ (s : State) (c : Cmd) (a : Accepted) (slot : Nat) (blob : Blob), s.Ready { op := 0x0D04, pf0 := false, buf := true, need := some (64 + blob.wrappedLen) } c a →
      s.run.newKeyRefused c.fn slot blob.type blob.keyId blob.attr = none →
      let key (m : Nat) : Key := { type := blob.type, keyId := blob.keyId, gen := blob.gen, attr := blob.attr, material := m }
      (∀ m, ((s.run.loadKey slot (key m)).blobReply s.sys.serial slot (key m)).Fits c a) →
      exec (.srmKeyLoad c slot blob) s =
        .next (match s.run.srm.openBlob s.sys.serial blob with
          | some k => s.done c (s.run.loadKey slot k) ((s.run.loadKey slot k).blobReply s.sys.serial slot k)
          | none => s.done c s.run.blobFail { status := .srmBlob })) ∧
  (∀ (s : State) (c : Cmd) (a : Accepted) (slot type keyId attr material : Nat), s.Ready { op := 0x0D05, pf0 := true, buf := true, need := some (materialBytes type) } c a →
      s.run.srm.lc ≠ .secured → s.run.srm.lc ≠ .scrapped → s.run.newKeyRefused c.fn slot type keyId attr = none →
      material < 256 ^ materialBytes type →
      let g := s.run.random 32
      let k : Key := { type := type, keyId := keyId, gen := g.1, attr := setDevice attr clearLoaded, material := material }
      let r := g.2.loadKey slot k
      (r.blobReply s.sys.serial slot k).Fits c a →
      exec (.srmKeyLoadClear c slot type keyId attr material) s = .next (s.done c r (r.blobReply s.sys.serial slot k))) ∧
  (∀ (s : State) (c : Cmd) (a : Accepted) (slot type kekSlot keyId attr cipher : Nat) (kek : Key), s.Ready { op := 0x0D06, pf0 := false, buf := true, need := some (cipherLen type) } c a →
      s.run.newKeyRefused c.fn slot type keyId attr = none → 8 ≤ kekSlot → s.run.srm.key kekSlot = some kek → kek.type = 2 → derivedAttrOk kek.attr = true →
      s.run.srm.commandServes kek c.fn 7 = true →
      let g := (s.run.srmCount 0).random 32
      let k (m : Nat) : Key := { type := type, keyId := keyId, gen := g.1, attr := setDevice attr 0, material := m }
      (∀ m, ((g.2.loadKey slot (k m)).blobReply s.sys.serial slot (k m)).Fits c a) →
      exec (.srmKeyImport c slot type kekSlot keyId attr cipher) s =
        .next (match unwrapped kek type cipher with
          | some m => s.done c (g.2.loadKey slot (k m)) ((g.2.loadKey slot (k m)).blobReply s.sys.serial slot (k m))
          | none => s.done c (s.run.srmCount 0) { status := .auth })) ∧
  (∀ (s : State) (c : Cmd) (a : Accepted) (slot privSlot keyId attr peer : Nat) (priv : Key), s.Ready { op := 0x0D07, pf0 := false, buf := true, need := some (s.run.srm.peerLen privSlot) } c a →
      s.run.newKeyRefused c.fn slot 2 keyId attr = none → derivedAttrOk attr = true → 8 ≤ privSlot → s.run.srm.key privSlot = some priv →
      priv.type = 4 ∨ priv.type = 5 → s.run.srm.commandServes priv c.fn 6 = true →
      let g := (s.run.srmCount 0).random 32
      let k (z : Nat) : Key := { type := 2, keyId := keyId, gen := g.1, attr := setDevice attr 0,
                                 material := Config.hmac z [label [0x53, 0x52, 0x4D, 0x49, 0x4D, 0x50], s.sys.serial, keyId, 1] }
      (∀ z, ((g.2.loadKey slot (k z)).blobReply s.sys.serial slot (k z)).Fits c a) →
      exec (.srmKeyDerive c slot privSlot keyId attr peer) s =
        .next (match Config.ecdh priv.material peer with
          | some z => s.done c (g.2.loadKey slot (k z)) ((g.2.loadKey slot (k z)).blobReply s.sys.serial slot (k z))
          | none => s.done c (s.run.srmCount 0) { status := .range })) ∧
  (∀ (s : State) (c : Cmd) (a : Accepted) (slot source kekSlot keyId cipher reach : Nat) (check : Option Nat) (blob : Blob) (old new : Key) (r : Run),
      s.Ready { op := 0x0D08, pf0 := false, buf := source != 1, need := some (s.run.srm.sourceLen slot source blob) } c a → s.run.srm.replacing c.fn c.cseq = none →
      s.run.srm.key slot = some old → 8 ≤ slot → mayManage c.fn old.attr = true → s.run.srm.busy slot = false →
      s.run.replacement c old source kekSlot keyId blob cipher s.sys.serial = (r, .ok new) → new.type = old.type →
      setDevice new.attr 0 = setDevice old.attr 0 → r.srm.idTaken slot new.keyId new.attr = false → (∀ v, check = some v → v = kcv new 0) →
      let x := r.startReplace (r.replaceOf s.sys c slot old new) reach
      (∀ rep, x.2 = .done rep → rep.Fits c a) →
      exec (.srmKeyReplace c slot source kekSlot check keyId blob cipher true reach) s =
        .next (match x.2 with | .done rep => s.done c x.1 rep | .wait => s.waits c x.1)) ∧
  (∀ (s : State) (c : Cmd) (slot source kekSlot keyId cipher reach : Nat) (check : Option Nat) (blob : Blob) (testOk : Bool) (x : Replace),
      s.Up → s.run.srm.replacing c.fn c.cseq = some x →
      exec (.srmKeyReplace c slot source kekSlot check keyId blob cipher testOk reach) s =
        .next (s.ran (s.run.continueReplace s.sys x reach))) ∧
  (∀ (s : State) (c : Cmd) (a : Accepted) (slot : Nat) (purge : Bool) (k : Key), s.Ready { op := 0x0D09, pf0 := false } c a →
      s.run.srm.key slot = some k → mayManage c.fn k.attr = true → 8 ≤ slot → s.run.srm.busy slot = false →
      exec (.srmKeyUnload c slot purge) s = .next (s.done c (s.run.unloadKey slot 3 purge) {})) ∧
  (∀ (s : State) (c : Cmd) (a : Accepted) (slot bits : Nat) (k : Key), s.Ready { op := 0x0D0A, pf0 := false } c a →
      s.run.srm.key slot = some k → mayManage c.fn k.attr = true → 8 ≤ slot → s.run.srm.busy slot = false → bits &&& clearable = bits →
      let k' : Key := { k with attr := k.attr &&& ((2 ^ 64 - 1) ^^^ bits) }
      let r := (s.run.modSrm fun x => x.withSlots (tabSet x.slots slot k')).persist slot k'
      (r.blobReply s.sys.serial slot k').Fits c a →
      exec (.srmKeyAttr c slot bits) s = .next (s.done c r (r.blobReply s.sys.serial slot k'))) ∧
  (∀ (s : State) (c : Cmd) (a : Accepted) (slot : Nat) (k : Key), s.Ready { op := 0x0D0B, pf0 := false } c a →
      s.run.srm.key slot = some k → mayManage c.fn k.attr = true →
      exec (.srmKeyInfo c slot) s =
        .next (s.done c s.run { result := [(s.run.srm.slotWord slot : Int), k.attr, k.gen, ((k.uses / 65536 : Nat) : Int)] })) ∧
  (∀ (s : State) (c : Cmd) (a : Accepted) (slot kekSlot : Nat) (k kek : Key), s.Ready { op := 0x0D0C, pf0 := false } c a →
      s.run.srm.key slot = some k → mayManage c.fn k.attr = true → k.attr.testBit 32 = true → 8 ≤ slot → 8 ≤ kekSlot → s.run.srm.key kekSlot = some kek → kek.type = 2 → derivedAttrOk kek.attr = true →
      s.run.srm.commandServes kek c.fn 7 = true → cipherLen k.type ≤ a.entry.bufLen → c.bufErr = false →
      exec (.srmKeyExport c slot kekSlot) s =
        .next (s.done c (s.run.srmCount 0) { buffer := [(Config.kwpWrap kek.material [k.material] : Int)],
                                             bufLen := cipherLen k.type }))

/-- Cryptographic operations, random bytes and statements (R567, R570, R585 to R587, R589).
Choices of the model behind these rows: assumptions 17, 18, 80. -/
def Obligations.CryptoCommandsComplete : Prop :=
  (∀ (s : State) (c : Cmd) (a : Accepted) (slot op : Nat) (d : CryptData) (k : Key), s.Ready { op := 0x0D0D, pf0 := false, buf := true, need := some d.len } c a →
      op < 8 → d.len ≤ 65536 → 8 ≤ slot → s.run.srm.key slot = some k → s.run.srm.commandServes k c.fn (cryptUsage op) = true → cryptFits op k.type = true →
      (op = 0 ∨ op = 2 → s.run.srm.trngFail = false ∧ k.uses < 2 ^ 32) → d.len + 96 ≤ a.entry.bufLen → c.bufErr = false →
      let g := s.run.random 96
      exec (.srmCrypt c slot op d) s =
        .next (if op = 0 ∨ op = 2 then
            (match cryptReply op k g.1 d with
              | .done rep => s.done c ((g.2.srmCount 0).countUse slot k) rep | .wait => s.waits c ((g.2.srmCount 0).countUse slot k))
          else (match cryptReply op k 0 d with
              | .done rep => s.done c (s.run.srmCount 0) rep | .wait => s.waits c (s.run.srmCount 0)))) ∧
  (∀ (s : State) (c : Cmd) (a : Accepted) (len : Nat), s.Ready { op := 0x0D0E, pf0 := false } c a → 1 ≤ len → len ≤ 4096 →
      s.run.srm.trngFail = false → len ≤ a.entry.bufLen → c.bufErr = false →
      exec (.srmRandom c len) s =
        .next (s.done c (s.run.random (8 * len)).2 { buffer := [((s.run.random (8 * len)).1 : Int)], bufLen := len })) ∧
  (∀ (s : State) (c : Cmd) (a : Accepted) (slot nonce : Nat) (k identity : Key), s.Ready { op := 0x0D0F, pf0 := false } c a →
      s.run.srm.key slot = some k → mayManage c.fn k.attr = true → s.run.srm.lc ≠ .scrapped → s.run.srm.lc ≠ .blank →
      s.run.srm.key 0 = some identity → 288 ≤ a.entry.bufLen → c.bufErr = false →
      let v := if k.type = 8 then s.run.random 128 else (kcv k nonce, s.run)
      let fields := v.2.statementHead s.sys 1 nonce 128 ++ [slot, k.type, k.keyId, k.attr, k.gen, publicField k v.1]
      exec (.srmAttestKey c slot nonce) s =
        .next (s.done c v.2 { buffer := (fields ++ [Config.ecdsaSign identity.material fields]).map Int.ofNat, bufLen := 288 })) ∧
  (∀ (s : State) (c : Cmd) (a : Accepted) (nonce : Nat) (identity : Key), s.Ready { op := 0x0D10, pf0 := false } c a → s.run.srm.lc ≠ .blank →
      s.run.srm.key 0 = some identity → 416 ≤ a.entry.bufLen → c.bufErr = false →
      let fields := s.run.statementHead s.sys 2 nonce 256 ++ [Config.firmwareHash s.sys.boot.imageB, Config.coreFirmwareHash, Config.catalogueHash,
        s.run.srm.ownerHash, if s.sys.boot.imageB then 1 else 0, if s.run.srm.debug then 1 else 0, 0x0301B000]
      exec (.srmAttestDevice c nonce) s =
        .next (s.done c s.run { buffer := (fields ++ [Config.ecdsaSign identity.material fields]).map Int.ofNat, bufLen := 416 })) ∧
  (∀ (s : State) (c : Cmd) (a : Accepted) (identity : Key), s.Ready { op := 0x0D11, pf0 := false } c a → s.run.srm.lc ≠ .blank →
      s.run.srm.key 0 = some identity → 193 ≤ a.entry.bufLen → c.bufErr = false →
      exec (.srmIdentity c) s =
        .next (s.done c s.run {
          buffer := [(Config.ecPublic identity.material : Int), endorsement s.sys.serial (Config.ecPublic identity.material)]
          bufLen := 193 }))

/-! ### Chapters 18 and 19: field bus, faults -/

/-- Frames, slots, supervision and recovery of the field bus (R598 to R607).
Choices of the model behind these rows: assumptions 90. -/
def Obligations.FieldBusEventsComplete : Prop :=
  (∀ (s : State) (n sof tec rec' dt : Nat) (f : CanFrame) (locked : Bool), s.Running → n < 4 → (s.run.can n).onBus = true →
      exec (.canFrameReceive n f sof locked tec rec' dt) s =
        .next (s.ran (if f.fdf && !(s.run.can n).fdEn then (s.run.pass dt).canCount n 7
          else ((s.run.pass dt).canReceive n f sof locked).canErrors n tec rec'))) ∧
  (∀ (s : State) (n b tec rec' dt : Nat) (e : CanEnd) (tdcv : Option Nat) (x : CanBuf), s.Running → n < 4 → (s.run.can n).onBus = true →
      (s.run.can n).listen = false → tabGet (s.run.can n).bufs b = some x → x.pending = true →
      (s.run.can n).offered.contains b = true →
      exec (.canFrameEnd n b e tec rec' tdcv dt) s =
        .next (s.ran (((s.run.pass dt).canFrameEnd n b e tdcv).canErrors n tec rec' (some b)))) ∧
  (∀ (s : State) (n cycle slot dt : Nat), s.Running →
      exec (.canSlotInstant n cycle slot dt) s = .next (s.ran ((s.run.pass dt).canSlot n cycle slot))) ∧
  (∀ (s : State) (n cycle slot dt : Nat), s.Running →
      exec (.canSlotWindowExpiry n cycle slot dt) s = .next (s.ran ((s.run.pass dt).canSlotEnd n cycle slot))) ∧
  (∀ (s : State) (n b dt : Nat), s.Running →
      exec (.canSupervisionExpiry n b dt) s = .next (s.ran ((s.run.pass dt).canExpire n b))) ∧
  (∀ (s : State) (n dt : Nat), s.Running → n < 4 → (s.run.can n).state = 2 → (s.run.can n).recovering = true → (s.run.can n).init = false →
      exec (.canRecoveryDone n dt) s =
        .next (s.ran (((s.run.pass dt).modCan n fun c => CanChan.noteOffer
          { c with tec := 0, rec' := 0, state := 0, recov := 0, recovering := false, held := none }).canStateEvent n 2)))

/-- The field bus commands (R597, R599 to R602, R607, R608).
Choices of the model behind these rows: assumptions 90. -/
def Obligations.FieldBusCommandsComplete : Prop :=
  (∀ (s : State) (c : Cmd) (a : Accepted) (n b : Nat) (x : CanRec), s.Ready { op := 0x0E00, pf0 := true, buf := true, need := some 16 } c a → n < 4 → b < 128 →
      x.ok = true → s.run.bufNamed n b = false →
      exec (.fbBufSet c n b x) s =
        .next (s.done c ((if (match s.run.canBuf n b with | some y => y.pending | none => false) then s.run.canEnd n b 1 else s.run).modCan n
          fun c => { c with bufs := tabSet c.bufs b { record := x } }) {})) ∧
  (∀ (s : State) (c : Cmd) (a : Accepted) (n len window : Nat) (cycles : List (List CanSlot)), s.Ready { op := 0x0E01, pf0 := true, buf := true, need := some (128 * cycles.length) } c a →
      n < 4 → (s.run.can n).schedEn = false → schedOk cycles len = true →
      exec (.fbSchedSet c n len window cycles) s =
        .next (s.done c (s.run.modCan n fun c => { c with matrix := cycles, cycleLen := len, window := window }) {})) ∧
  (∀ (s : State) (c : Cmd) (a : Accepted) (n b : Nat) (data : List Nat) (x : CanBuf), s.Ready { op := 0x0E02, pf0 := false, buf := true, need := some data.length } c a →
      n < 4 → b < 128 → s.run.canBuf n b = some x → (c.fn = 0 ∨ x.record.inst + 1 = c.fn) → x.record.tx = true →
      data.length ≤ dlcLength x.record.fdf x.record.dlc → x.pending = false → (s.run.can n).state ≠ 2 →
      let whole := (data ++ List.replicate (dlcLength x.record.fdf x.record.dlc) 0).take (dlcLength x.record.fdf x.record.dlc)
      exec (.fbTx c n b data) s =
        .next (s.done c ((s.run.modBuf n b fun x => { x with content := some { x.txStore with data := whole } }).canRequest n b true) {})) ∧
  (∀ (s : State) (c : Cmd) (a : Accepted) (n b : Nat) (onWire : Bool) (x : CanBuf), s.Ready { op := 0x0E03, pf0 := false } c a →
      n < 4 → b < 128 → s.run.canBuf n b = some x → (c.fn = 0 ∨ x.record.inst + 1 = c.fn) → x.pending = true →
      exec (.fbCancel c n b onWire) s =
        .next (if onWire && (s.run.can n).state != 2 && (s.run.can n).offered.contains b then
            s.waits c (s.run.canCancel n b true (some (c.fn, c.cseq)))
          else s.done c (s.run.canCancel n b false none) { result := [1] })) ∧
  (∀ (s : State) (c : Cmd) (a : Accepted) (n b : Nat) (x y : CanBuf) (d : CanStore), s.Ready { op := 0x0E04, pf0 := false } c a →
      n < 4 → b < 128 → s.run.canBuf n b = some x → (c.fn = 0 ∨ x.record.inst + 1 = c.fn) →
      (s.run.modBuf n b CanBuf.settle).canBuf n b = some y → y.content = some d →
      (d.data.length = 0 ∨ (d.data.length ≤ a.entry.bufLen ∧ c.bufErr = false)) →
      exec (.fbBufRead c n b) s =
        .next (s.done c (s.run.modBuf n b CanBuf.settle) {
          result := [(d.dlc : Int), d.flags, ((s.run.modBuf n b CanBuf.settle).can n).statusOf b y, d.ident, secOf d.time, nsOf d.time]
          buffer := d.data.map Int.ofNat
          bufLen := d.data.length })) ∧
  (∀ (s : State) (c : Cmd) (a : Accepted) (n b : Nat) (x y : CanBuf), s.Ready { op := 0x0E04, pf0 := false } c a →
      n < 4 → b < 128 → s.run.canBuf n b = some x → (c.fn = 0 ∨ x.record.inst + 1 = c.fn) →
      (s.run.modBuf n b CanBuf.settle).canBuf n b = some y → y.content = none →
      exec (.fbBufRead c n b) s =
        .next (s.done c (s.run.modBuf n b CanBuf.settle) {
          result := [0, (storeFlags y.record.tx y.record.ide y.record.fdf y.record.brs : Int), ((s.run.modBuf n b CanBuf.settle).can n).statusOf b y, y.record.ident, 0, 0] })) ∧
  (∀ (s : State) (c : Cmd) (a : Accepted) (n : Nat), s.Ready { op := 0x0E05, pf0 := true } c a → n < 4 → (s.run.can n).state = 2 →
      exec (.fbRecover c n) s = .next (s.done c (s.run.modCan n fun c => { c with recovering := true }) {}))

/-- Error reports, scrubbing, self-tests, island locks, the HKP's return and admission after a loss; and the fault commands (R27, R28,
R614 to R629).
Choices of the model behind these rows: assumptions 41, 58, 59, 60, 61, 62, 63. -/
def Obligations.FaultRowsComplete : Prop :=
  (∀ (s : State) (unit kind dt : Nat) (by' : Reader), s.Running →
      (∀ fid cell, by' = .frame fid cell → ¬ (unit = unitId 10 16 ∧ kind = 0) ∧
        ¬ (unit = unitId 1 (cell / 1024 % 64) ∧ kind = 2 ∧ ((s.run.pass dt).held fid).isSome = true)) →
      unitExists (rowsOf s.sys.capacity) unit = true → kindApplies (unitClass unit) kind = true →
      exec (.errorReport unit kind by' dt) s =
        .next (s.ran ((if kind = 2 then (s.run.pass dt).discardReader by' else s.run.pass dt).errorReport unit kind))) ∧
  (∀ (s : State) (fid cell dt : Nat), s.Running →
      exec (.errorReport (unitId 10 16) 0 (.frame fid cell) dt) s = .next (s.ran ((s.run.pass dt).cellMissing fid))) ∧
  (∀ (s : State) (fid cell dt : Nat) (h : Held), s.Running → (s.run.pass dt).held fid = some h →
      exec (.errorReport (unitId 1 (cell / 1024 % 64)) 2 (.frame fid cell) dt) s =
        .next (s.ran (Run.eccDrop Run.cellFault (s.run.pass dt) fid cell))) ∧
  (∀ (s : State) (bank found dt : Nat), s.Running → (unitClass bank = 1 ∨ unitClass bank = 2) → unitExists 0 bank = true →
      (found = 1 ∨ found = 2) →
      exec (.sramScrub bank found dt) s = .next (s.ran ((s.run.pass dt).errorReport bank found))) ∧
  (∀ (s : State) (unit dt : Nat) (pass : Bool) (t : TestSlot), s.Running → tabGet s.run.flt.slots (unitClass unit) = some t →
      t.unit = unit → t.busy = true → unitClass unit ≠ 11 → t.since + testTicks (unitClass unit) ≤ s.run.ticks + dt →
      exec (.selfTestDone unit pass dt) s = .next (s.ran ((s.run.pass dt).endTest t pass))) ∧
  (∀ (s : State) (i dt t : Nat), s.Running → tabGet s.run.flt.unlocked i = some t →
      let r := (s.run.pass dt).modFlt fun x => { x with unlocked := tabDel x.unlocked i }
      exec (.islandPllRelock i dt) s =
        .next (s.ran (if t + msTicks 10 < s.run.ticks + dt then (s.run.pass dt).islandDown i
          else if s.run.ticks + dt ≤ t + msTicks 1 then r.islandTransient i else r))) ∧
  (∀ (s : State) (i dt t : Nat), s.Running → tabGet s.run.flt.unlocked i = some t → t + msTicks 10 ≤ s.run.ticks + dt →
      exec (.islandRelockTimeout i dt) s = .next (s.ran ((s.run.pass dt).islandDown i))) ∧
  (∀ (s : State) (pass : Bool) (dt : Nat) (t : TestSlot), s.Running → tabGet s.run.flt.slots 11 = some t → s.run.flt.hkpAway = true →
      t.since + testTicks 11 ≤ s.run.ticks + dt →
      exec (.hkpReturn pass dt) s = .next (s.ran ((s.run.pass dt).hkpReturn pass))) ∧
  (∀ (s : State) (dt : Nat), s.Running → s.run.flt.admission.isSome = true →
      exec (.admissionRun dt) s = .next (s.ran (s.run.pass dt).admissionDone)) ∧
  (∀ (s : State) (c : Cmd) (a : Accepted), s.Ready { op := 0x0F00, pf0 := true } c a →
      let l := s.run.faultRecord.flt.units.filterMap (unitEntry s.run.faultRecord.now)
      24 * l.length ≤ a.entry.bufLen → c.bufErr = false →
      exec (.fltList c) s = .next (s.done c s.run.faultRecord { buffer := l.flatten, bufLen := 24 * l.length })) ∧
  (∀ (s : State) (c : Cmd) (a : Accepted) (unit : Nat), s.Ready { op := 0x0F01, pf0 := true } c a →
      unitExists (rowsOf s.sys.capacity) unit = true → unitClass unit < 10 → (s.run.faultRecord.unit unit).replaced = false →
      s.run.faultRecord.flt.inRecovery (unitClass unit) = false →
      ((s.run.faultRecord.unit unit).state = .suspect ∨ (s.run.faultRecord.unit unit).state = .retired) →
      exec (.fltUnitRetest c unit) s = .next (s.waits c (s.run.faultRecord.startTest unit (some (c.fn, c.cseq))))) ∧
  (∀ (s : State) (c : Cmd) (a : Accepted) (unit kind : Nat), s.Ready { op := 0x0F02, pf0 := true } c a →
      unitExists (rowsOf s.sys.capacity) unit = true → kindApplies (unitClass unit) kind = true →
      exec (.fltInject c unit kind) s =
        .next (s.done c (if unitClass unit = 10 then s.run.faultRecord.islandEvent (unitIndex unit) kind
          else s.run.faultRecord.errorReport unit kind) {}))

/-! ### Chapter 20: starts, resets, firmware, power -/

/-- Starts: cold, warm, the start of protection, a trial image that does not confirm in time, and one that does (R105, R633, R641).
Choices of the model behind these rows: assumptions 33, 34, 36, 37, 38, 39, 40, 46, 47. -/
def Obligations.StartRowsComplete : Prop :=
  (∀ (s : State) (k : StartIn) (dt : Nat), s.sys.phase = .reset → s.sys.porstN = false → s.sys.sysrstN = true → s.sys.thermal = false →
      exec (.coldStart k dt) s =
        .next { s with sys := (coldStart s.sys (s.run.pass dt) k).1, run := (coldStart s.sys (s.run.pass dt) k).2 }) ∧
  (∀ (s : State) (k : StartIn) (dt : Nat), s.sys.phase ≠ .reset → s.sys.pwrfailAt = none → s.sys.restartAsked = some true →
      exec (.coldStart k dt) s =
        .next { s with sys := (coldStart s.sys (s.run.pass dt) k).1, run := (coldStart s.sys (s.run.pass dt) k).2 }) ∧
  (∀ (s : State) (k : StartIn) (dt : Nat), s.sys.phase = .reset → s.sys.porstN = true → s.sys.sysrstN = false → s.sys.thermal = false →
      s.sys.stuck = false → s.sys.pwrfailReset = false →
      let x := warmStart { s.sys with sysrstN := true } (s.run.pass dt) k
      exec (.warmStart k dt) s = .next { s with sys := x.1, run := x.2 }) ∧
  (∀ (s : State) (k : StartIn) (dt : Nat), s.sys.phase ≠ .reset → s.sys.pwrfailAt = none → s.sys.restartAsked = some false →
      let x := warmStart { s.sys with selfRefresh := true } (s.run.pass dt) k
      exec (.warmStart k dt) s = .next { s with sys := x.1, run := x.2 }) ∧
  (∀ (s : State) (dt : Nat), s.sys.phase = .ready → s.run.srm.mayRun = true →
      let x := startProtection s.sys (s.run.pass dt)
      exec (.protectionStart dt) s = .next { s with sys := x.1, run := x.2 }) ∧
  (∀ (s : State) (k : StartIn) (dt : Nat), (s.sys.phase = .ready ∨ s.sys.stuck = true) → s.sys.boot.trial = true →
      s.sys.boot.startedAt + msTicks 1500 ≤ s.run.ticks + dt →
      let x := coldStart s.sys (s.run.pass dt) k
      exec (.trialBootTimeout k dt) s = .next { s with sys := x.1, run := x.2 }) ∧
  (∀ (s : State) (dt : Nat), s.sys.phase = .running → s.sys.boot.trial = true → s.run.flt.healthy = true → s.sys.autoConfirm ≠ 0 →
      s.sys.healthySince + msTicks (1000 * s.sys.autoConfirm) ≤ s.run.ticks + dt →
      let x := confirmTrial s.sys (s.run.pass dt)
      exec (.autoConfirmExpiry dt) s = .next { s with sys := x.1, run := x.2 })

/-- Resets, power failure, the always-on feeds and temperature (R634, R636, R646 to R651, R680).
Choices of the model behind these rows: assumptions 34, 36, 37, 39, 40, 42, 44, 45, 46, 79. -/
def Obligations.ResetAndPowerRowsComplete : Prop :=
  (∀ (s : State) (dt : Nat), s.sys.phase ≠ .reset →
      exec (.sysrstNFall dt) s =
        .next { s with sys := { s.sys.down with sysrstN := false, selfRefresh := true }, run := (s.run.pass dt).allZ }) ∧
  (∀ (s : State) (dt : Nat),
      exec (.porstNFall dt) s =
        .next { s with sys := { s.sys.down with porstN := false, selfRefresh := false }, run := (s.run.pass dt).allZ }) ∧
  (∀ (s : State) (lowNs dt : Nat), s.sys.phase ≠ .reset → s.sys.pwrfailAt = none → 10000 ≤ lowNs →
      exec (.pwrfailNFall lowNs dt) s =
        .next { s with
          sys := { s.sys with pwrfailN := false, pwrfailAt := some (s.run.ticks + dt - lowNs / 4), pwrfailCount := (s.sys.pwrfailCount + 1) % 2 ^ 64 },
          run := (s.run.pass dt).powerFails s.sys.vaonA s.sys.vaonB }) ∧
  (∀ (s : State) (dt t : Nat), s.sys.pwrfailAt = some t → t + msTicks 2 ≤ s.run.ticks + dt →
      exec (.powerFailReset dt) s =
        .next { s with sys := { s.sys.down with pwrfailReset := true, selfRefresh := true }, run := (s.run.pass dt).powerFlush.allZ }) ∧
  (∀ (s : State) (k : StartIn) (dt : Nat), s.sys.phase = .reset → s.sys.porstN = true → s.sys.sysrstN = true → s.sys.thermal = false →
      s.sys.stuck = false → s.sys.pwrfailReset = true →
      let x := warmStart { s.sys with pwrfailN := true } (s.run.pass dt) k
      exec (.pwrfailNRise k dt) s = .next { s with sys := x.1, run := x.2 }) ∧
  (∀ (s : State) (a b : Bool) (dt : Nat), s.sys.phase ≠ .reset → ¬ (a = s.sys.vaonA ∧ b = s.sys.vaonB) →
      let lost := (if s.sys.vaonA && !a then 1 else 0) + (if s.sys.vaonB && !b then 1 else 0)
      let inside := !a && !b
      let x : Raise := { ev := .aonFeed, source := 9, severity := if inside then 2 else Ev.severity .aonFeed,
                         data := [if a then 1 else 0, if b then 1 else 0, if inside then 1 else 0] }
      let r := (s.run.pass dt).raise x
      exec (.aonFeedChange a b dt) s =
        .next { s with
          sys := { s.sys with vaonA := a, vaonB := b, aonLosses := (s.sys.aonLosses + lost) % 2 ^ 64 },
          run := if r.cel.minSeverity ≤ x.severity then r
            else r.stage { type := 0x0010, time := r.now, source := 9, severity := x.severity, data := (x.ev.code : Int) :: x.data } }) ∧
  (∀ (s : State) (dt : Nat),
      let x := settleAon { s.sys.down with corePower := false, porstN := false, selfRefresh := false, thermal := false, pwrfailReset := false }
        (s.run.pass dt).allZ.loseStage.loseLedger
      exec (.corePowerLoss dt) s = .next { s with sys := x.1, run := x.2 }) ∧
  (∀ (s : State) (tj : Int) (dt : Nat), 2000 ≤ tj → s.sys.corePower = true → s.sys.thermal = false →
      exec (.thermalTrip tj dt) s =
        .next { s with sys := { s.sys.down with thermal := true, tripReset := true, selfRefresh := false, tj := tj }, run := (s.run.pass dt).allZ }) ∧
  (∀ (s : State) (k : StartIn) (dt : Nat), s.sys.thermal = true → k.tj < 1600 → s.sys.porstN = true → s.sys.sysrstN = true →
      let x := coldStart { s.sys with thermal := false } (s.run.pass dt) k
      exec (.thermalRecover k dt) s = .next { s with sys := x.1, run := x.2 })

/-- The commands of the firmware images and of restarts (R638, R641, R658).
Choices of the model behind these rows: assumptions 38. -/
def Obligations.BootCommandsComplete : Prop :=
  (∀ (s : State) (c : Cmd) (a : Accepted) (cold : Bool), s.Ready { op := 0x0140, pf0 := true, recovery := true } c a →
      exec (.devRestart c cold) s = .next (({ s with sys := { s.sys with restartAsked := some cold } }).done c s.run {})) ∧
  (∀ (s : State) (c : Cmd) (a : Accepted) (offset len erased : Nat) (content : Image),
      s.Ready { op := 0x0141, pf0 := true, buf := true, need := some len, recovery := true } c a → len ≤ 2 ^ 20 → offset + len ≤ 2 ^ 25 →
      s.sys.bcb.active = s.sys.boot.imageB → s.sys.bcb.trial ≠ some (!s.sys.boot.imageB) →
      exec (.devImageWrite c offset len content erased) s =
        .next (({ s with sys := if s.sys.boot.imageB then { s.sys with imageA := content } else { s.sys with imageB := content } }).done c
          (s.run.count .flaErases erased) {})) ∧
  (∀ (s : State) (c : Cmd) (a : Accepted) (tries : Nat), s.Ready { op := 0x0142, pf0 := true, recovery := true } c a → 1 ≤ tries → tries ≤ 7 →
      let b := !s.sys.boot.imageB
      (s.sys.image b).good = true → s.sys.svnMin ≤ (s.sys.image b).svn →
      let new := s.sys.putBcb fun x => { x with trial := some b, tries := tries }
      exec (.devImageCommit c tries) s = .next (({ s with sys := new }).done c (s.run.count .flaErases (bcbErases s.sys new)) {})) ∧
  (∀ (s : State) (c : Cmd) (a : Accepted), s.Ready { op := 0x0143, pf0 := true } c a → s.sys.boot.trial = true →
      exec (.devImageConfirm c) s =
        .next (({ s with sys := (confirmTrial s.sys s.run).1 }).done c (confirmTrial s.sys s.run).2 {})) ∧
  (∀ (s : State) (c : Cmd) (a : Accepted), s.Ready { op := 0x0144, pf0 := false, recovery := true } c a →
      exec (.devBootQuery c) s =
        .next (s.done c s.run { result := (s.sys.bootWord : Int) :: s.sys.bcb.fields ++ [(s.sys.imageA.version : Int), s.sys.imageB.version] }))


/-! ### What commands leave unchanged

The completion statements give the whole next state, so each is also the frame of its rows on the states it names. These hold of
every state. -/

/-- Only the rows of starts, resets, power, temperature, firmware images and device parameters, DEV_COMMIT and DEV_UNLOCK, and a
register write (HKP_TEMP.TRIPPED) change reset, boot, power or the device configuration. -/
def Obligations.OnlyDeviceRowsChangeTheDevice : Prop :=
  ∀ (i : Instr) (s t : State), changesDevice i = false → exec i s = .next t → t.sys = s.sys

/-- A command that reads changes nothing but the host functions, cause bits, the Cellar, what the block puts out and free values. -/
def Obligations.ReadingCommandsOnlyRead : Prop :=
  ∀ (i : Instr) (s t : State), onlyReads i = true → exec i s = .next t → t.sys = s.sys ∧ s.run.OnlyHost t.run

/-- A command that stages changes no configuration in effect: beside what a completion changes it changes staged records and the
Strongroom's counters, and of an instance's Sluice and CLE state the staged image only. -/
def Obligations.StagingCommandsOnlyStage : Prop :=
  ∀ (i : Instr) (s t : State), onlyStages i = true → exec i s = .next t → t.sys = s.sys ∧ s.run.OnlyStaged t.run

/-- Rings, doorbells, enables of rings, command intake, posting and reads of registers change nothing but the host interface, and what a
read of the TSU's registers latches or takes. -/
def Obligations.RingEventsStayInTheHostInterface : Prop :=
  ∀ (i : Instr) (s t : State), onlyHostInterface i = true → exec i s = .next t → t.sys = s.sys ∧ s.run.OnlyInterface t.run

/-! ### Rules of the spec -/

/-- R65. A command with any other CSEQ than the next is not accepted: a completion with ST_SEQ and the received CSEQ is posted,
EV_SEQ_STALL is raised, SEQ_STALL is set; while it is set the ring gives nothing; when CMD_ENABLE has fallen it is clear, and after
the rise the next CSEQ expected is still MBX_SEQ[0] + 1. -/
def Obligations.WrongCseqStallsTheRing : Prop :=
  (∀ (s : State) (fn : Nat) (octets : List Nat), s.Up → fn < 33 → s.run.mayFetch s.sys fn = true → fn < s.run.fns.length →
      let e := entryOf octets
      e.cseq ≠ (s.run.fn fn).cseqAccepted + 1 →
      ∃ (t : State) (r : Run), exec (.commandFetch fn octets false) s = .next t ∧
        t.run = r.raise { ev := .seqStall, source := ringSource fn, data := [e.cseq.toNat, ((s.run.fn fn).cseqAccepted + 1).toNat] } ∧
        (r.fn fn).post = (s.run.fn fn).post ++ [.rejected
          { status := .seq, cseq := e.cseq, opcode := e.opcode, epoch := s.run.epoch, quiet := e.quiet }] ∧
        (t.run.fn fn).accepted = (s.run.fn fn).accepted ∧ (t.run.fn fn).cseqAccepted = (s.run.fn fn).cseqAccepted ∧
        (t.run.fn fn).seqStall = true) ∧
  (∀ (s : State) (fn : Nat) (octets : List Nat) (poisoned : Bool), (s.run.fn fn).seqStall = true →
      exec (.commandFetch fn octets poisoned) s = .next s) ∧
  (∀ (s : State) (fn : Nat), s.Up → fn < 33 → fn < s.run.fns.length →
      ∃ t, exec (.cmdEnableFall fn) s = .next t ∧ (t.run.fn fn).seqStall = false ∧ (t.run.fn fn).cmdEn = false ∧
        (t.run.fn fn).cseqAccepted = (s.run.fn fn).cseqAccepted) ∧
  (∀ (s : State) (fn : Nat) (octets : List Nat) (poisoned : Bool), (s.run.fn fn).cmdEn = false →
      exec (.commandFetch fn octets poisoned) s = .next s) ∧
  (∀ (s : State) (fn : Nat), s.Hosts fn → fn < 33 → fn < s.run.fns.length → (s.run.fn fn).cmdEn = false → (s.run.fn fn).seqStall = false →
      ∃ t, exec (.cmdEnableRise fn) s = .next t ∧ (t.run.fn fn).cmdEn = true ∧ (t.run.fn fn).seqStall = false ∧
        (t.run.fn fn).cseqAccepted = (s.run.fn fn).cseqAccepted)

/-- R53. A doorbell write that would make the count invalid is ignored: the ring keeps its counts, RING_ERR is set and EV_RING_ERROR
raised. Arithmetic is modulo 2³². -/
def Obligations.InvalidDoorbellIsIgnored : Prop :=
  ∀ (s : State) (fn ring : Nat) (count : Word), s.Hosts fn → fn < 33 → fn < s.run.fns.length → ring < 4 →
    let g := (s.run.fn fn).ring ring
    (if ring = 1 then (g.dev - g.host).toNat < (count - g.host).toNat else 2 ^ g.log2 < (count - g.dev).toNat) →
    ∃ (t : State) (r : Run), exec (.ringHostWrite fn ring count) s = .next t ∧
      t.run = r.raise { ev := .ringError, source := ringSource fn, data := [(ring : Int), count.toNat] } ∧
      (t.run.fn fn).ring ring = { g with err := true }

/-- R113. INST_SET_SHARE leaves the shares in effect until the period boundary, at which the shares granted are in effect; where it
would break R111 it completes with ST_SHARE_SUM and changes nothing. -/
def Obligations.SharesTakeEffectAtThePeriodBoundary : Prop :=
  (∀ (s : State) (c : Cmd) (a : Accepted) (n resource share : Nat), s.Ready { op := 0x0206, pf0 := true } c a → a.target = some n →
      (s.run.inst n).phase ≠ .free → resource ≤ 2 → share ≤ 1024 → n < s.run.insts.length →
      s.run.sharesFit n ((s.run.inst n).granted.put resource share) = true →
      ∃ t, exec (.instSetShare c resource share) s = .next t ∧ (t.run.inst n).granted = (s.run.inst n).granted.put resource share ∧
        (t.run.inst n).inEffect = (s.run.inst n).inEffect) ∧
  (∀ (s : State) (c : Cmd) (a : Accepted) (n resource share : Nat), s.Ready { op := 0x0206, pf0 := true } c a → a.target = some n →
      (s.run.inst n).phase ≠ .free → resource ≤ 2 → share ≤ 1024 →
      s.run.sharesFit n ((s.run.inst n).granted.put resource share) = false →
      exec (.instSetShare c resource share) s = .next (s.done c s.run { status := .shareSum })) ∧
  (∀ (s : State) (n dt : Nat), s.Running → (s.run.pass dt).passed 1000000 0 = true →
      ∃ t, exec (.accountingPeriod dt) s = .next t ∧ (t.run.inst n).inEffect = (s.run.inst n).granted)

/-- R155. A write of 1 to TAKE while BUSY is 0 sets BUSY with T = now + 2 µs; while BUSY is 1 it is ignored. -/
def Obligations.SnapshotTakeFixesItsInstant : Prop :=
  (∀ s : State, s.Up → s.run.sw.snapAt = none →
      ∃ t, exec .snapTake s = .next t ∧ t.run.sw.snapAt = some (s.run.now + 2000)) ∧
  (∀ (s : State) (T : Instant), s.run.sw.snapAt = some T → exec .snapTake s = .next s)

/-- A full Cellar stage drops what must be staged: nothing joins the stage, no SEQ is taken, STAGE_LOST counts one more; when there is
room, one STAGE_LOSS record gives the number dropped and EV_CEL_LOSS is raised (R543). -/
def Obligations.FullStageDropsTheRecord : Prop :=
  (∀ (r : Run) (x : CelItem), r.cel.powerFail = false → r.flt.lasting.contains 26 = false → 4096 ≤ r.cel.stage.length →
      (r.stage x).cel.stage = r.cel.stage ∧ (r.stage x).cel.nextSeq = r.cel.nextSeq ∧
      (r.stage x).cel.lostNow = r.cel.lostNow + 1 ∧ (r.stage x).cel.stageLost = (r.cel.stageLost + 1) % 2 ^ 64) ∧
  (∀ (s : State) (dt : Nat), s.Up → s.run.cel.lostNow ≠ 0 → s.run.stageFull = false → s.run.cel.powerFail = false →
      s.run.flt.lasting.contains 26 = false → s.run.cel.lostNow < 2 ^ 32 →
      let e : Raise := { ev := .celLoss, source := 800, data := [(s.run.cel.lostNow : Int)] }
      ∃ (t : State) (r : Run) (x : CelRec), exec (.stageLossRecord dt) s = .next t ∧
        x ∈ t.run.cel.stage ∧ x.type = 4 ∧ x.data = [(s.run.cel.lostNow : Int)] ∧ s.run.cel.nextSeq ≤ x.seq ∧ x.seq < t.run.cel.nextSeq ∧
        (if s.run.cel.stage.length < 4095 then
          t.run = (r.raise e).stage { type := 4, time := (r.raise e).now, data := [(s.run.cel.lostNow : Int)] } ∧ t.run.cel.lostNow = 0
         else t.run = r.raise e ∧ r.cel.lostNow = 0))

/-- No ledger counter decreases by an addition, and a sum that would pass 2⁶⁴ − 1 leaves the counter there and raises
EV_LGR_SATURATED, once (R548). -/
def Obligations.LedgerNeverDecreases : Prop :=
  ∀ (r : Run) (k n : Nat), r.lgr.value k < 2 ^ 64 →
    (∀ j, r.lgr.value j ≤ (r.ledgerAdd k n).lgr.value j) ∧
    (∀ j, j ≠ k → (r.ledgerAdd k n).lgr.value j = r.lgr.value j) ∧
    (r.ledgerAdd k n).lgr.value k = min (r.lgr.value k + n) (2 ^ 64 - 1) ∧
    (r.lgr.value k + n < 2 ^ 64 → (r.ledgerAdd k n).fns = r.fns ∧ (r.ledgerAdd k n).cause = r.cause) ∧
    (2 ^ 64 ≤ r.lgr.value k + n → r.lgr.saturated.contains k = false →
      ∃ r' : Run, r.ledgerAdd k n = r'.raise { ev := .lgrSaturated, source := 810, data := [(k : Int)] } ∧ r'.lgr.saturated.contains k = true) ∧
    (r.lgr.saturated.contains k = true → (r.ledgerAdd k n).fns = r.fns ∧ (r.ledgerAdd k n).cause = r.cause)

/-- A VF that issues a command marked PF0 only receives ST_DENIED, and nothing else happens (R76 and the command tables). -/
def Obligations.VfIsDeniedPf0Commands : Prop :=
  ∀ (i : Instr) (s : State) (c : Cmd) (a : Accepted) (op : Nat), pf0Command i = some (op, c) → c.fn ≠ 0 → s.sys.phase ≠ .recovery →
    s.commandFor { op := op, pf0 := true } c = some a → exec i s = .next (s.done c s.run { status := .denied })

/-- CLE_VAR_WRITE stores its octets from ADDR on, and every other byte of the task's variables, and every other task of every
instance, stays as it was (R445, R453). -/
def Obligations.VariableWriteStoresItsOctets : Prop :=
  ∀ (s : State) (c : Cmd) (a : Accepted) (n index addr : Nat) (octets : List Byte) (t : TaskSt),
    s.Ready { op := 0x0806, pf0 := false, buf := true, need := some octets.length } c a →
    a.target = some n → (s.run.inst n).phase ≠ .free → s.run.task n index = some t →
    (t.mode = .stop ∨ (t.mode = .hold ∧ t.task.supervisory = true)) → t.image = none → spanOk t.task addr octets.length = true →
    (∀ k < octets.length, (t.task.vars.any fun v => decide (v.addr ≤ addr + k) && decide (addr + k < v.addr + v.size)) = true) →
    ∃ (s' : State) (t' : TaskSt), exec (.cleVarWrite c index addr octets) s = .next s' ∧ s'.run.task n index = some t' ∧
      (∀ k, (h : k < octets.length) → tabGetD t'.va (addr + k) 0 = (octets[k]).toNat) ∧
      (∀ x, (x < addr ∨ addr + octets.length ≤ x) → tabGetD t'.va x 0 = tabGetD t.va x 0) ∧
      (∀ m j, ¬ (m = n ∧ j = index) → s'.run.task m j = s.run.task m j)

/-- Every start that reaches READY or recovery increments EPOCH, and holds the new value in FLB (R633). -/
def Obligations.EveryStartAdvancesEpoch : Prop :=
  ∀ (sys : Sys) (r : Run) (k : StartIn),
    ((coldStart sys r k).1.stuck = false → (coldStart sys r k).1.phase ≠ .reset ∧ (coldStart sys r k).1.epochStored = sys.epochStored + 1 ∧
      (coldStart sys r k).2.epoch = sys.epochStored + 1 ∧ (coldStart sys r k).2.ready = true) ∧
    ((warmStart sys r k).1.stuck = false → (warmStart sys r k).1.phase ≠ .reset ∧ (warmStart sys r k).1.epochStored = sys.epochStored + 1 ∧
      (warmStart sys r k).2.epoch = sys.epochStored + 1 ∧ (warmStart sys r k).2.ready = true)
end

