-- ==== Sys2Proof/Laws/State.lean ====
section
/-! SUPPORT. What each update of the state leaves as it was, and what it changes: one lemma per field per update. -/

namespace Sys2Proof.Machine

/-! ### modFn -/

@[simp] theorem Run.modFn_free (r : Run) (fn : Nat) (f : FnState → FnState) : (r.modFn fn f).free = r.free := rfl
@[simp] theorem Run.modFn_out (r : Run) (fn : Nat) (f : FnState → FnState) : (r.modFn fn f).out = r.out := rfl
@[simp] theorem Run.modFn_ticks (r : Run) (fn : Nat) (f : FnState → FnState) : (r.modFn fn f).ticks = r.ticks := rfl
@[simp] theorem Run.modFn_epoch (r : Run) (fn : Nat) (f : FnState → FnState) : (r.modFn fn f).epoch = r.epoch := rfl
@[simp] theorem Run.modFn_ready (r : Run) (fn : Nat) (f : FnState → FnState) : (r.modFn fn f).ready = r.ready := rfl
@[simp] theorem Run.modFn_protection (r : Run) (fn : Nat) (f : FnState → FnState) : (r.modFn fn f).protection = r.protection := rfl
@[simp] theorem Run.modFn_cause (r : Run) (fn : Nat) (f : FnState → FnState) : (r.modFn fn f).cause = r.cause := rfl
@[simp] theorem Run.modFn_unmasked (r : Run) (fn : Nat) (f : FnState → FnState) : (r.modFn fn f).unmasked = r.unmasked := rfl
@[simp] theorem Run.modFn_vfEnable (r : Run) (fn : Nat) (f : FnState → FnState) : (r.modFn fn f).vfEnable = r.vfEnable := rfl
@[simp] theorem Run.modFn_numVfs (r : Run) (fn : Nat) (f : FnState → FnState) : (r.modFn fn f).numVfs = r.numVfs := rfl
@[simp] theorem Run.modFn_lastFetched (r : Run) (fn : Nat) (f : FnState → FnState) : (r.modFn fn f).lastFetched = r.lastFetched := rfl
@[simp] theorem Run.modFn_acceptances (r : Run) (fn : Nat) (f : FnState → FnState) : (r.modFn fn f).acceptances = r.acceptances := rfl
@[simp] theorem Run.modFn_store (r : Run) (fn : Nat) (f : FnState → FnState) : (r.modFn fn f).store = r.store := rfl
@[simp] theorem Run.modFn_w1cSet (r : Run) (fn : Nat) (f : FnState → FnState) : (r.modFn fn f).w1cSet = r.w1cSet := rfl
@[simp] theorem Run.modFn_w1cTick (r : Run) (fn : Nat) (f : FnState → FnState) : (r.modFn fn f).w1cTick = r.w1cTick := rfl
@[simp] theorem Run.modFn_insts (r : Run) (fn : Nat) (f : FnState → FnState) : (r.modFn fn f).insts = r.insts := rfl
@[simp] theorem Run.modFn_tsu (r : Run) (fn : Nat) (f : FnState → FnState) : (r.modFn fn f).tsu = r.tsu := rfl
@[simp] theorem Run.modFn_ports (r : Run) (fn : Nat) (f : FnState → FnState) : (r.modFn fn f).ports = r.ports := rfl
@[simp] theorem Run.modFn_sw (r : Run) (fn : Nat) (f : FnState → FnState) : (r.modFn fn f).sw = r.sw := rfl
@[simp] theorem Run.modFn_ing (r : Run) (fn : Nat) (f : FnState → FnState) : (r.modFn fn f).ing = r.ing := rfl
@[simp] theorem Run.modFn_cfl (r : Run) (fn : Nat) (f : FnState → FnState) : (r.modFn fn f).cfl = r.cfl := rfl
@[simp] theorem Run.modFn_slc (r : Run) (fn : Nat) (f : FnState → FnState) : (r.modFn fn f).slc = r.slc := rfl
@[simp] theorem Run.modFn_cle (r : Run) (fn : Nat) (f : FnState → FnState) : (r.modFn fn f).cle = r.cle := rfl
@[simp] theorem Run.modFn_mlr (r : Run) (fn : Nat) (f : FnState → FnState) : (r.modFn fn f).mlr = r.mlr := rfl
@[simp] theorem Run.modFn_trip (r : Run) (fn : Nat) (f : FnState → FnState) : (r.modFn fn f).trip = r.trip := rfl
@[simp] theorem Run.modFn_dr (r : Run) (fn : Nat) (f : FnState → FnState) : (r.modFn fn f).dr = r.dr := rfl
@[simp] theorem Run.modFn_cel (r : Run) (fn : Nat) (f : FnState → FnState) : (r.modFn fn f).cel = r.cel := rfl
@[simp] theorem Run.modFn_lgr (r : Run) (fn : Nat) (f : FnState → FnState) : (r.modFn fn f).lgr = r.lgr := rfl
@[simp] theorem Run.modFn_srm (r : Run) (fn : Nat) (f : FnState → FnState) : (r.modFn fn f).srm = r.srm := rfl
@[simp] theorem Run.modFn_fb (r : Run) (fn : Nat) (f : FnState → FnState) : (r.modFn fn f).fb = r.fb := rfl
@[simp] theorem Run.modFn_flt (r : Run) (fn : Nat) (f : FnState → FnState) : (r.modFn fn f).flt = r.flt := rfl

/-! ### modInst -/

@[simp] theorem Run.modInst_free (r : Run) (n : Nat) (f : InstState → InstState) : (r.modInst n f).free = r.free := rfl
@[simp] theorem Run.modInst_out (r : Run) (n : Nat) (f : InstState → InstState) : (r.modInst n f).out = r.out := rfl
@[simp] theorem Run.modInst_ticks (r : Run) (n : Nat) (f : InstState → InstState) : (r.modInst n f).ticks = r.ticks := rfl
@[simp] theorem Run.modInst_epoch (r : Run) (n : Nat) (f : InstState → InstState) : (r.modInst n f).epoch = r.epoch := rfl
@[simp] theorem Run.modInst_ready (r : Run) (n : Nat) (f : InstState → InstState) : (r.modInst n f).ready = r.ready := rfl
@[simp] theorem Run.modInst_protection (r : Run) (n : Nat) (f : InstState → InstState) : (r.modInst n f).protection = r.protection := rfl
@[simp] theorem Run.modInst_fns (r : Run) (n : Nat) (f : InstState → InstState) : (r.modInst n f).fns = r.fns := rfl
@[simp] theorem Run.modInst_cause (r : Run) (n : Nat) (f : InstState → InstState) : (r.modInst n f).cause = r.cause := rfl
@[simp] theorem Run.modInst_unmasked (r : Run) (n : Nat) (f : InstState → InstState) : (r.modInst n f).unmasked = r.unmasked := rfl
@[simp] theorem Run.modInst_vfEnable (r : Run) (n : Nat) (f : InstState → InstState) : (r.modInst n f).vfEnable = r.vfEnable := rfl
@[simp] theorem Run.modInst_numVfs (r : Run) (n : Nat) (f : InstState → InstState) : (r.modInst n f).numVfs = r.numVfs := rfl
@[simp] theorem Run.modInst_lastFetched (r : Run) (n : Nat) (f : InstState → InstState) : (r.modInst n f).lastFetched = r.lastFetched := rfl
@[simp] theorem Run.modInst_acceptances (r : Run) (n : Nat) (f : InstState → InstState) : (r.modInst n f).acceptances = r.acceptances := rfl
@[simp] theorem Run.modInst_store (r : Run) (n : Nat) (f : InstState → InstState) : (r.modInst n f).store = r.store := rfl
@[simp] theorem Run.modInst_w1cSet (r : Run) (n : Nat) (f : InstState → InstState) : (r.modInst n f).w1cSet = r.w1cSet := rfl
@[simp] theorem Run.modInst_w1cTick (r : Run) (n : Nat) (f : InstState → InstState) : (r.modInst n f).w1cTick = r.w1cTick := rfl
@[simp] theorem Run.modInst_tsu (r : Run) (n : Nat) (f : InstState → InstState) : (r.modInst n f).tsu = r.tsu := rfl
@[simp] theorem Run.modInst_ports (r : Run) (n : Nat) (f : InstState → InstState) : (r.modInst n f).ports = r.ports := rfl
@[simp] theorem Run.modInst_sw (r : Run) (n : Nat) (f : InstState → InstState) : (r.modInst n f).sw = r.sw := rfl
@[simp] theorem Run.modInst_ing (r : Run) (n : Nat) (f : InstState → InstState) : (r.modInst n f).ing = r.ing := rfl
@[simp] theorem Run.modInst_cfl (r : Run) (n : Nat) (f : InstState → InstState) : (r.modInst n f).cfl = r.cfl := rfl
@[simp] theorem Run.modInst_slc (r : Run) (n : Nat) (f : InstState → InstState) : (r.modInst n f).slc = r.slc := rfl
@[simp] theorem Run.modInst_cle (r : Run) (n : Nat) (f : InstState → InstState) : (r.modInst n f).cle = r.cle := rfl
@[simp] theorem Run.modInst_mlr (r : Run) (n : Nat) (f : InstState → InstState) : (r.modInst n f).mlr = r.mlr := rfl
@[simp] theorem Run.modInst_trip (r : Run) (n : Nat) (f : InstState → InstState) : (r.modInst n f).trip = r.trip := rfl
@[simp] theorem Run.modInst_dr (r : Run) (n : Nat) (f : InstState → InstState) : (r.modInst n f).dr = r.dr := rfl
@[simp] theorem Run.modInst_cel (r : Run) (n : Nat) (f : InstState → InstState) : (r.modInst n f).cel = r.cel := rfl
@[simp] theorem Run.modInst_lgr (r : Run) (n : Nat) (f : InstState → InstState) : (r.modInst n f).lgr = r.lgr := rfl
@[simp] theorem Run.modInst_srm (r : Run) (n : Nat) (f : InstState → InstState) : (r.modInst n f).srm = r.srm := rfl
@[simp] theorem Run.modInst_fb (r : Run) (n : Nat) (f : InstState → InstState) : (r.modInst n f).fb = r.fb := rfl
@[simp] theorem Run.modInst_flt (r : Run) (n : Nat) (f : InstState → InstState) : (r.modInst n f).flt = r.flt := rfl

/-! ### modPort -/

@[simp] theorem Run.modPort_free (r : Run) (n : Nat) (f : Port → Port) : (r.modPort n f).free = r.free := rfl
@[simp] theorem Run.modPort_out (r : Run) (n : Nat) (f : Port → Port) : (r.modPort n f).out = r.out := rfl
@[simp] theorem Run.modPort_ticks (r : Run) (n : Nat) (f : Port → Port) : (r.modPort n f).ticks = r.ticks := rfl
@[simp] theorem Run.modPort_epoch (r : Run) (n : Nat) (f : Port → Port) : (r.modPort n f).epoch = r.epoch := rfl
@[simp] theorem Run.modPort_ready (r : Run) (n : Nat) (f : Port → Port) : (r.modPort n f).ready = r.ready := rfl
@[simp] theorem Run.modPort_protection (r : Run) (n : Nat) (f : Port → Port) : (r.modPort n f).protection = r.protection := rfl
@[simp] theorem Run.modPort_fns (r : Run) (n : Nat) (f : Port → Port) : (r.modPort n f).fns = r.fns := rfl
@[simp] theorem Run.modPort_cause (r : Run) (n : Nat) (f : Port → Port) : (r.modPort n f).cause = r.cause := rfl
@[simp] theorem Run.modPort_unmasked (r : Run) (n : Nat) (f : Port → Port) : (r.modPort n f).unmasked = r.unmasked := rfl
@[simp] theorem Run.modPort_vfEnable (r : Run) (n : Nat) (f : Port → Port) : (r.modPort n f).vfEnable = r.vfEnable := rfl
@[simp] theorem Run.modPort_numVfs (r : Run) (n : Nat) (f : Port → Port) : (r.modPort n f).numVfs = r.numVfs := rfl
@[simp] theorem Run.modPort_lastFetched (r : Run) (n : Nat) (f : Port → Port) : (r.modPort n f).lastFetched = r.lastFetched := rfl
@[simp] theorem Run.modPort_acceptances (r : Run) (n : Nat) (f : Port → Port) : (r.modPort n f).acceptances = r.acceptances := rfl
@[simp] theorem Run.modPort_store (r : Run) (n : Nat) (f : Port → Port) : (r.modPort n f).store = r.store := rfl
@[simp] theorem Run.modPort_w1cSet (r : Run) (n : Nat) (f : Port → Port) : (r.modPort n f).w1cSet = r.w1cSet := rfl
@[simp] theorem Run.modPort_w1cTick (r : Run) (n : Nat) (f : Port → Port) : (r.modPort n f).w1cTick = r.w1cTick := rfl
@[simp] theorem Run.modPort_insts (r : Run) (n : Nat) (f : Port → Port) : (r.modPort n f).insts = r.insts := rfl
@[simp] theorem Run.modPort_tsu (r : Run) (n : Nat) (f : Port → Port) : (r.modPort n f).tsu = r.tsu := rfl
@[simp] theorem Run.modPort_sw (r : Run) (n : Nat) (f : Port → Port) : (r.modPort n f).sw = r.sw := rfl
@[simp] theorem Run.modPort_ing (r : Run) (n : Nat) (f : Port → Port) : (r.modPort n f).ing = r.ing := rfl
@[simp] theorem Run.modPort_cfl (r : Run) (n : Nat) (f : Port → Port) : (r.modPort n f).cfl = r.cfl := rfl
@[simp] theorem Run.modPort_slc (r : Run) (n : Nat) (f : Port → Port) : (r.modPort n f).slc = r.slc := rfl
@[simp] theorem Run.modPort_cle (r : Run) (n : Nat) (f : Port → Port) : (r.modPort n f).cle = r.cle := rfl
@[simp] theorem Run.modPort_mlr (r : Run) (n : Nat) (f : Port → Port) : (r.modPort n f).mlr = r.mlr := rfl
@[simp] theorem Run.modPort_trip (r : Run) (n : Nat) (f : Port → Port) : (r.modPort n f).trip = r.trip := rfl
@[simp] theorem Run.modPort_dr (r : Run) (n : Nat) (f : Port → Port) : (r.modPort n f).dr = r.dr := rfl
@[simp] theorem Run.modPort_cel (r : Run) (n : Nat) (f : Port → Port) : (r.modPort n f).cel = r.cel := rfl
@[simp] theorem Run.modPort_lgr (r : Run) (n : Nat) (f : Port → Port) : (r.modPort n f).lgr = r.lgr := rfl
@[simp] theorem Run.modPort_srm (r : Run) (n : Nat) (f : Port → Port) : (r.modPort n f).srm = r.srm := rfl
@[simp] theorem Run.modPort_fb (r : Run) (n : Nat) (f : Port → Port) : (r.modPort n f).fb = r.fb := rfl
@[simp] theorem Run.modPort_flt (r : Run) (n : Nat) (f : Port → Port) : (r.modPort n f).flt = r.flt := rfl

/-! ### modSw -/

@[simp] theorem Run.modSw_free (r : Run) (f : Switch → Switch) : (r.modSw f).free = r.free := rfl
@[simp] theorem Run.modSw_out (r : Run) (f : Switch → Switch) : (r.modSw f).out = r.out := rfl
@[simp] theorem Run.modSw_ticks (r : Run) (f : Switch → Switch) : (r.modSw f).ticks = r.ticks := rfl
@[simp] theorem Run.modSw_epoch (r : Run) (f : Switch → Switch) : (r.modSw f).epoch = r.epoch := rfl
@[simp] theorem Run.modSw_ready (r : Run) (f : Switch → Switch) : (r.modSw f).ready = r.ready := rfl
@[simp] theorem Run.modSw_protection (r : Run) (f : Switch → Switch) : (r.modSw f).protection = r.protection := rfl
@[simp] theorem Run.modSw_fns (r : Run) (f : Switch → Switch) : (r.modSw f).fns = r.fns := rfl
@[simp] theorem Run.modSw_cause (r : Run) (f : Switch → Switch) : (r.modSw f).cause = r.cause := rfl
@[simp] theorem Run.modSw_unmasked (r : Run) (f : Switch → Switch) : (r.modSw f).unmasked = r.unmasked := rfl
@[simp] theorem Run.modSw_vfEnable (r : Run) (f : Switch → Switch) : (r.modSw f).vfEnable = r.vfEnable := rfl
@[simp] theorem Run.modSw_numVfs (r : Run) (f : Switch → Switch) : (r.modSw f).numVfs = r.numVfs := rfl
@[simp] theorem Run.modSw_lastFetched (r : Run) (f : Switch → Switch) : (r.modSw f).lastFetched = r.lastFetched := rfl
@[simp] theorem Run.modSw_acceptances (r : Run) (f : Switch → Switch) : (r.modSw f).acceptances = r.acceptances := rfl
@[simp] theorem Run.modSw_store (r : Run) (f : Switch → Switch) : (r.modSw f).store = r.store := rfl
@[simp] theorem Run.modSw_w1cSet (r : Run) (f : Switch → Switch) : (r.modSw f).w1cSet = r.w1cSet := rfl
@[simp] theorem Run.modSw_w1cTick (r : Run) (f : Switch → Switch) : (r.modSw f).w1cTick = r.w1cTick := rfl
@[simp] theorem Run.modSw_insts (r : Run) (f : Switch → Switch) : (r.modSw f).insts = r.insts := rfl
@[simp] theorem Run.modSw_tsu (r : Run) (f : Switch → Switch) : (r.modSw f).tsu = r.tsu := rfl
@[simp] theorem Run.modSw_ports (r : Run) (f : Switch → Switch) : (r.modSw f).ports = r.ports := rfl
@[simp] theorem Run.modSw_ing (r : Run) (f : Switch → Switch) : (r.modSw f).ing = r.ing := rfl
@[simp] theorem Run.modSw_cfl (r : Run) (f : Switch → Switch) : (r.modSw f).cfl = r.cfl := rfl
@[simp] theorem Run.modSw_slc (r : Run) (f : Switch → Switch) : (r.modSw f).slc = r.slc := rfl
@[simp] theorem Run.modSw_cle (r : Run) (f : Switch → Switch) : (r.modSw f).cle = r.cle := rfl
@[simp] theorem Run.modSw_mlr (r : Run) (f : Switch → Switch) : (r.modSw f).mlr = r.mlr := rfl
@[simp] theorem Run.modSw_trip (r : Run) (f : Switch → Switch) : (r.modSw f).trip = r.trip := rfl
@[simp] theorem Run.modSw_dr (r : Run) (f : Switch → Switch) : (r.modSw f).dr = r.dr := rfl
@[simp] theorem Run.modSw_cel (r : Run) (f : Switch → Switch) : (r.modSw f).cel = r.cel := rfl
@[simp] theorem Run.modSw_lgr (r : Run) (f : Switch → Switch) : (r.modSw f).lgr = r.lgr := rfl
@[simp] theorem Run.modSw_srm (r : Run) (f : Switch → Switch) : (r.modSw f).srm = r.srm := rfl
@[simp] theorem Run.modSw_fb (r : Run) (f : Switch → Switch) : (r.modSw f).fb = r.fb := rfl
@[simp] theorem Run.modSw_flt (r : Run) (f : Switch → Switch) : (r.modSw f).flt = r.flt := rfl

/-! ### modTsu -/

@[simp] theorem Run.modTsu_free (r : Run) (f : Tsu → Tsu) : (r.modTsu f).free = r.free := rfl
@[simp] theorem Run.modTsu_out (r : Run) (f : Tsu → Tsu) : (r.modTsu f).out = r.out := rfl
@[simp] theorem Run.modTsu_ticks (r : Run) (f : Tsu → Tsu) : (r.modTsu f).ticks = r.ticks := rfl
@[simp] theorem Run.modTsu_epoch (r : Run) (f : Tsu → Tsu) : (r.modTsu f).epoch = r.epoch := rfl
@[simp] theorem Run.modTsu_ready (r : Run) (f : Tsu → Tsu) : (r.modTsu f).ready = r.ready := rfl
@[simp] theorem Run.modTsu_protection (r : Run) (f : Tsu → Tsu) : (r.modTsu f).protection = r.protection := rfl
@[simp] theorem Run.modTsu_fns (r : Run) (f : Tsu → Tsu) : (r.modTsu f).fns = r.fns := rfl
@[simp] theorem Run.modTsu_cause (r : Run) (f : Tsu → Tsu) : (r.modTsu f).cause = r.cause := rfl
@[simp] theorem Run.modTsu_unmasked (r : Run) (f : Tsu → Tsu) : (r.modTsu f).unmasked = r.unmasked := rfl
@[simp] theorem Run.modTsu_vfEnable (r : Run) (f : Tsu → Tsu) : (r.modTsu f).vfEnable = r.vfEnable := rfl
@[simp] theorem Run.modTsu_numVfs (r : Run) (f : Tsu → Tsu) : (r.modTsu f).numVfs = r.numVfs := rfl
@[simp] theorem Run.modTsu_lastFetched (r : Run) (f : Tsu → Tsu) : (r.modTsu f).lastFetched = r.lastFetched := rfl
@[simp] theorem Run.modTsu_acceptances (r : Run) (f : Tsu → Tsu) : (r.modTsu f).acceptances = r.acceptances := rfl
@[simp] theorem Run.modTsu_store (r : Run) (f : Tsu → Tsu) : (r.modTsu f).store = r.store := rfl
@[simp] theorem Run.modTsu_w1cSet (r : Run) (f : Tsu → Tsu) : (r.modTsu f).w1cSet = r.w1cSet := rfl
@[simp] theorem Run.modTsu_w1cTick (r : Run) (f : Tsu → Tsu) : (r.modTsu f).w1cTick = r.w1cTick := rfl
@[simp] theorem Run.modTsu_insts (r : Run) (f : Tsu → Tsu) : (r.modTsu f).insts = r.insts := rfl
@[simp] theorem Run.modTsu_ports (r : Run) (f : Tsu → Tsu) : (r.modTsu f).ports = r.ports := rfl
@[simp] theorem Run.modTsu_sw (r : Run) (f : Tsu → Tsu) : (r.modTsu f).sw = r.sw := rfl
@[simp] theorem Run.modTsu_ing (r : Run) (f : Tsu → Tsu) : (r.modTsu f).ing = r.ing := rfl
@[simp] theorem Run.modTsu_cfl (r : Run) (f : Tsu → Tsu) : (r.modTsu f).cfl = r.cfl := rfl
@[simp] theorem Run.modTsu_slc (r : Run) (f : Tsu → Tsu) : (r.modTsu f).slc = r.slc := rfl
@[simp] theorem Run.modTsu_cle (r : Run) (f : Tsu → Tsu) : (r.modTsu f).cle = r.cle := rfl
@[simp] theorem Run.modTsu_mlr (r : Run) (f : Tsu → Tsu) : (r.modTsu f).mlr = r.mlr := rfl
@[simp] theorem Run.modTsu_trip (r : Run) (f : Tsu → Tsu) : (r.modTsu f).trip = r.trip := rfl
@[simp] theorem Run.modTsu_dr (r : Run) (f : Tsu → Tsu) : (r.modTsu f).dr = r.dr := rfl
@[simp] theorem Run.modTsu_cel (r : Run) (f : Tsu → Tsu) : (r.modTsu f).cel = r.cel := rfl
@[simp] theorem Run.modTsu_lgr (r : Run) (f : Tsu → Tsu) : (r.modTsu f).lgr = r.lgr := rfl
@[simp] theorem Run.modTsu_srm (r : Run) (f : Tsu → Tsu) : (r.modTsu f).srm = r.srm := rfl
@[simp] theorem Run.modTsu_fb (r : Run) (f : Tsu → Tsu) : (r.modTsu f).fb = r.fb := rfl
@[simp] theorem Run.modTsu_flt (r : Run) (f : Tsu → Tsu) : (r.modTsu f).flt = r.flt := rfl

/-! ### modIng -/

@[simp] theorem Run.modIng_free (r : Run) (f : Ingest → Ingest) : (r.modIng f).free = r.free := rfl
@[simp] theorem Run.modIng_out (r : Run) (f : Ingest → Ingest) : (r.modIng f).out = r.out := rfl
@[simp] theorem Run.modIng_ticks (r : Run) (f : Ingest → Ingest) : (r.modIng f).ticks = r.ticks := rfl
@[simp] theorem Run.modIng_epoch (r : Run) (f : Ingest → Ingest) : (r.modIng f).epoch = r.epoch := rfl
@[simp] theorem Run.modIng_ready (r : Run) (f : Ingest → Ingest) : (r.modIng f).ready = r.ready := rfl
@[simp] theorem Run.modIng_protection (r : Run) (f : Ingest → Ingest) : (r.modIng f).protection = r.protection := rfl
@[simp] theorem Run.modIng_fns (r : Run) (f : Ingest → Ingest) : (r.modIng f).fns = r.fns := rfl
@[simp] theorem Run.modIng_cause (r : Run) (f : Ingest → Ingest) : (r.modIng f).cause = r.cause := rfl
@[simp] theorem Run.modIng_unmasked (r : Run) (f : Ingest → Ingest) : (r.modIng f).unmasked = r.unmasked := rfl
@[simp] theorem Run.modIng_vfEnable (r : Run) (f : Ingest → Ingest) : (r.modIng f).vfEnable = r.vfEnable := rfl
@[simp] theorem Run.modIng_numVfs (r : Run) (f : Ingest → Ingest) : (r.modIng f).numVfs = r.numVfs := rfl
@[simp] theorem Run.modIng_lastFetched (r : Run) (f : Ingest → Ingest) : (r.modIng f).lastFetched = r.lastFetched := rfl
@[simp] theorem Run.modIng_acceptances (r : Run) (f : Ingest → Ingest) : (r.modIng f).acceptances = r.acceptances := rfl
@[simp] theorem Run.modIng_store (r : Run) (f : Ingest → Ingest) : (r.modIng f).store = r.store := rfl
@[simp] theorem Run.modIng_w1cSet (r : Run) (f : Ingest → Ingest) : (r.modIng f).w1cSet = r.w1cSet := rfl
@[simp] theorem Run.modIng_w1cTick (r : Run) (f : Ingest → Ingest) : (r.modIng f).w1cTick = r.w1cTick := rfl
@[simp] theorem Run.modIng_insts (r : Run) (f : Ingest → Ingest) : (r.modIng f).insts = r.insts := rfl
@[simp] theorem Run.modIng_tsu (r : Run) (f : Ingest → Ingest) : (r.modIng f).tsu = r.tsu := rfl
@[simp] theorem Run.modIng_ports (r : Run) (f : Ingest → Ingest) : (r.modIng f).ports = r.ports := rfl
@[simp] theorem Run.modIng_sw (r : Run) (f : Ingest → Ingest) : (r.modIng f).sw = r.sw := rfl
@[simp] theorem Run.modIng_cfl (r : Run) (f : Ingest → Ingest) : (r.modIng f).cfl = r.cfl := rfl
@[simp] theorem Run.modIng_slc (r : Run) (f : Ingest → Ingest) : (r.modIng f).slc = r.slc := rfl
@[simp] theorem Run.modIng_cle (r : Run) (f : Ingest → Ingest) : (r.modIng f).cle = r.cle := rfl
@[simp] theorem Run.modIng_mlr (r : Run) (f : Ingest → Ingest) : (r.modIng f).mlr = r.mlr := rfl
@[simp] theorem Run.modIng_trip (r : Run) (f : Ingest → Ingest) : (r.modIng f).trip = r.trip := rfl
@[simp] theorem Run.modIng_dr (r : Run) (f : Ingest → Ingest) : (r.modIng f).dr = r.dr := rfl
@[simp] theorem Run.modIng_cel (r : Run) (f : Ingest → Ingest) : (r.modIng f).cel = r.cel := rfl
@[simp] theorem Run.modIng_lgr (r : Run) (f : Ingest → Ingest) : (r.modIng f).lgr = r.lgr := rfl
@[simp] theorem Run.modIng_srm (r : Run) (f : Ingest → Ingest) : (r.modIng f).srm = r.srm := rfl
@[simp] theorem Run.modIng_fb (r : Run) (f : Ingest → Ingest) : (r.modIng f).fb = r.fb := rfl
@[simp] theorem Run.modIng_flt (r : Run) (f : Ingest → Ingest) : (r.modIng f).flt = r.flt := rfl

/-! ### modCfl -/

@[simp] theorem Run.modCfl_free (r : Run) (f : Confluence → Confluence) : (r.modCfl f).free = r.free := rfl
@[simp] theorem Run.modCfl_out (r : Run) (f : Confluence → Confluence) : (r.modCfl f).out = r.out := rfl
@[simp] theorem Run.modCfl_ticks (r : Run) (f : Confluence → Confluence) : (r.modCfl f).ticks = r.ticks := rfl
@[simp] theorem Run.modCfl_epoch (r : Run) (f : Confluence → Confluence) : (r.modCfl f).epoch = r.epoch := rfl
@[simp] theorem Run.modCfl_ready (r : Run) (f : Confluence → Confluence) : (r.modCfl f).ready = r.ready := rfl
@[simp] theorem Run.modCfl_protection (r : Run) (f : Confluence → Confluence) : (r.modCfl f).protection = r.protection := rfl
@[simp] theorem Run.modCfl_fns (r : Run) (f : Confluence → Confluence) : (r.modCfl f).fns = r.fns := rfl
@[simp] theorem Run.modCfl_cause (r : Run) (f : Confluence → Confluence) : (r.modCfl f).cause = r.cause := rfl
@[simp] theorem Run.modCfl_unmasked (r : Run) (f : Confluence → Confluence) : (r.modCfl f).unmasked = r.unmasked := rfl
@[simp] theorem Run.modCfl_vfEnable (r : Run) (f : Confluence → Confluence) : (r.modCfl f).vfEnable = r.vfEnable := rfl
@[simp] theorem Run.modCfl_numVfs (r : Run) (f : Confluence → Confluence) : (r.modCfl f).numVfs = r.numVfs := rfl
@[simp] theorem Run.modCfl_lastFetched (r : Run) (f : Confluence → Confluence) : (r.modCfl f).lastFetched = r.lastFetched := rfl
@[simp] theorem Run.modCfl_acceptances (r : Run) (f : Confluence → Confluence) : (r.modCfl f).acceptances = r.acceptances := rfl
@[simp] theorem Run.modCfl_store (r : Run) (f : Confluence → Confluence) : (r.modCfl f).store = r.store := rfl
@[simp] theorem Run.modCfl_w1cSet (r : Run) (f : Confluence → Confluence) : (r.modCfl f).w1cSet = r.w1cSet := rfl
@[simp] theorem Run.modCfl_w1cTick (r : Run) (f : Confluence → Confluence) : (r.modCfl f).w1cTick = r.w1cTick := rfl
@[simp] theorem Run.modCfl_insts (r : Run) (f : Confluence → Confluence) : (r.modCfl f).insts = r.insts := rfl
@[simp] theorem Run.modCfl_tsu (r : Run) (f : Confluence → Confluence) : (r.modCfl f).tsu = r.tsu := rfl
@[simp] theorem Run.modCfl_ports (r : Run) (f : Confluence → Confluence) : (r.modCfl f).ports = r.ports := rfl
@[simp] theorem Run.modCfl_sw (r : Run) (f : Confluence → Confluence) : (r.modCfl f).sw = r.sw := rfl
@[simp] theorem Run.modCfl_ing (r : Run) (f : Confluence → Confluence) : (r.modCfl f).ing = r.ing := rfl
@[simp] theorem Run.modCfl_slc (r : Run) (f : Confluence → Confluence) : (r.modCfl f).slc = r.slc := rfl
@[simp] theorem Run.modCfl_cle (r : Run) (f : Confluence → Confluence) : (r.modCfl f).cle = r.cle := rfl
@[simp] theorem Run.modCfl_mlr (r : Run) (f : Confluence → Confluence) : (r.modCfl f).mlr = r.mlr := rfl
@[simp] theorem Run.modCfl_trip (r : Run) (f : Confluence → Confluence) : (r.modCfl f).trip = r.trip := rfl
@[simp] theorem Run.modCfl_dr (r : Run) (f : Confluence → Confluence) : (r.modCfl f).dr = r.dr := rfl
@[simp] theorem Run.modCfl_cel (r : Run) (f : Confluence → Confluence) : (r.modCfl f).cel = r.cel := rfl
@[simp] theorem Run.modCfl_lgr (r : Run) (f : Confluence → Confluence) : (r.modCfl f).lgr = r.lgr := rfl
@[simp] theorem Run.modCfl_srm (r : Run) (f : Confluence → Confluence) : (r.modCfl f).srm = r.srm := rfl
@[simp] theorem Run.modCfl_fb (r : Run) (f : Confluence → Confluence) : (r.modCfl f).fb = r.fb := rfl
@[simp] theorem Run.modCfl_flt (r : Run) (f : Confluence → Confluence) : (r.modCfl f).flt = r.flt := rfl

/-! ### modSluice -/

@[simp] theorem Run.modSluice_free (r : Run) (f : Sluice → Sluice) : (r.modSluice f).free = r.free := rfl
@[simp] theorem Run.modSluice_out (r : Run) (f : Sluice → Sluice) : (r.modSluice f).out = r.out := rfl
@[simp] theorem Run.modSluice_ticks (r : Run) (f : Sluice → Sluice) : (r.modSluice f).ticks = r.ticks := rfl
@[simp] theorem Run.modSluice_epoch (r : Run) (f : Sluice → Sluice) : (r.modSluice f).epoch = r.epoch := rfl
@[simp] theorem Run.modSluice_ready (r : Run) (f : Sluice → Sluice) : (r.modSluice f).ready = r.ready := rfl
@[simp] theorem Run.modSluice_protection (r : Run) (f : Sluice → Sluice) : (r.modSluice f).protection = r.protection := rfl
@[simp] theorem Run.modSluice_fns (r : Run) (f : Sluice → Sluice) : (r.modSluice f).fns = r.fns := rfl
@[simp] theorem Run.modSluice_cause (r : Run) (f : Sluice → Sluice) : (r.modSluice f).cause = r.cause := rfl
@[simp] theorem Run.modSluice_unmasked (r : Run) (f : Sluice → Sluice) : (r.modSluice f).unmasked = r.unmasked := rfl
@[simp] theorem Run.modSluice_vfEnable (r : Run) (f : Sluice → Sluice) : (r.modSluice f).vfEnable = r.vfEnable := rfl
@[simp] theorem Run.modSluice_numVfs (r : Run) (f : Sluice → Sluice) : (r.modSluice f).numVfs = r.numVfs := rfl
@[simp] theorem Run.modSluice_lastFetched (r : Run) (f : Sluice → Sluice) : (r.modSluice f).lastFetched = r.lastFetched := rfl
@[simp] theorem Run.modSluice_acceptances (r : Run) (f : Sluice → Sluice) : (r.modSluice f).acceptances = r.acceptances := rfl
@[simp] theorem Run.modSluice_store (r : Run) (f : Sluice → Sluice) : (r.modSluice f).store = r.store := rfl
@[simp] theorem Run.modSluice_w1cSet (r : Run) (f : Sluice → Sluice) : (r.modSluice f).w1cSet = r.w1cSet := rfl
@[simp] theorem Run.modSluice_w1cTick (r : Run) (f : Sluice → Sluice) : (r.modSluice f).w1cTick = r.w1cTick := rfl
@[simp] theorem Run.modSluice_insts (r : Run) (f : Sluice → Sluice) : (r.modSluice f).insts = r.insts := rfl
@[simp] theorem Run.modSluice_tsu (r : Run) (f : Sluice → Sluice) : (r.modSluice f).tsu = r.tsu := rfl
@[simp] theorem Run.modSluice_ports (r : Run) (f : Sluice → Sluice) : (r.modSluice f).ports = r.ports := rfl
@[simp] theorem Run.modSluice_sw (r : Run) (f : Sluice → Sluice) : (r.modSluice f).sw = r.sw := rfl
@[simp] theorem Run.modSluice_ing (r : Run) (f : Sluice → Sluice) : (r.modSluice f).ing = r.ing := rfl
@[simp] theorem Run.modSluice_cfl (r : Run) (f : Sluice → Sluice) : (r.modSluice f).cfl = r.cfl := rfl
@[simp] theorem Run.modSluice_cle (r : Run) (f : Sluice → Sluice) : (r.modSluice f).cle = r.cle := rfl
@[simp] theorem Run.modSluice_mlr (r : Run) (f : Sluice → Sluice) : (r.modSluice f).mlr = r.mlr := rfl
@[simp] theorem Run.modSluice_trip (r : Run) (f : Sluice → Sluice) : (r.modSluice f).trip = r.trip := rfl
@[simp] theorem Run.modSluice_dr (r : Run) (f : Sluice → Sluice) : (r.modSluice f).dr = r.dr := rfl
@[simp] theorem Run.modSluice_cel (r : Run) (f : Sluice → Sluice) : (r.modSluice f).cel = r.cel := rfl
@[simp] theorem Run.modSluice_lgr (r : Run) (f : Sluice → Sluice) : (r.modSluice f).lgr = r.lgr := rfl
@[simp] theorem Run.modSluice_srm (r : Run) (f : Sluice → Sluice) : (r.modSluice f).srm = r.srm := rfl
@[simp] theorem Run.modSluice_fb (r : Run) (f : Sluice → Sluice) : (r.modSluice f).fb = r.fb := rfl
@[simp] theorem Run.modSluice_flt (r : Run) (f : Sluice → Sluice) : (r.modSluice f).flt = r.flt := rfl

/-! ### modCle -/

@[simp] theorem Run.modCle_free (r : Run) (f : Cle → Cle) : (r.modCle f).free = r.free := rfl
@[simp] theorem Run.modCle_out (r : Run) (f : Cle → Cle) : (r.modCle f).out = r.out := rfl
@[simp] theorem Run.modCle_ticks (r : Run) (f : Cle → Cle) : (r.modCle f).ticks = r.ticks := rfl
@[simp] theorem Run.modCle_epoch (r : Run) (f : Cle → Cle) : (r.modCle f).epoch = r.epoch := rfl
@[simp] theorem Run.modCle_ready (r : Run) (f : Cle → Cle) : (r.modCle f).ready = r.ready := rfl
@[simp] theorem Run.modCle_protection (r : Run) (f : Cle → Cle) : (r.modCle f).protection = r.protection := rfl
@[simp] theorem Run.modCle_fns (r : Run) (f : Cle → Cle) : (r.modCle f).fns = r.fns := rfl
@[simp] theorem Run.modCle_cause (r : Run) (f : Cle → Cle) : (r.modCle f).cause = r.cause := rfl
@[simp] theorem Run.modCle_unmasked (r : Run) (f : Cle → Cle) : (r.modCle f).unmasked = r.unmasked := rfl
@[simp] theorem Run.modCle_vfEnable (r : Run) (f : Cle → Cle) : (r.modCle f).vfEnable = r.vfEnable := rfl
@[simp] theorem Run.modCle_numVfs (r : Run) (f : Cle → Cle) : (r.modCle f).numVfs = r.numVfs := rfl
@[simp] theorem Run.modCle_lastFetched (r : Run) (f : Cle → Cle) : (r.modCle f).lastFetched = r.lastFetched := rfl
@[simp] theorem Run.modCle_acceptances (r : Run) (f : Cle → Cle) : (r.modCle f).acceptances = r.acceptances := rfl
@[simp] theorem Run.modCle_store (r : Run) (f : Cle → Cle) : (r.modCle f).store = r.store := rfl
@[simp] theorem Run.modCle_w1cSet (r : Run) (f : Cle → Cle) : (r.modCle f).w1cSet = r.w1cSet := rfl
@[simp] theorem Run.modCle_w1cTick (r : Run) (f : Cle → Cle) : (r.modCle f).w1cTick = r.w1cTick := rfl
@[simp] theorem Run.modCle_insts (r : Run) (f : Cle → Cle) : (r.modCle f).insts = r.insts := rfl
@[simp] theorem Run.modCle_tsu (r : Run) (f : Cle → Cle) : (r.modCle f).tsu = r.tsu := rfl
@[simp] theorem Run.modCle_ports (r : Run) (f : Cle → Cle) : (r.modCle f).ports = r.ports := rfl
@[simp] theorem Run.modCle_sw (r : Run) (f : Cle → Cle) : (r.modCle f).sw = r.sw := rfl
@[simp] theorem Run.modCle_ing (r : Run) (f : Cle → Cle) : (r.modCle f).ing = r.ing := rfl
@[simp] theorem Run.modCle_cfl (r : Run) (f : Cle → Cle) : (r.modCle f).cfl = r.cfl := rfl
@[simp] theorem Run.modCle_slc (r : Run) (f : Cle → Cle) : (r.modCle f).slc = r.slc := rfl
@[simp] theorem Run.modCle_mlr (r : Run) (f : Cle → Cle) : (r.modCle f).mlr = r.mlr := rfl
@[simp] theorem Run.modCle_trip (r : Run) (f : Cle → Cle) : (r.modCle f).trip = r.trip := rfl
@[simp] theorem Run.modCle_dr (r : Run) (f : Cle → Cle) : (r.modCle f).dr = r.dr := rfl
@[simp] theorem Run.modCle_cel (r : Run) (f : Cle → Cle) : (r.modCle f).cel = r.cel := rfl
@[simp] theorem Run.modCle_lgr (r : Run) (f : Cle → Cle) : (r.modCle f).lgr = r.lgr := rfl
@[simp] theorem Run.modCle_srm (r : Run) (f : Cle → Cle) : (r.modCle f).srm = r.srm := rfl
@[simp] theorem Run.modCle_fb (r : Run) (f : Cle → Cle) : (r.modCle f).fb = r.fb := rfl
@[simp] theorem Run.modCle_flt (r : Run) (f : Cle → Cle) : (r.modCle f).flt = r.flt := rfl

/-! ### modMlr -/

@[simp] theorem Run.modMlr_free (r : Run) (f : Millrace → Millrace) : (r.modMlr f).free = r.free := rfl
@[simp] theorem Run.modMlr_out (r : Run) (f : Millrace → Millrace) : (r.modMlr f).out = r.out := rfl
@[simp] theorem Run.modMlr_ticks (r : Run) (f : Millrace → Millrace) : (r.modMlr f).ticks = r.ticks := rfl
@[simp] theorem Run.modMlr_epoch (r : Run) (f : Millrace → Millrace) : (r.modMlr f).epoch = r.epoch := rfl
@[simp] theorem Run.modMlr_ready (r : Run) (f : Millrace → Millrace) : (r.modMlr f).ready = r.ready := rfl
@[simp] theorem Run.modMlr_protection (r : Run) (f : Millrace → Millrace) : (r.modMlr f).protection = r.protection := rfl
@[simp] theorem Run.modMlr_fns (r : Run) (f : Millrace → Millrace) : (r.modMlr f).fns = r.fns := rfl
@[simp] theorem Run.modMlr_cause (r : Run) (f : Millrace → Millrace) : (r.modMlr f).cause = r.cause := rfl
@[simp] theorem Run.modMlr_unmasked (r : Run) (f : Millrace → Millrace) : (r.modMlr f).unmasked = r.unmasked := rfl
@[simp] theorem Run.modMlr_vfEnable (r : Run) (f : Millrace → Millrace) : (r.modMlr f).vfEnable = r.vfEnable := rfl
@[simp] theorem Run.modMlr_numVfs (r : Run) (f : Millrace → Millrace) : (r.modMlr f).numVfs = r.numVfs := rfl
@[simp] theorem Run.modMlr_lastFetched (r : Run) (f : Millrace → Millrace) : (r.modMlr f).lastFetched = r.lastFetched := rfl
@[simp] theorem Run.modMlr_acceptances (r : Run) (f : Millrace → Millrace) : (r.modMlr f).acceptances = r.acceptances := rfl
@[simp] theorem Run.modMlr_store (r : Run) (f : Millrace → Millrace) : (r.modMlr f).store = r.store := rfl
@[simp] theorem Run.modMlr_w1cSet (r : Run) (f : Millrace → Millrace) : (r.modMlr f).w1cSet = r.w1cSet := rfl
@[simp] theorem Run.modMlr_w1cTick (r : Run) (f : Millrace → Millrace) : (r.modMlr f).w1cTick = r.w1cTick := rfl
@[simp] theorem Run.modMlr_insts (r : Run) (f : Millrace → Millrace) : (r.modMlr f).insts = r.insts := rfl
@[simp] theorem Run.modMlr_tsu (r : Run) (f : Millrace → Millrace) : (r.modMlr f).tsu = r.tsu := rfl
@[simp] theorem Run.modMlr_ports (r : Run) (f : Millrace → Millrace) : (r.modMlr f).ports = r.ports := rfl
@[simp] theorem Run.modMlr_sw (r : Run) (f : Millrace → Millrace) : (r.modMlr f).sw = r.sw := rfl
@[simp] theorem Run.modMlr_ing (r : Run) (f : Millrace → Millrace) : (r.modMlr f).ing = r.ing := rfl
@[simp] theorem Run.modMlr_cfl (r : Run) (f : Millrace → Millrace) : (r.modMlr f).cfl = r.cfl := rfl
@[simp] theorem Run.modMlr_slc (r : Run) (f : Millrace → Millrace) : (r.modMlr f).slc = r.slc := rfl
@[simp] theorem Run.modMlr_cle (r : Run) (f : Millrace → Millrace) : (r.modMlr f).cle = r.cle := rfl
@[simp] theorem Run.modMlr_trip (r : Run) (f : Millrace → Millrace) : (r.modMlr f).trip = r.trip := rfl
@[simp] theorem Run.modMlr_dr (r : Run) (f : Millrace → Millrace) : (r.modMlr f).dr = r.dr := rfl
@[simp] theorem Run.modMlr_cel (r : Run) (f : Millrace → Millrace) : (r.modMlr f).cel = r.cel := rfl
@[simp] theorem Run.modMlr_lgr (r : Run) (f : Millrace → Millrace) : (r.modMlr f).lgr = r.lgr := rfl
@[simp] theorem Run.modMlr_srm (r : Run) (f : Millrace → Millrace) : (r.modMlr f).srm = r.srm := rfl
@[simp] theorem Run.modMlr_fb (r : Run) (f : Millrace → Millrace) : (r.modMlr f).fb = r.fb := rfl
@[simp] theorem Run.modMlr_flt (r : Run) (f : Millrace → Millrace) : (r.modMlr f).flt = r.flt := rfl

/-! ### modTrip -/

@[simp] theorem Run.modTrip_free (r : Run) (f : Trip → Trip) : (r.modTrip f).free = r.free := rfl
@[simp] theorem Run.modTrip_out (r : Run) (f : Trip → Trip) : (r.modTrip f).out = r.out := rfl
@[simp] theorem Run.modTrip_ticks (r : Run) (f : Trip → Trip) : (r.modTrip f).ticks = r.ticks := rfl
@[simp] theorem Run.modTrip_epoch (r : Run) (f : Trip → Trip) : (r.modTrip f).epoch = r.epoch := rfl
@[simp] theorem Run.modTrip_ready (r : Run) (f : Trip → Trip) : (r.modTrip f).ready = r.ready := rfl
@[simp] theorem Run.modTrip_protection (r : Run) (f : Trip → Trip) : (r.modTrip f).protection = r.protection := rfl
@[simp] theorem Run.modTrip_fns (r : Run) (f : Trip → Trip) : (r.modTrip f).fns = r.fns := rfl
@[simp] theorem Run.modTrip_cause (r : Run) (f : Trip → Trip) : (r.modTrip f).cause = r.cause := rfl
@[simp] theorem Run.modTrip_unmasked (r : Run) (f : Trip → Trip) : (r.modTrip f).unmasked = r.unmasked := rfl
@[simp] theorem Run.modTrip_vfEnable (r : Run) (f : Trip → Trip) : (r.modTrip f).vfEnable = r.vfEnable := rfl
@[simp] theorem Run.modTrip_numVfs (r : Run) (f : Trip → Trip) : (r.modTrip f).numVfs = r.numVfs := rfl
@[simp] theorem Run.modTrip_lastFetched (r : Run) (f : Trip → Trip) : (r.modTrip f).lastFetched = r.lastFetched := rfl
@[simp] theorem Run.modTrip_acceptances (r : Run) (f : Trip → Trip) : (r.modTrip f).acceptances = r.acceptances := rfl
@[simp] theorem Run.modTrip_store (r : Run) (f : Trip → Trip) : (r.modTrip f).store = r.store := rfl
@[simp] theorem Run.modTrip_w1cSet (r : Run) (f : Trip → Trip) : (r.modTrip f).w1cSet = r.w1cSet := rfl
@[simp] theorem Run.modTrip_w1cTick (r : Run) (f : Trip → Trip) : (r.modTrip f).w1cTick = r.w1cTick := rfl
@[simp] theorem Run.modTrip_insts (r : Run) (f : Trip → Trip) : (r.modTrip f).insts = r.insts := rfl
@[simp] theorem Run.modTrip_tsu (r : Run) (f : Trip → Trip) : (r.modTrip f).tsu = r.tsu := rfl
@[simp] theorem Run.modTrip_ports (r : Run) (f : Trip → Trip) : (r.modTrip f).ports = r.ports := rfl
@[simp] theorem Run.modTrip_sw (r : Run) (f : Trip → Trip) : (r.modTrip f).sw = r.sw := rfl
@[simp] theorem Run.modTrip_ing (r : Run) (f : Trip → Trip) : (r.modTrip f).ing = r.ing := rfl
@[simp] theorem Run.modTrip_cfl (r : Run) (f : Trip → Trip) : (r.modTrip f).cfl = r.cfl := rfl
@[simp] theorem Run.modTrip_slc (r : Run) (f : Trip → Trip) : (r.modTrip f).slc = r.slc := rfl
@[simp] theorem Run.modTrip_cle (r : Run) (f : Trip → Trip) : (r.modTrip f).cle = r.cle := rfl
@[simp] theorem Run.modTrip_mlr (r : Run) (f : Trip → Trip) : (r.modTrip f).mlr = r.mlr := rfl
@[simp] theorem Run.modTrip_dr (r : Run) (f : Trip → Trip) : (r.modTrip f).dr = r.dr := rfl
@[simp] theorem Run.modTrip_cel (r : Run) (f : Trip → Trip) : (r.modTrip f).cel = r.cel := rfl
@[simp] theorem Run.modTrip_lgr (r : Run) (f : Trip → Trip) : (r.modTrip f).lgr = r.lgr := rfl
@[simp] theorem Run.modTrip_srm (r : Run) (f : Trip → Trip) : (r.modTrip f).srm = r.srm := rfl
@[simp] theorem Run.modTrip_fb (r : Run) (f : Trip → Trip) : (r.modTrip f).fb = r.fb := rfl
@[simp] theorem Run.modTrip_flt (r : Run) (f : Trip → Trip) : (r.modTrip f).flt = r.flt := rfl

/-! ### modDr -/

@[simp] theorem Run.modDr_free (r : Run) (f : Recorder → Recorder) : (r.modDr f).free = r.free := rfl
@[simp] theorem Run.modDr_out (r : Run) (f : Recorder → Recorder) : (r.modDr f).out = r.out := rfl
@[simp] theorem Run.modDr_ticks (r : Run) (f : Recorder → Recorder) : (r.modDr f).ticks = r.ticks := rfl
@[simp] theorem Run.modDr_epoch (r : Run) (f : Recorder → Recorder) : (r.modDr f).epoch = r.epoch := rfl
@[simp] theorem Run.modDr_ready (r : Run) (f : Recorder → Recorder) : (r.modDr f).ready = r.ready := rfl
@[simp] theorem Run.modDr_protection (r : Run) (f : Recorder → Recorder) : (r.modDr f).protection = r.protection := rfl
@[simp] theorem Run.modDr_fns (r : Run) (f : Recorder → Recorder) : (r.modDr f).fns = r.fns := rfl
@[simp] theorem Run.modDr_cause (r : Run) (f : Recorder → Recorder) : (r.modDr f).cause = r.cause := rfl
@[simp] theorem Run.modDr_unmasked (r : Run) (f : Recorder → Recorder) : (r.modDr f).unmasked = r.unmasked := rfl
@[simp] theorem Run.modDr_vfEnable (r : Run) (f : Recorder → Recorder) : (r.modDr f).vfEnable = r.vfEnable := rfl
@[simp] theorem Run.modDr_numVfs (r : Run) (f : Recorder → Recorder) : (r.modDr f).numVfs = r.numVfs := rfl
@[simp] theorem Run.modDr_lastFetched (r : Run) (f : Recorder → Recorder) : (r.modDr f).lastFetched = r.lastFetched := rfl
@[simp] theorem Run.modDr_acceptances (r : Run) (f : Recorder → Recorder) : (r.modDr f).acceptances = r.acceptances := rfl
@[simp] theorem Run.modDr_store (r : Run) (f : Recorder → Recorder) : (r.modDr f).store = r.store := rfl
@[simp] theorem Run.modDr_w1cSet (r : Run) (f : Recorder → Recorder) : (r.modDr f).w1cSet = r.w1cSet := rfl
@[simp] theorem Run.modDr_w1cTick (r : Run) (f : Recorder → Recorder) : (r.modDr f).w1cTick = r.w1cTick := rfl
@[simp] theorem Run.modDr_insts (r : Run) (f : Recorder → Recorder) : (r.modDr f).insts = r.insts := rfl
@[simp] theorem Run.modDr_tsu (r : Run) (f : Recorder → Recorder) : (r.modDr f).tsu = r.tsu := rfl
@[simp] theorem Run.modDr_ports (r : Run) (f : Recorder → Recorder) : (r.modDr f).ports = r.ports := rfl
@[simp] theorem Run.modDr_sw (r : Run) (f : Recorder → Recorder) : (r.modDr f).sw = r.sw := rfl
@[simp] theorem Run.modDr_ing (r : Run) (f : Recorder → Recorder) : (r.modDr f).ing = r.ing := rfl
@[simp] theorem Run.modDr_cfl (r : Run) (f : Recorder → Recorder) : (r.modDr f).cfl = r.cfl := rfl
@[simp] theorem Run.modDr_slc (r : Run) (f : Recorder → Recorder) : (r.modDr f).slc = r.slc := rfl
@[simp] theorem Run.modDr_cle (r : Run) (f : Recorder → Recorder) : (r.modDr f).cle = r.cle := rfl
@[simp] theorem Run.modDr_mlr (r : Run) (f : Recorder → Recorder) : (r.modDr f).mlr = r.mlr := rfl
@[simp] theorem Run.modDr_trip (r : Run) (f : Recorder → Recorder) : (r.modDr f).trip = r.trip := rfl
@[simp] theorem Run.modDr_cel (r : Run) (f : Recorder → Recorder) : (r.modDr f).cel = r.cel := rfl
@[simp] theorem Run.modDr_lgr (r : Run) (f : Recorder → Recorder) : (r.modDr f).lgr = r.lgr := rfl
@[simp] theorem Run.modDr_srm (r : Run) (f : Recorder → Recorder) : (r.modDr f).srm = r.srm := rfl
@[simp] theorem Run.modDr_fb (r : Run) (f : Recorder → Recorder) : (r.modDr f).fb = r.fb := rfl
@[simp] theorem Run.modDr_flt (r : Run) (f : Recorder → Recorder) : (r.modDr f).flt = r.flt := rfl

/-! ### modCel -/

@[simp] theorem Run.modCel_free (r : Run) (f : Cellar → Cellar) : (r.modCel f).free = r.free := rfl
@[simp] theorem Run.modCel_out (r : Run) (f : Cellar → Cellar) : (r.modCel f).out = r.out := rfl
@[simp] theorem Run.modCel_ticks (r : Run) (f : Cellar → Cellar) : (r.modCel f).ticks = r.ticks := rfl
@[simp] theorem Run.modCel_epoch (r : Run) (f : Cellar → Cellar) : (r.modCel f).epoch = r.epoch := rfl
@[simp] theorem Run.modCel_ready (r : Run) (f : Cellar → Cellar) : (r.modCel f).ready = r.ready := rfl
@[simp] theorem Run.modCel_protection (r : Run) (f : Cellar → Cellar) : (r.modCel f).protection = r.protection := rfl
@[simp] theorem Run.modCel_fns (r : Run) (f : Cellar → Cellar) : (r.modCel f).fns = r.fns := rfl
@[simp] theorem Run.modCel_cause (r : Run) (f : Cellar → Cellar) : (r.modCel f).cause = r.cause := rfl
@[simp] theorem Run.modCel_unmasked (r : Run) (f : Cellar → Cellar) : (r.modCel f).unmasked = r.unmasked := rfl
@[simp] theorem Run.modCel_vfEnable (r : Run) (f : Cellar → Cellar) : (r.modCel f).vfEnable = r.vfEnable := rfl
@[simp] theorem Run.modCel_numVfs (r : Run) (f : Cellar → Cellar) : (r.modCel f).numVfs = r.numVfs := rfl
@[simp] theorem Run.modCel_lastFetched (r : Run) (f : Cellar → Cellar) : (r.modCel f).lastFetched = r.lastFetched := rfl
@[simp] theorem Run.modCel_acceptances (r : Run) (f : Cellar → Cellar) : (r.modCel f).acceptances = r.acceptances := rfl
@[simp] theorem Run.modCel_store (r : Run) (f : Cellar → Cellar) : (r.modCel f).store = r.store := rfl
@[simp] theorem Run.modCel_w1cSet (r : Run) (f : Cellar → Cellar) : (r.modCel f).w1cSet = r.w1cSet := rfl
@[simp] theorem Run.modCel_w1cTick (r : Run) (f : Cellar → Cellar) : (r.modCel f).w1cTick = r.w1cTick := rfl
@[simp] theorem Run.modCel_insts (r : Run) (f : Cellar → Cellar) : (r.modCel f).insts = r.insts := rfl
@[simp] theorem Run.modCel_tsu (r : Run) (f : Cellar → Cellar) : (r.modCel f).tsu = r.tsu := rfl
@[simp] theorem Run.modCel_ports (r : Run) (f : Cellar → Cellar) : (r.modCel f).ports = r.ports := rfl
@[simp] theorem Run.modCel_sw (r : Run) (f : Cellar → Cellar) : (r.modCel f).sw = r.sw := rfl
@[simp] theorem Run.modCel_ing (r : Run) (f : Cellar → Cellar) : (r.modCel f).ing = r.ing := rfl
@[simp] theorem Run.modCel_cfl (r : Run) (f : Cellar → Cellar) : (r.modCel f).cfl = r.cfl := rfl
@[simp] theorem Run.modCel_slc (r : Run) (f : Cellar → Cellar) : (r.modCel f).slc = r.slc := rfl
@[simp] theorem Run.modCel_cle (r : Run) (f : Cellar → Cellar) : (r.modCel f).cle = r.cle := rfl
@[simp] theorem Run.modCel_mlr (r : Run) (f : Cellar → Cellar) : (r.modCel f).mlr = r.mlr := rfl
@[simp] theorem Run.modCel_trip (r : Run) (f : Cellar → Cellar) : (r.modCel f).trip = r.trip := rfl
@[simp] theorem Run.modCel_dr (r : Run) (f : Cellar → Cellar) : (r.modCel f).dr = r.dr := rfl
@[simp] theorem Run.modCel_lgr (r : Run) (f : Cellar → Cellar) : (r.modCel f).lgr = r.lgr := rfl
@[simp] theorem Run.modCel_srm (r : Run) (f : Cellar → Cellar) : (r.modCel f).srm = r.srm := rfl
@[simp] theorem Run.modCel_fb (r : Run) (f : Cellar → Cellar) : (r.modCel f).fb = r.fb := rfl
@[simp] theorem Run.modCel_flt (r : Run) (f : Cellar → Cellar) : (r.modCel f).flt = r.flt := rfl

/-! ### modLgr -/

@[simp] theorem Run.modLgr_free (r : Run) (f : Ledger → Ledger) : (r.modLgr f).free = r.free := rfl
@[simp] theorem Run.modLgr_out (r : Run) (f : Ledger → Ledger) : (r.modLgr f).out = r.out := rfl
@[simp] theorem Run.modLgr_ticks (r : Run) (f : Ledger → Ledger) : (r.modLgr f).ticks = r.ticks := rfl
@[simp] theorem Run.modLgr_epoch (r : Run) (f : Ledger → Ledger) : (r.modLgr f).epoch = r.epoch := rfl
@[simp] theorem Run.modLgr_ready (r : Run) (f : Ledger → Ledger) : (r.modLgr f).ready = r.ready := rfl
@[simp] theorem Run.modLgr_protection (r : Run) (f : Ledger → Ledger) : (r.modLgr f).protection = r.protection := rfl
@[simp] theorem Run.modLgr_fns (r : Run) (f : Ledger → Ledger) : (r.modLgr f).fns = r.fns := rfl
@[simp] theorem Run.modLgr_cause (r : Run) (f : Ledger → Ledger) : (r.modLgr f).cause = r.cause := rfl
@[simp] theorem Run.modLgr_unmasked (r : Run) (f : Ledger → Ledger) : (r.modLgr f).unmasked = r.unmasked := rfl
@[simp] theorem Run.modLgr_vfEnable (r : Run) (f : Ledger → Ledger) : (r.modLgr f).vfEnable = r.vfEnable := rfl
@[simp] theorem Run.modLgr_numVfs (r : Run) (f : Ledger → Ledger) : (r.modLgr f).numVfs = r.numVfs := rfl
@[simp] theorem Run.modLgr_lastFetched (r : Run) (f : Ledger → Ledger) : (r.modLgr f).lastFetched = r.lastFetched := rfl
@[simp] theorem Run.modLgr_acceptances (r : Run) (f : Ledger → Ledger) : (r.modLgr f).acceptances = r.acceptances := rfl
@[simp] theorem Run.modLgr_store (r : Run) (f : Ledger → Ledger) : (r.modLgr f).store = r.store := rfl
@[simp] theorem Run.modLgr_w1cSet (r : Run) (f : Ledger → Ledger) : (r.modLgr f).w1cSet = r.w1cSet := rfl
@[simp] theorem Run.modLgr_w1cTick (r : Run) (f : Ledger → Ledger) : (r.modLgr f).w1cTick = r.w1cTick := rfl
@[simp] theorem Run.modLgr_insts (r : Run) (f : Ledger → Ledger) : (r.modLgr f).insts = r.insts := rfl
@[simp] theorem Run.modLgr_tsu (r : Run) (f : Ledger → Ledger) : (r.modLgr f).tsu = r.tsu := rfl
@[simp] theorem Run.modLgr_ports (r : Run) (f : Ledger → Ledger) : (r.modLgr f).ports = r.ports := rfl
@[simp] theorem Run.modLgr_sw (r : Run) (f : Ledger → Ledger) : (r.modLgr f).sw = r.sw := rfl
@[simp] theorem Run.modLgr_ing (r : Run) (f : Ledger → Ledger) : (r.modLgr f).ing = r.ing := rfl
@[simp] theorem Run.modLgr_cfl (r : Run) (f : Ledger → Ledger) : (r.modLgr f).cfl = r.cfl := rfl
@[simp] theorem Run.modLgr_slc (r : Run) (f : Ledger → Ledger) : (r.modLgr f).slc = r.slc := rfl
@[simp] theorem Run.modLgr_cle (r : Run) (f : Ledger → Ledger) : (r.modLgr f).cle = r.cle := rfl
@[simp] theorem Run.modLgr_mlr (r : Run) (f : Ledger → Ledger) : (r.modLgr f).mlr = r.mlr := rfl
@[simp] theorem Run.modLgr_trip (r : Run) (f : Ledger → Ledger) : (r.modLgr f).trip = r.trip := rfl
@[simp] theorem Run.modLgr_dr (r : Run) (f : Ledger → Ledger) : (r.modLgr f).dr = r.dr := rfl
@[simp] theorem Run.modLgr_cel (r : Run) (f : Ledger → Ledger) : (r.modLgr f).cel = r.cel := rfl
@[simp] theorem Run.modLgr_srm (r : Run) (f : Ledger → Ledger) : (r.modLgr f).srm = r.srm := rfl
@[simp] theorem Run.modLgr_fb (r : Run) (f : Ledger → Ledger) : (r.modLgr f).fb = r.fb := rfl
@[simp] theorem Run.modLgr_flt (r : Run) (f : Ledger → Ledger) : (r.modLgr f).flt = r.flt := rfl

/-! ### modSrm -/

@[simp] theorem Run.modSrm_free (r : Run) (f : Strong → Strong) : (r.modSrm f).free = r.free := rfl
@[simp] theorem Run.modSrm_out (r : Run) (f : Strong → Strong) : (r.modSrm f).out = r.out := rfl
@[simp] theorem Run.modSrm_ticks (r : Run) (f : Strong → Strong) : (r.modSrm f).ticks = r.ticks := rfl
@[simp] theorem Run.modSrm_epoch (r : Run) (f : Strong → Strong) : (r.modSrm f).epoch = r.epoch := rfl
@[simp] theorem Run.modSrm_ready (r : Run) (f : Strong → Strong) : (r.modSrm f).ready = r.ready := rfl
@[simp] theorem Run.modSrm_protection (r : Run) (f : Strong → Strong) : (r.modSrm f).protection = r.protection := rfl
@[simp] theorem Run.modSrm_fns (r : Run) (f : Strong → Strong) : (r.modSrm f).fns = r.fns := rfl
@[simp] theorem Run.modSrm_cause (r : Run) (f : Strong → Strong) : (r.modSrm f).cause = r.cause := rfl
@[simp] theorem Run.modSrm_unmasked (r : Run) (f : Strong → Strong) : (r.modSrm f).unmasked = r.unmasked := rfl
@[simp] theorem Run.modSrm_vfEnable (r : Run) (f : Strong → Strong) : (r.modSrm f).vfEnable = r.vfEnable := rfl
@[simp] theorem Run.modSrm_numVfs (r : Run) (f : Strong → Strong) : (r.modSrm f).numVfs = r.numVfs := rfl
@[simp] theorem Run.modSrm_lastFetched (r : Run) (f : Strong → Strong) : (r.modSrm f).lastFetched = r.lastFetched := rfl
@[simp] theorem Run.modSrm_acceptances (r : Run) (f : Strong → Strong) : (r.modSrm f).acceptances = r.acceptances := rfl
@[simp] theorem Run.modSrm_store (r : Run) (f : Strong → Strong) : (r.modSrm f).store = r.store := rfl
@[simp] theorem Run.modSrm_w1cSet (r : Run) (f : Strong → Strong) : (r.modSrm f).w1cSet = r.w1cSet := rfl
@[simp] theorem Run.modSrm_w1cTick (r : Run) (f : Strong → Strong) : (r.modSrm f).w1cTick = r.w1cTick := rfl
@[simp] theorem Run.modSrm_insts (r : Run) (f : Strong → Strong) : (r.modSrm f).insts = r.insts := rfl
@[simp] theorem Run.modSrm_tsu (r : Run) (f : Strong → Strong) : (r.modSrm f).tsu = r.tsu := rfl
@[simp] theorem Run.modSrm_ports (r : Run) (f : Strong → Strong) : (r.modSrm f).ports = r.ports := rfl
@[simp] theorem Run.modSrm_sw (r : Run) (f : Strong → Strong) : (r.modSrm f).sw = r.sw := rfl
@[simp] theorem Run.modSrm_ing (r : Run) (f : Strong → Strong) : (r.modSrm f).ing = r.ing := rfl
@[simp] theorem Run.modSrm_cfl (r : Run) (f : Strong → Strong) : (r.modSrm f).cfl = r.cfl := rfl
@[simp] theorem Run.modSrm_slc (r : Run) (f : Strong → Strong) : (r.modSrm f).slc = r.slc := rfl
@[simp] theorem Run.modSrm_cle (r : Run) (f : Strong → Strong) : (r.modSrm f).cle = r.cle := rfl
@[simp] theorem Run.modSrm_mlr (r : Run) (f : Strong → Strong) : (r.modSrm f).mlr = r.mlr := rfl
@[simp] theorem Run.modSrm_trip (r : Run) (f : Strong → Strong) : (r.modSrm f).trip = r.trip := rfl
@[simp] theorem Run.modSrm_dr (r : Run) (f : Strong → Strong) : (r.modSrm f).dr = r.dr := rfl
@[simp] theorem Run.modSrm_cel (r : Run) (f : Strong → Strong) : (r.modSrm f).cel = r.cel := rfl
@[simp] theorem Run.modSrm_lgr (r : Run) (f : Strong → Strong) : (r.modSrm f).lgr = r.lgr := rfl
@[simp] theorem Run.modSrm_fb (r : Run) (f : Strong → Strong) : (r.modSrm f).fb = r.fb := rfl
@[simp] theorem Run.modSrm_flt (r : Run) (f : Strong → Strong) : (r.modSrm f).flt = r.flt := rfl

/-! ### modFlt -/

@[simp] theorem Run.modFlt_free (r : Run) (f : Faults → Faults) : (r.modFlt f).free = r.free := rfl
@[simp] theorem Run.modFlt_out (r : Run) (f : Faults → Faults) : (r.modFlt f).out = r.out := rfl
@[simp] theorem Run.modFlt_ticks (r : Run) (f : Faults → Faults) : (r.modFlt f).ticks = r.ticks := rfl
@[simp] theorem Run.modFlt_epoch (r : Run) (f : Faults → Faults) : (r.modFlt f).epoch = r.epoch := rfl
@[simp] theorem Run.modFlt_ready (r : Run) (f : Faults → Faults) : (r.modFlt f).ready = r.ready := rfl
@[simp] theorem Run.modFlt_protection (r : Run) (f : Faults → Faults) : (r.modFlt f).protection = r.protection := rfl
@[simp] theorem Run.modFlt_fns (r : Run) (f : Faults → Faults) : (r.modFlt f).fns = r.fns := rfl
@[simp] theorem Run.modFlt_cause (r : Run) (f : Faults → Faults) : (r.modFlt f).cause = r.cause := rfl
@[simp] theorem Run.modFlt_unmasked (r : Run) (f : Faults → Faults) : (r.modFlt f).unmasked = r.unmasked := rfl
@[simp] theorem Run.modFlt_vfEnable (r : Run) (f : Faults → Faults) : (r.modFlt f).vfEnable = r.vfEnable := rfl
@[simp] theorem Run.modFlt_numVfs (r : Run) (f : Faults → Faults) : (r.modFlt f).numVfs = r.numVfs := rfl
@[simp] theorem Run.modFlt_lastFetched (r : Run) (f : Faults → Faults) : (r.modFlt f).lastFetched = r.lastFetched := rfl
@[simp] theorem Run.modFlt_acceptances (r : Run) (f : Faults → Faults) : (r.modFlt f).acceptances = r.acceptances := rfl
@[simp] theorem Run.modFlt_store (r : Run) (f : Faults → Faults) : (r.modFlt f).store = r.store := rfl
@[simp] theorem Run.modFlt_w1cSet (r : Run) (f : Faults → Faults) : (r.modFlt f).w1cSet = r.w1cSet := rfl
@[simp] theorem Run.modFlt_w1cTick (r : Run) (f : Faults → Faults) : (r.modFlt f).w1cTick = r.w1cTick := rfl
@[simp] theorem Run.modFlt_insts (r : Run) (f : Faults → Faults) : (r.modFlt f).insts = r.insts := rfl
@[simp] theorem Run.modFlt_tsu (r : Run) (f : Faults → Faults) : (r.modFlt f).tsu = r.tsu := rfl
@[simp] theorem Run.modFlt_ports (r : Run) (f : Faults → Faults) : (r.modFlt f).ports = r.ports := rfl
@[simp] theorem Run.modFlt_sw (r : Run) (f : Faults → Faults) : (r.modFlt f).sw = r.sw := rfl
@[simp] theorem Run.modFlt_ing (r : Run) (f : Faults → Faults) : (r.modFlt f).ing = r.ing := rfl
@[simp] theorem Run.modFlt_cfl (r : Run) (f : Faults → Faults) : (r.modFlt f).cfl = r.cfl := rfl
@[simp] theorem Run.modFlt_slc (r : Run) (f : Faults → Faults) : (r.modFlt f).slc = r.slc := rfl
@[simp] theorem Run.modFlt_cle (r : Run) (f : Faults → Faults) : (r.modFlt f).cle = r.cle := rfl
@[simp] theorem Run.modFlt_mlr (r : Run) (f : Faults → Faults) : (r.modFlt f).mlr = r.mlr := rfl
@[simp] theorem Run.modFlt_trip (r : Run) (f : Faults → Faults) : (r.modFlt f).trip = r.trip := rfl
@[simp] theorem Run.modFlt_dr (r : Run) (f : Faults → Faults) : (r.modFlt f).dr = r.dr := rfl
@[simp] theorem Run.modFlt_cel (r : Run) (f : Faults → Faults) : (r.modFlt f).cel = r.cel := rfl
@[simp] theorem Run.modFlt_lgr (r : Run) (f : Faults → Faults) : (r.modFlt f).lgr = r.lgr := rfl
@[simp] theorem Run.modFlt_srm (r : Run) (f : Faults → Faults) : (r.modFlt f).srm = r.srm := rfl
@[simp] theorem Run.modFlt_fb (r : Run) (f : Faults → Faults) : (r.modFlt f).fb = r.fb := rfl

/-! ### modCan -/

@[simp] theorem Run.modCan_free (r : Run) (n : Nat) (f : CanChan → CanChan) : (r.modCan n f).free = r.free := rfl
@[simp] theorem Run.modCan_out (r : Run) (n : Nat) (f : CanChan → CanChan) : (r.modCan n f).out = r.out := rfl
@[simp] theorem Run.modCan_ticks (r : Run) (n : Nat) (f : CanChan → CanChan) : (r.modCan n f).ticks = r.ticks := rfl
@[simp] theorem Run.modCan_epoch (r : Run) (n : Nat) (f : CanChan → CanChan) : (r.modCan n f).epoch = r.epoch := rfl
@[simp] theorem Run.modCan_ready (r : Run) (n : Nat) (f : CanChan → CanChan) : (r.modCan n f).ready = r.ready := rfl
@[simp] theorem Run.modCan_protection (r : Run) (n : Nat) (f : CanChan → CanChan) : (r.modCan n f).protection = r.protection := rfl
@[simp] theorem Run.modCan_fns (r : Run) (n : Nat) (f : CanChan → CanChan) : (r.modCan n f).fns = r.fns := rfl
@[simp] theorem Run.modCan_cause (r : Run) (n : Nat) (f : CanChan → CanChan) : (r.modCan n f).cause = r.cause := rfl
@[simp] theorem Run.modCan_unmasked (r : Run) (n : Nat) (f : CanChan → CanChan) : (r.modCan n f).unmasked = r.unmasked := rfl
@[simp] theorem Run.modCan_vfEnable (r : Run) (n : Nat) (f : CanChan → CanChan) : (r.modCan n f).vfEnable = r.vfEnable := rfl
@[simp] theorem Run.modCan_numVfs (r : Run) (n : Nat) (f : CanChan → CanChan) : (r.modCan n f).numVfs = r.numVfs := rfl
@[simp] theorem Run.modCan_lastFetched (r : Run) (n : Nat) (f : CanChan → CanChan) : (r.modCan n f).lastFetched = r.lastFetched := rfl
@[simp] theorem Run.modCan_acceptances (r : Run) (n : Nat) (f : CanChan → CanChan) : (r.modCan n f).acceptances = r.acceptances := rfl
@[simp] theorem Run.modCan_store (r : Run) (n : Nat) (f : CanChan → CanChan) : (r.modCan n f).store = r.store := rfl
@[simp] theorem Run.modCan_w1cSet (r : Run) (n : Nat) (f : CanChan → CanChan) : (r.modCan n f).w1cSet = r.w1cSet := rfl
@[simp] theorem Run.modCan_w1cTick (r : Run) (n : Nat) (f : CanChan → CanChan) : (r.modCan n f).w1cTick = r.w1cTick := rfl
@[simp] theorem Run.modCan_insts (r : Run) (n : Nat) (f : CanChan → CanChan) : (r.modCan n f).insts = r.insts := rfl
@[simp] theorem Run.modCan_tsu (r : Run) (n : Nat) (f : CanChan → CanChan) : (r.modCan n f).tsu = r.tsu := rfl
@[simp] theorem Run.modCan_ports (r : Run) (n : Nat) (f : CanChan → CanChan) : (r.modCan n f).ports = r.ports := rfl
@[simp] theorem Run.modCan_sw (r : Run) (n : Nat) (f : CanChan → CanChan) : (r.modCan n f).sw = r.sw := rfl
@[simp] theorem Run.modCan_ing (r : Run) (n : Nat) (f : CanChan → CanChan) : (r.modCan n f).ing = r.ing := rfl
@[simp] theorem Run.modCan_cfl (r : Run) (n : Nat) (f : CanChan → CanChan) : (r.modCan n f).cfl = r.cfl := rfl
@[simp] theorem Run.modCan_slc (r : Run) (n : Nat) (f : CanChan → CanChan) : (r.modCan n f).slc = r.slc := rfl
@[simp] theorem Run.modCan_cle (r : Run) (n : Nat) (f : CanChan → CanChan) : (r.modCan n f).cle = r.cle := rfl
@[simp] theorem Run.modCan_mlr (r : Run) (n : Nat) (f : CanChan → CanChan) : (r.modCan n f).mlr = r.mlr := rfl
@[simp] theorem Run.modCan_trip (r : Run) (n : Nat) (f : CanChan → CanChan) : (r.modCan n f).trip = r.trip := rfl
@[simp] theorem Run.modCan_dr (r : Run) (n : Nat) (f : CanChan → CanChan) : (r.modCan n f).dr = r.dr := rfl
@[simp] theorem Run.modCan_cel (r : Run) (n : Nat) (f : CanChan → CanChan) : (r.modCan n f).cel = r.cel := rfl
@[simp] theorem Run.modCan_lgr (r : Run) (n : Nat) (f : CanChan → CanChan) : (r.modCan n f).lgr = r.lgr := rfl
@[simp] theorem Run.modCan_srm (r : Run) (n : Nat) (f : CanChan → CanChan) : (r.modCan n f).srm = r.srm := rfl
@[simp] theorem Run.modCan_flt (r : Run) (n : Nat) (f : CanChan → CanChan) : (r.modCan n f).flt = r.flt := rfl

/-! ### modSo -/

@[simp] theorem Run.modSo_free (r : Run) (n : Nat) (f : So → So) : (r.modSo n f).free = r.free := rfl
@[simp] theorem Run.modSo_out (r : Run) (n : Nat) (f : So → So) : (r.modSo n f).out = r.out := rfl
@[simp] theorem Run.modSo_ticks (r : Run) (n : Nat) (f : So → So) : (r.modSo n f).ticks = r.ticks := rfl
@[simp] theorem Run.modSo_epoch (r : Run) (n : Nat) (f : So → So) : (r.modSo n f).epoch = r.epoch := rfl
@[simp] theorem Run.modSo_ready (r : Run) (n : Nat) (f : So → So) : (r.modSo n f).ready = r.ready := rfl
@[simp] theorem Run.modSo_protection (r : Run) (n : Nat) (f : So → So) : (r.modSo n f).protection = r.protection := rfl
@[simp] theorem Run.modSo_fns (r : Run) (n : Nat) (f : So → So) : (r.modSo n f).fns = r.fns := rfl
@[simp] theorem Run.modSo_cause (r : Run) (n : Nat) (f : So → So) : (r.modSo n f).cause = r.cause := rfl
@[simp] theorem Run.modSo_unmasked (r : Run) (n : Nat) (f : So → So) : (r.modSo n f).unmasked = r.unmasked := rfl
@[simp] theorem Run.modSo_vfEnable (r : Run) (n : Nat) (f : So → So) : (r.modSo n f).vfEnable = r.vfEnable := rfl
@[simp] theorem Run.modSo_numVfs (r : Run) (n : Nat) (f : So → So) : (r.modSo n f).numVfs = r.numVfs := rfl
@[simp] theorem Run.modSo_lastFetched (r : Run) (n : Nat) (f : So → So) : (r.modSo n f).lastFetched = r.lastFetched := rfl
@[simp] theorem Run.modSo_acceptances (r : Run) (n : Nat) (f : So → So) : (r.modSo n f).acceptances = r.acceptances := rfl
@[simp] theorem Run.modSo_store (r : Run) (n : Nat) (f : So → So) : (r.modSo n f).store = r.store := rfl
@[simp] theorem Run.modSo_w1cSet (r : Run) (n : Nat) (f : So → So) : (r.modSo n f).w1cSet = r.w1cSet := rfl
@[simp] theorem Run.modSo_w1cTick (r : Run) (n : Nat) (f : So → So) : (r.modSo n f).w1cTick = r.w1cTick := rfl
@[simp] theorem Run.modSo_insts (r : Run) (n : Nat) (f : So → So) : (r.modSo n f).insts = r.insts := rfl
@[simp] theorem Run.modSo_tsu (r : Run) (n : Nat) (f : So → So) : (r.modSo n f).tsu = r.tsu := rfl
@[simp] theorem Run.modSo_ports (r : Run) (n : Nat) (f : So → So) : (r.modSo n f).ports = r.ports := rfl
@[simp] theorem Run.modSo_sw (r : Run) (n : Nat) (f : So → So) : (r.modSo n f).sw = r.sw := rfl
@[simp] theorem Run.modSo_ing (r : Run) (n : Nat) (f : So → So) : (r.modSo n f).ing = r.ing := rfl
@[simp] theorem Run.modSo_cfl (r : Run) (n : Nat) (f : So → So) : (r.modSo n f).cfl = r.cfl := rfl
@[simp] theorem Run.modSo_slc (r : Run) (n : Nat) (f : So → So) : (r.modSo n f).slc = r.slc := rfl
@[simp] theorem Run.modSo_cle (r : Run) (n : Nat) (f : So → So) : (r.modSo n f).cle = r.cle := rfl
@[simp] theorem Run.modSo_mlr (r : Run) (n : Nat) (f : So → So) : (r.modSo n f).mlr = r.mlr := rfl
@[simp] theorem Run.modSo_dr (r : Run) (n : Nat) (f : So → So) : (r.modSo n f).dr = r.dr := rfl
@[simp] theorem Run.modSo_cel (r : Run) (n : Nat) (f : So → So) : (r.modSo n f).cel = r.cel := rfl
@[simp] theorem Run.modSo_lgr (r : Run) (n : Nat) (f : So → So) : (r.modSo n f).lgr = r.lgr := rfl
@[simp] theorem Run.modSo_srm (r : Run) (n : Nat) (f : So → So) : (r.modSo n f).srm = r.srm := rfl
@[simp] theorem Run.modSo_fb (r : Run) (n : Nat) (f : So → So) : (r.modSo n f).fb = r.fb := rfl
@[simp] theorem Run.modSo_flt (r : Run) (n : Nat) (f : So → So) : (r.modSo n f).flt = r.flt := rfl

/-! ### modLatch -/

@[simp] theorem Run.modLatch_free (r : Run) (l : Nat) (f : Latch → Latch) : (r.modLatch l f).free = r.free := rfl
@[simp] theorem Run.modLatch_out (r : Run) (l : Nat) (f : Latch → Latch) : (r.modLatch l f).out = r.out := rfl
@[simp] theorem Run.modLatch_ticks (r : Run) (l : Nat) (f : Latch → Latch) : (r.modLatch l f).ticks = r.ticks := rfl
@[simp] theorem Run.modLatch_epoch (r : Run) (l : Nat) (f : Latch → Latch) : (r.modLatch l f).epoch = r.epoch := rfl
@[simp] theorem Run.modLatch_ready (r : Run) (l : Nat) (f : Latch → Latch) : (r.modLatch l f).ready = r.ready := rfl
@[simp] theorem Run.modLatch_protection (r : Run) (l : Nat) (f : Latch → Latch) : (r.modLatch l f).protection = r.protection := rfl
@[simp] theorem Run.modLatch_fns (r : Run) (l : Nat) (f : Latch → Latch) : (r.modLatch l f).fns = r.fns := rfl
@[simp] theorem Run.modLatch_cause (r : Run) (l : Nat) (f : Latch → Latch) : (r.modLatch l f).cause = r.cause := rfl
@[simp] theorem Run.modLatch_unmasked (r : Run) (l : Nat) (f : Latch → Latch) : (r.modLatch l f).unmasked = r.unmasked := rfl
@[simp] theorem Run.modLatch_vfEnable (r : Run) (l : Nat) (f : Latch → Latch) : (r.modLatch l f).vfEnable = r.vfEnable := rfl
@[simp] theorem Run.modLatch_numVfs (r : Run) (l : Nat) (f : Latch → Latch) : (r.modLatch l f).numVfs = r.numVfs := rfl
@[simp] theorem Run.modLatch_lastFetched (r : Run) (l : Nat) (f : Latch → Latch) : (r.modLatch l f).lastFetched = r.lastFetched := rfl
@[simp] theorem Run.modLatch_acceptances (r : Run) (l : Nat) (f : Latch → Latch) : (r.modLatch l f).acceptances = r.acceptances := rfl
@[simp] theorem Run.modLatch_store (r : Run) (l : Nat) (f : Latch → Latch) : (r.modLatch l f).store = r.store := rfl
@[simp] theorem Run.modLatch_w1cSet (r : Run) (l : Nat) (f : Latch → Latch) : (r.modLatch l f).w1cSet = r.w1cSet := rfl
@[simp] theorem Run.modLatch_w1cTick (r : Run) (l : Nat) (f : Latch → Latch) : (r.modLatch l f).w1cTick = r.w1cTick := rfl
@[simp] theorem Run.modLatch_insts (r : Run) (l : Nat) (f : Latch → Latch) : (r.modLatch l f).insts = r.insts := rfl
@[simp] theorem Run.modLatch_tsu (r : Run) (l : Nat) (f : Latch → Latch) : (r.modLatch l f).tsu = r.tsu := rfl
@[simp] theorem Run.modLatch_ports (r : Run) (l : Nat) (f : Latch → Latch) : (r.modLatch l f).ports = r.ports := rfl
@[simp] theorem Run.modLatch_sw (r : Run) (l : Nat) (f : Latch → Latch) : (r.modLatch l f).sw = r.sw := rfl
@[simp] theorem Run.modLatch_ing (r : Run) (l : Nat) (f : Latch → Latch) : (r.modLatch l f).ing = r.ing := rfl
@[simp] theorem Run.modLatch_cfl (r : Run) (l : Nat) (f : Latch → Latch) : (r.modLatch l f).cfl = r.cfl := rfl
@[simp] theorem Run.modLatch_slc (r : Run) (l : Nat) (f : Latch → Latch) : (r.modLatch l f).slc = r.slc := rfl
@[simp] theorem Run.modLatch_cle (r : Run) (l : Nat) (f : Latch → Latch) : (r.modLatch l f).cle = r.cle := rfl
@[simp] theorem Run.modLatch_mlr (r : Run) (l : Nat) (f : Latch → Latch) : (r.modLatch l f).mlr = r.mlr := rfl
@[simp] theorem Run.modLatch_dr (r : Run) (l : Nat) (f : Latch → Latch) : (r.modLatch l f).dr = r.dr := rfl
@[simp] theorem Run.modLatch_cel (r : Run) (l : Nat) (f : Latch → Latch) : (r.modLatch l f).cel = r.cel := rfl
@[simp] theorem Run.modLatch_lgr (r : Run) (l : Nat) (f : Latch → Latch) : (r.modLatch l f).lgr = r.lgr := rfl
@[simp] theorem Run.modLatch_srm (r : Run) (l : Nat) (f : Latch → Latch) : (r.modLatch l f).srm = r.srm := rfl
@[simp] theorem Run.modLatch_fb (r : Run) (l : Nat) (f : Latch → Latch) : (r.modLatch l f).fb = r.fb := rfl
@[simp] theorem Run.modLatch_flt (r : Run) (l : Nat) (f : Latch → Latch) : (r.modLatch l f).flt = r.flt := rfl

/-! ### modTrib -/

@[simp] theorem Run.modTrib_free (r : Run) (f : Trib → Trib) : (r.modTrib f).free = r.free := rfl
@[simp] theorem Run.modTrib_out (r : Run) (f : Trib → Trib) : (r.modTrib f).out = r.out := rfl
@[simp] theorem Run.modTrib_ticks (r : Run) (f : Trib → Trib) : (r.modTrib f).ticks = r.ticks := rfl
@[simp] theorem Run.modTrib_epoch (r : Run) (f : Trib → Trib) : (r.modTrib f).epoch = r.epoch := rfl
@[simp] theorem Run.modTrib_ready (r : Run) (f : Trib → Trib) : (r.modTrib f).ready = r.ready := rfl
@[simp] theorem Run.modTrib_protection (r : Run) (f : Trib → Trib) : (r.modTrib f).protection = r.protection := rfl
@[simp] theorem Run.modTrib_fns (r : Run) (f : Trib → Trib) : (r.modTrib f).fns = r.fns := rfl
@[simp] theorem Run.modTrib_cause (r : Run) (f : Trib → Trib) : (r.modTrib f).cause = r.cause := rfl
@[simp] theorem Run.modTrib_unmasked (r : Run) (f : Trib → Trib) : (r.modTrib f).unmasked = r.unmasked := rfl
@[simp] theorem Run.modTrib_vfEnable (r : Run) (f : Trib → Trib) : (r.modTrib f).vfEnable = r.vfEnable := rfl
@[simp] theorem Run.modTrib_numVfs (r : Run) (f : Trib → Trib) : (r.modTrib f).numVfs = r.numVfs := rfl
@[simp] theorem Run.modTrib_lastFetched (r : Run) (f : Trib → Trib) : (r.modTrib f).lastFetched = r.lastFetched := rfl
@[simp] theorem Run.modTrib_acceptances (r : Run) (f : Trib → Trib) : (r.modTrib f).acceptances = r.acceptances := rfl
@[simp] theorem Run.modTrib_store (r : Run) (f : Trib → Trib) : (r.modTrib f).store = r.store := rfl
@[simp] theorem Run.modTrib_w1cSet (r : Run) (f : Trib → Trib) : (r.modTrib f).w1cSet = r.w1cSet := rfl
@[simp] theorem Run.modTrib_w1cTick (r : Run) (f : Trib → Trib) : (r.modTrib f).w1cTick = r.w1cTick := rfl
@[simp] theorem Run.modTrib_insts (r : Run) (f : Trib → Trib) : (r.modTrib f).insts = r.insts := rfl
@[simp] theorem Run.modTrib_tsu (r : Run) (f : Trib → Trib) : (r.modTrib f).tsu = r.tsu := rfl
@[simp] theorem Run.modTrib_ports (r : Run) (f : Trib → Trib) : (r.modTrib f).ports = r.ports := rfl
@[simp] theorem Run.modTrib_sw (r : Run) (f : Trib → Trib) : (r.modTrib f).sw = r.sw := rfl
@[simp] theorem Run.modTrib_ing (r : Run) (f : Trib → Trib) : (r.modTrib f).ing = r.ing := rfl
@[simp] theorem Run.modTrib_cfl (r : Run) (f : Trib → Trib) : (r.modTrib f).cfl = r.cfl := rfl
@[simp] theorem Run.modTrib_slc (r : Run) (f : Trib → Trib) : (r.modTrib f).slc = r.slc := rfl
@[simp] theorem Run.modTrib_cle (r : Run) (f : Trib → Trib) : (r.modTrib f).cle = r.cle := rfl
@[simp] theorem Run.modTrib_mlr (r : Run) (f : Trib → Trib) : (r.modTrib f).mlr = r.mlr := rfl
@[simp] theorem Run.modTrib_dr (r : Run) (f : Trib → Trib) : (r.modTrib f).dr = r.dr := rfl
@[simp] theorem Run.modTrib_cel (r : Run) (f : Trib → Trib) : (r.modTrib f).cel = r.cel := rfl
@[simp] theorem Run.modTrib_lgr (r : Run) (f : Trib → Trib) : (r.modTrib f).lgr = r.lgr := rfl
@[simp] theorem Run.modTrib_srm (r : Run) (f : Trib → Trib) : (r.modTrib f).srm = r.srm := rfl
@[simp] theorem Run.modTrib_fb (r : Run) (f : Trib → Trib) : (r.modTrib f).fb = r.fb := rfl
@[simp] theorem Run.modTrib_flt (r : Run) (f : Trib → Trib) : (r.modTrib f).flt = r.flt := rfl

/-! ### modTsuRegs -/

@[simp] theorem Run.modTsuRegs_free (r : Run) (f : TsuRegs → TsuRegs) : (r.modTsuRegs f).free = r.free := rfl
@[simp] theorem Run.modTsuRegs_out (r : Run) (f : TsuRegs → TsuRegs) : (r.modTsuRegs f).out = r.out := rfl
@[simp] theorem Run.modTsuRegs_ticks (r : Run) (f : TsuRegs → TsuRegs) : (r.modTsuRegs f).ticks = r.ticks := rfl
@[simp] theorem Run.modTsuRegs_epoch (r : Run) (f : TsuRegs → TsuRegs) : (r.modTsuRegs f).epoch = r.epoch := rfl
@[simp] theorem Run.modTsuRegs_ready (r : Run) (f : TsuRegs → TsuRegs) : (r.modTsuRegs f).ready = r.ready := rfl
@[simp] theorem Run.modTsuRegs_protection (r : Run) (f : TsuRegs → TsuRegs) : (r.modTsuRegs f).protection = r.protection := rfl
@[simp] theorem Run.modTsuRegs_fns (r : Run) (f : TsuRegs → TsuRegs) : (r.modTsuRegs f).fns = r.fns := rfl
@[simp] theorem Run.modTsuRegs_cause (r : Run) (f : TsuRegs → TsuRegs) : (r.modTsuRegs f).cause = r.cause := rfl
@[simp] theorem Run.modTsuRegs_unmasked (r : Run) (f : TsuRegs → TsuRegs) : (r.modTsuRegs f).unmasked = r.unmasked := rfl
@[simp] theorem Run.modTsuRegs_vfEnable (r : Run) (f : TsuRegs → TsuRegs) : (r.modTsuRegs f).vfEnable = r.vfEnable := rfl
@[simp] theorem Run.modTsuRegs_numVfs (r : Run) (f : TsuRegs → TsuRegs) : (r.modTsuRegs f).numVfs = r.numVfs := rfl
@[simp] theorem Run.modTsuRegs_lastFetched (r : Run) (f : TsuRegs → TsuRegs) : (r.modTsuRegs f).lastFetched = r.lastFetched := rfl
@[simp] theorem Run.modTsuRegs_acceptances (r : Run) (f : TsuRegs → TsuRegs) : (r.modTsuRegs f).acceptances = r.acceptances := rfl
@[simp] theorem Run.modTsuRegs_store (r : Run) (f : TsuRegs → TsuRegs) : (r.modTsuRegs f).store = r.store := rfl
@[simp] theorem Run.modTsuRegs_w1cSet (r : Run) (f : TsuRegs → TsuRegs) : (r.modTsuRegs f).w1cSet = r.w1cSet := rfl
@[simp] theorem Run.modTsuRegs_w1cTick (r : Run) (f : TsuRegs → TsuRegs) : (r.modTsuRegs f).w1cTick = r.w1cTick := rfl
@[simp] theorem Run.modTsuRegs_insts (r : Run) (f : TsuRegs → TsuRegs) : (r.modTsuRegs f).insts = r.insts := rfl
@[simp] theorem Run.modTsuRegs_ports (r : Run) (f : TsuRegs → TsuRegs) : (r.modTsuRegs f).ports = r.ports := rfl
@[simp] theorem Run.modTsuRegs_sw (r : Run) (f : TsuRegs → TsuRegs) : (r.modTsuRegs f).sw = r.sw := rfl
@[simp] theorem Run.modTsuRegs_ing (r : Run) (f : TsuRegs → TsuRegs) : (r.modTsuRegs f).ing = r.ing := rfl
@[simp] theorem Run.modTsuRegs_cfl (r : Run) (f : TsuRegs → TsuRegs) : (r.modTsuRegs f).cfl = r.cfl := rfl
@[simp] theorem Run.modTsuRegs_slc (r : Run) (f : TsuRegs → TsuRegs) : (r.modTsuRegs f).slc = r.slc := rfl
@[simp] theorem Run.modTsuRegs_cle (r : Run) (f : TsuRegs → TsuRegs) : (r.modTsuRegs f).cle = r.cle := rfl
@[simp] theorem Run.modTsuRegs_mlr (r : Run) (f : TsuRegs → TsuRegs) : (r.modTsuRegs f).mlr = r.mlr := rfl
@[simp] theorem Run.modTsuRegs_trip (r : Run) (f : TsuRegs → TsuRegs) : (r.modTsuRegs f).trip = r.trip := rfl
@[simp] theorem Run.modTsuRegs_dr (r : Run) (f : TsuRegs → TsuRegs) : (r.modTsuRegs f).dr = r.dr := rfl
@[simp] theorem Run.modTsuRegs_cel (r : Run) (f : TsuRegs → TsuRegs) : (r.modTsuRegs f).cel = r.cel := rfl
@[simp] theorem Run.modTsuRegs_lgr (r : Run) (f : TsuRegs → TsuRegs) : (r.modTsuRegs f).lgr = r.lgr := rfl
@[simp] theorem Run.modTsuRegs_srm (r : Run) (f : TsuRegs → TsuRegs) : (r.modTsuRegs f).srm = r.srm := rfl
@[simp] theorem Run.modTsuRegs_fb (r : Run) (f : TsuRegs → TsuRegs) : (r.modTsuRegs f).fb = r.fb := rfl
@[simp] theorem Run.modTsuRegs_flt (r : Run) (f : TsuRegs → TsuRegs) : (r.modTsuRegs f).flt = r.flt := rfl

/-! ### modServo -/

@[simp] theorem Run.modServo_free (r : Run) (f : Servo → Servo) : (r.modServo f).free = r.free := rfl
@[simp] theorem Run.modServo_out (r : Run) (f : Servo → Servo) : (r.modServo f).out = r.out := rfl
@[simp] theorem Run.modServo_ticks (r : Run) (f : Servo → Servo) : (r.modServo f).ticks = r.ticks := rfl
@[simp] theorem Run.modServo_epoch (r : Run) (f : Servo → Servo) : (r.modServo f).epoch = r.epoch := rfl
@[simp] theorem Run.modServo_ready (r : Run) (f : Servo → Servo) : (r.modServo f).ready = r.ready := rfl
@[simp] theorem Run.modServo_protection (r : Run) (f : Servo → Servo) : (r.modServo f).protection = r.protection := rfl
@[simp] theorem Run.modServo_fns (r : Run) (f : Servo → Servo) : (r.modServo f).fns = r.fns := rfl
@[simp] theorem Run.modServo_cause (r : Run) (f : Servo → Servo) : (r.modServo f).cause = r.cause := rfl
@[simp] theorem Run.modServo_unmasked (r : Run) (f : Servo → Servo) : (r.modServo f).unmasked = r.unmasked := rfl
@[simp] theorem Run.modServo_vfEnable (r : Run) (f : Servo → Servo) : (r.modServo f).vfEnable = r.vfEnable := rfl
@[simp] theorem Run.modServo_numVfs (r : Run) (f : Servo → Servo) : (r.modServo f).numVfs = r.numVfs := rfl
@[simp] theorem Run.modServo_lastFetched (r : Run) (f : Servo → Servo) : (r.modServo f).lastFetched = r.lastFetched := rfl
@[simp] theorem Run.modServo_acceptances (r : Run) (f : Servo → Servo) : (r.modServo f).acceptances = r.acceptances := rfl
@[simp] theorem Run.modServo_store (r : Run) (f : Servo → Servo) : (r.modServo f).store = r.store := rfl
@[simp] theorem Run.modServo_w1cSet (r : Run) (f : Servo → Servo) : (r.modServo f).w1cSet = r.w1cSet := rfl
@[simp] theorem Run.modServo_w1cTick (r : Run) (f : Servo → Servo) : (r.modServo f).w1cTick = r.w1cTick := rfl
@[simp] theorem Run.modServo_insts (r : Run) (f : Servo → Servo) : (r.modServo f).insts = r.insts := rfl
@[simp] theorem Run.modServo_ports (r : Run) (f : Servo → Servo) : (r.modServo f).ports = r.ports := rfl
@[simp] theorem Run.modServo_sw (r : Run) (f : Servo → Servo) : (r.modServo f).sw = r.sw := rfl
@[simp] theorem Run.modServo_ing (r : Run) (f : Servo → Servo) : (r.modServo f).ing = r.ing := rfl
@[simp] theorem Run.modServo_cfl (r : Run) (f : Servo → Servo) : (r.modServo f).cfl = r.cfl := rfl
@[simp] theorem Run.modServo_slc (r : Run) (f : Servo → Servo) : (r.modServo f).slc = r.slc := rfl
@[simp] theorem Run.modServo_cle (r : Run) (f : Servo → Servo) : (r.modServo f).cle = r.cle := rfl
@[simp] theorem Run.modServo_mlr (r : Run) (f : Servo → Servo) : (r.modServo f).mlr = r.mlr := rfl
@[simp] theorem Run.modServo_trip (r : Run) (f : Servo → Servo) : (r.modServo f).trip = r.trip := rfl
@[simp] theorem Run.modServo_dr (r : Run) (f : Servo → Servo) : (r.modServo f).dr = r.dr := rfl
@[simp] theorem Run.modServo_cel (r : Run) (f : Servo → Servo) : (r.modServo f).cel = r.cel := rfl
@[simp] theorem Run.modServo_lgr (r : Run) (f : Servo → Servo) : (r.modServo f).lgr = r.lgr := rfl
@[simp] theorem Run.modServo_srm (r : Run) (f : Servo → Servo) : (r.modServo f).srm = r.srm := rfl
@[simp] theorem Run.modServo_fb (r : Run) (f : Servo → Servo) : (r.modServo f).fb = r.fb := rfl
@[simp] theorem Run.modServo_flt (r : Run) (f : Servo → Servo) : (r.modServo f).flt = r.flt := rfl

/-! ### emit -/

@[simp] theorem Run.emit_free (r : Run) (o : Out) : (r.emit o).free = r.free := rfl
@[simp] theorem Run.emit_ticks (r : Run) (o : Out) : (r.emit o).ticks = r.ticks := rfl
@[simp] theorem Run.emit_epoch (r : Run) (o : Out) : (r.emit o).epoch = r.epoch := rfl
@[simp] theorem Run.emit_ready (r : Run) (o : Out) : (r.emit o).ready = r.ready := rfl
@[simp] theorem Run.emit_protection (r : Run) (o : Out) : (r.emit o).protection = r.protection := rfl
@[simp] theorem Run.emit_fns (r : Run) (o : Out) : (r.emit o).fns = r.fns := rfl
@[simp] theorem Run.emit_cause (r : Run) (o : Out) : (r.emit o).cause = r.cause := rfl
@[simp] theorem Run.emit_unmasked (r : Run) (o : Out) : (r.emit o).unmasked = r.unmasked := rfl
@[simp] theorem Run.emit_vfEnable (r : Run) (o : Out) : (r.emit o).vfEnable = r.vfEnable := rfl
@[simp] theorem Run.emit_numVfs (r : Run) (o : Out) : (r.emit o).numVfs = r.numVfs := rfl
@[simp] theorem Run.emit_lastFetched (r : Run) (o : Out) : (r.emit o).lastFetched = r.lastFetched := rfl
@[simp] theorem Run.emit_acceptances (r : Run) (o : Out) : (r.emit o).acceptances = r.acceptances := rfl
@[simp] theorem Run.emit_store (r : Run) (o : Out) : (r.emit o).store = r.store := rfl
@[simp] theorem Run.emit_w1cSet (r : Run) (o : Out) : (r.emit o).w1cSet = r.w1cSet := rfl
@[simp] theorem Run.emit_w1cTick (r : Run) (o : Out) : (r.emit o).w1cTick = r.w1cTick := rfl
@[simp] theorem Run.emit_insts (r : Run) (o : Out) : (r.emit o).insts = r.insts := rfl
@[simp] theorem Run.emit_tsu (r : Run) (o : Out) : (r.emit o).tsu = r.tsu := rfl
@[simp] theorem Run.emit_ports (r : Run) (o : Out) : (r.emit o).ports = r.ports := rfl
@[simp] theorem Run.emit_sw (r : Run) (o : Out) : (r.emit o).sw = r.sw := rfl
@[simp] theorem Run.emit_ing (r : Run) (o : Out) : (r.emit o).ing = r.ing := rfl
@[simp] theorem Run.emit_cfl (r : Run) (o : Out) : (r.emit o).cfl = r.cfl := rfl
@[simp] theorem Run.emit_slc (r : Run) (o : Out) : (r.emit o).slc = r.slc := rfl
@[simp] theorem Run.emit_cle (r : Run) (o : Out) : (r.emit o).cle = r.cle := rfl
@[simp] theorem Run.emit_mlr (r : Run) (o : Out) : (r.emit o).mlr = r.mlr := rfl
@[simp] theorem Run.emit_trip (r : Run) (o : Out) : (r.emit o).trip = r.trip := rfl
@[simp] theorem Run.emit_dr (r : Run) (o : Out) : (r.emit o).dr = r.dr := rfl
@[simp] theorem Run.emit_cel (r : Run) (o : Out) : (r.emit o).cel = r.cel := rfl
@[simp] theorem Run.emit_lgr (r : Run) (o : Out) : (r.emit o).lgr = r.lgr := rfl
@[simp] theorem Run.emit_srm (r : Run) (o : Out) : (r.emit o).srm = r.srm := rfl
@[simp] theorem Run.emit_fb (r : Run) (o : Out) : (r.emit o).fb = r.fb := rfl
@[simp] theorem Run.emit_flt (r : Run) (o : Out) : (r.emit o).flt = r.flt := rfl

/-! ### pass -/

@[simp] theorem Run.pass_free (r : Run) (dt : Nat) : (r.pass dt).free = r.free := rfl
@[simp] theorem Run.pass_out (r : Run) (dt : Nat) : (r.pass dt).out = r.out := rfl
@[simp] theorem Run.pass_epoch (r : Run) (dt : Nat) : (r.pass dt).epoch = r.epoch := rfl
@[simp] theorem Run.pass_ready (r : Run) (dt : Nat) : (r.pass dt).ready = r.ready := rfl
@[simp] theorem Run.pass_protection (r : Run) (dt : Nat) : (r.pass dt).protection = r.protection := rfl
@[simp] theorem Run.pass_fns (r : Run) (dt : Nat) : (r.pass dt).fns = r.fns := rfl
@[simp] theorem Run.pass_cause (r : Run) (dt : Nat) : (r.pass dt).cause = r.cause := rfl
@[simp] theorem Run.pass_unmasked (r : Run) (dt : Nat) : (r.pass dt).unmasked = r.unmasked := rfl
@[simp] theorem Run.pass_vfEnable (r : Run) (dt : Nat) : (r.pass dt).vfEnable = r.vfEnable := rfl
@[simp] theorem Run.pass_numVfs (r : Run) (dt : Nat) : (r.pass dt).numVfs = r.numVfs := rfl
@[simp] theorem Run.pass_lastFetched (r : Run) (dt : Nat) : (r.pass dt).lastFetched = r.lastFetched := rfl
@[simp] theorem Run.pass_acceptances (r : Run) (dt : Nat) : (r.pass dt).acceptances = r.acceptances := rfl
@[simp] theorem Run.pass_store (r : Run) (dt : Nat) : (r.pass dt).store = r.store := rfl
@[simp] theorem Run.pass_w1cSet (r : Run) (dt : Nat) : (r.pass dt).w1cSet = r.w1cSet := rfl
@[simp] theorem Run.pass_w1cTick (r : Run) (dt : Nat) : (r.pass dt).w1cTick = r.w1cTick := rfl
@[simp] theorem Run.pass_insts (r : Run) (dt : Nat) : (r.pass dt).insts = r.insts := rfl
@[simp] theorem Run.pass_ports (r : Run) (dt : Nat) : (r.pass dt).ports = r.ports := rfl
@[simp] theorem Run.pass_sw (r : Run) (dt : Nat) : (r.pass dt).sw = r.sw := rfl
@[simp] theorem Run.pass_ing (r : Run) (dt : Nat) : (r.pass dt).ing = r.ing := rfl
@[simp] theorem Run.pass_cfl (r : Run) (dt : Nat) : (r.pass dt).cfl = r.cfl := rfl
@[simp] theorem Run.pass_slc (r : Run) (dt : Nat) : (r.pass dt).slc = r.slc := rfl
@[simp] theorem Run.pass_cle (r : Run) (dt : Nat) : (r.pass dt).cle = r.cle := rfl
@[simp] theorem Run.pass_mlr (r : Run) (dt : Nat) : (r.pass dt).mlr = r.mlr := rfl
@[simp] theorem Run.pass_trip (r : Run) (dt : Nat) : (r.pass dt).trip = r.trip := rfl
@[simp] theorem Run.pass_dr (r : Run) (dt : Nat) : (r.pass dt).dr = r.dr := rfl
@[simp] theorem Run.pass_cel (r : Run) (dt : Nat) : (r.pass dt).cel = r.cel := rfl
@[simp] theorem Run.pass_lgr (r : Run) (dt : Nat) : (r.pass dt).lgr = r.lgr := rfl
@[simp] theorem Run.pass_srm (r : Run) (dt : Nat) : (r.pass dt).srm = r.srm := rfl
@[simp] theorem Run.pass_fb (r : Run) (dt : Nat) : (r.pass dt).fb = r.fb := rfl
@[simp] theorem Run.pass_flt (r : Run) (dt : Nat) : (r.pass dt).flt = r.flt := rfl

/-! ### What each update changes -/

@[simp] theorem Run.modSw_sw (r : Run) (f : Switch → Switch) : (r.modSw f).sw = f r.sw := rfl
@[simp] theorem Run.modTsu_tsu (r : Run) (f : Tsu → Tsu) : (r.modTsu f).tsu = f r.tsu := rfl
@[simp] theorem Run.modIng_ing (r : Run) (f : Ingest → Ingest) : (r.modIng f).ing = f r.ing := rfl
@[simp] theorem Run.modCfl_cfl (r : Run) (f : Confluence → Confluence) : (r.modCfl f).cfl = f r.cfl := rfl
@[simp] theorem Run.modSluice_slc (r : Run) (f : Sluice → Sluice) : (r.modSluice f).slc = f r.slc := rfl
@[simp] theorem Run.modCle_cle (r : Run) (f : Cle → Cle) : (r.modCle f).cle = f r.cle := rfl
@[simp] theorem Run.modMlr_mlr (r : Run) (f : Millrace → Millrace) : (r.modMlr f).mlr = f r.mlr := rfl
@[simp] theorem Run.modTrip_trip (r : Run) (f : Trip → Trip) : (r.modTrip f).trip = f r.trip := rfl
@[simp] theorem Run.modDr_dr (r : Run) (f : Recorder → Recorder) : (r.modDr f).dr = f r.dr := rfl
@[simp] theorem Run.modCel_cel (r : Run) (f : Cellar → Cellar) : (r.modCel f).cel = f r.cel := rfl
@[simp] theorem Run.modLgr_lgr (r : Run) (f : Ledger → Ledger) : (r.modLgr f).lgr = f r.lgr := rfl
@[simp] theorem Run.modSrm_srm (r : Run) (f : Strong → Strong) : (r.modSrm f).srm = f r.srm := rfl
@[simp] theorem Run.modFlt_flt (r : Run) (f : Faults → Faults) : (r.modFlt f).flt = f r.flt := rfl
@[simp] theorem Run.modFn_fns (r : Run) (fn : Nat) (f : FnState → FnState) : (r.modFn fn f).fns = modAt r.fns fn f := rfl
@[simp] theorem Run.modInst_insts (r : Run) (n : Nat) (f : InstState → InstState) : (r.modInst n f).insts = modAt r.insts n f := rfl
@[simp] theorem Run.modPort_ports (r : Run) (n : Nat) (f : Port → Port) : (r.modPort n f).ports = modAt r.ports n f := rfl
@[simp] theorem Run.emit_out (r : Run) (o : Out) : (r.emit o).out = o :: r.out := rfl
@[simp] theorem Run.pass_ticks (r : Run) (dt : Nat) : (r.pass dt).ticks = r.ticks + dt := rfl

/-! ### The state -/

@[simp] theorem State.ran_pending (s : State) (r : Run) : (s.ran r).pending = s.pending := rfl
@[simp] theorem State.ran_sys (s : State) (r : Run) : (s.ran r).sys = s.sys := rfl
@[simp] theorem State.ran_run (s : State) (r : Run) : (s.ran r).run = r := rfl
@[simp] theorem State.done_pending (s : State) (c : Cmd) (r : Run) (rep : Reply) : (s.done c r rep).pending = s.pending := rfl
@[simp] theorem State.done_sys (s : State) (c : Cmd) (r : Run) (rep : Reply) : (s.done c r rep).sys = s.sys := rfl
@[simp] theorem State.done_run (s : State) (c : Cmd) (r : Run) (rep : Reply) : (s.done c r rep).run = r.finish c.fn c.cseq rep := rfl
@[simp] theorem State.waits_pending (s : State) (c : Cmd) (r : Run) : (s.waits c r).pending = s.pending := rfl
@[simp] theorem State.waits_sys (s : State) (c : Cmd) (r : Run) : (s.waits c r).sys = s.sys := rfl
@[simp] theorem State.waits_run (s : State) (c : Cmd) (r : Run) : (s.waits c r).run = r.started c.fn c.cseq := rfl

end Sys2Proof.Machine
end

