-- ==== Sys2Proof/Laws/Ops.lean ====
section
/-! SUPPORT. What the shared operations do: lists and tables, the forms of a step, completions, the Cellar stage, events. -/

namespace Sys2Proof.Machine

/-! ### Lists and tables -/

@[simp] theorem length_modAt {α : Type} (l : List α) (i : Nat) (f : α → α) : (modAt l i f).length = l.length := by
  induction l generalizing i with
  | nil => rfl
  | cons x t ih => cases i <;> simp [modAt, ih]

theorem getElem?_modAt {α : Type} (l : List α) (i j : Nat) (f : α → α) :
    (modAt l i f)[j]? = if i = j then l[j]?.map f else l[j]? := by
  induction l generalizing i j with
  | nil => simp [modAt]
  | cons x t ih => cases i <;> cases j <;> simp [modAt, ih]

@[simp] theorem getD_modAt_self {α : Type} (l : List α) (i : Nat) (f : α → α) (d : α) (h : i < l.length) :
    (modAt l i f).getD i d = f (l.getD i d) := by
  rw [List.getD_eq_getElem?_getD, List.getD_eq_getElem?_getD, getElem?_modAt]
  simp [h]

theorem getD_modAt_ne {α : Type} (l : List α) (i j : Nat) (f : α → α) (d : α) (h : i ≠ j) :
    (modAt l i f).getD j d = l.getD j d := by
  simp [List.getD_eq_getElem?_getD, getElem?_modAt, h]

@[simp] theorem tabGet_tabSet_self {α : Type} (t : Tab α) (k : Nat) (v : α) : tabGet (tabSet t k v) k = some v := by
  induction t with
  | nil => simp [tabSet, tabGet]
  | cons e t ih =>
    obtain ⟨k', v'⟩ := e
    simp only [tabSet]
    split
    · simp [tabGet]
    · split
      · simp [tabGet]
      · simp_all [tabGet]

theorem tabGet_tabSet_ne {α : Type} (t : Tab α) (k j : Nat) (v : α) (h : j ≠ k) : tabGet (tabSet t k v) j = tabGet t j := by
  induction t with
  | nil => simp [tabSet, tabGet, h]
  | cons e t ih =>
    obtain ⟨k', v'⟩ := e
    simp only [tabSet]
    split
    · simp [tabGet, h]
    · split
      · subst_vars; simp [tabGet, h]
      · simp [tabGet, ih]

/-! ### The forms of a step -/

theorem whenUp_next (s : State) (f : Sys → Run → Run) : ∃ r, whenUp s f = .next (s.ran r) := by
  unfold whenUp
  split
  · exact ⟨s.run, rfl⟩
  · exact ⟨_, rfl⟩

theorem whenUp_up (s : State) (f : Sys → Run → Run) (h : s.Up) : whenUp s f = .next (s.ran (f s.sys s.run)) := by
  simp [whenUp, State.Up] at *; simp [h, State.ran]

theorem whenLinked_next (s : State) (f : Sys → Run → Run) : ∃ r, whenLinked s f = .next (s.ran r) := whenUp_next s _

theorem whenLinked_linked (s : State) (f : Sys → Run → Run) (h : s.Linked) :
    whenLinked s f = .next (s.ran (f s.sys s.run)) := by
  obtain ⟨h₁, h₂⟩ := h
  rw [whenLinked, whenUp_up s _ h₁]
  simp only [h₂, Bool.false_eq_true, if_false]

theorem whenHost_next (fn : Nat) (s : State) (f : Sys → Run → Run) : ∃ r, whenHost fn s f = .next (s.ran r) := whenLinked_next s _

theorem whenHost_hosted (fn : Nat) (s : State) (f : Sys → Run → Run) (h : s.Hosts fn) :
    whenHost fn s f = .next (s.ran (f s.sys s.run)) := by
  obtain ⟨h₁, h₂⟩ := h
  rw [whenHost, whenLinked_linked s _ h₁]
  have h₃ : ¬ (s.sys.phase = .recovery ∧ fn ≠ 0) := fun ⟨a, b⟩ => b (h₂ a)
  simp only [h₃, if_false]

theorem whenRunning_next (s : State) (f : Sys → Run → Run) : ∃ r, whenRunning s f = .next (s.ran r) := by
  unfold whenRunning
  split
  · exact ⟨_, rfl⟩
  · exact ⟨s.run, rfl⟩

theorem whenRunning_running (s : State) (f : Sys → Run → Run) (h : s.Running) :
    whenRunning s f = .next (s.ran (f s.sys s.run)) := by
  simp only [State.Running] at h
  simp [whenRunning, h, State.ran]

/-- Everything a command row can do: nothing, a refusal, a command that waits, a reply that does not fit, or its completion. -/
theorem runCommand_cases (k : CmdSpec) (c : Cmd) (s : State) (body : Accepted → Sys → Run → Sys × Run × Answer) :
    (s.commandFor k c = none ∧ runCommand k c s body = .next s) ∨
    (∃ a, s.commandFor k c = some a ∧
      ((∃ rep, k.refuses s.sys c a = some rep ∧ runCommand k c s body = .next (s.done c s.run rep)) ∨
       (k.refuses s.sys c a = none ∧
         ((∃ sys r, body a s.sys s.run = (sys, r, .wait) ∧
            runCommand k c s body = .next (({ s with sys := sys }).waits c r)) ∨
          (∃ sys r rep, body a s.sys s.run = (sys, r, .done rep) ∧
            ((¬ rep.Fits c a ∧ runCommand k c s body =
                .next (s.done c s.run { status := .buf, result := [(rep.bufLen : Int)] })) ∨
             (rep.Fits c a ∧ runCommand k c s body = .next (({ s with sys := sys }).done c r rep))))))) ) := by
  unfold runCommand
  cases hc : s.commandFor k c with
  | none => simp
  | some a =>
    right
    refine ⟨a, rfl, ?_⟩
    cases hr : k.refuses s.sys c a with
    | some st => left; exact ⟨st, rfl, by simp only [hr]; rfl⟩
    | none =>
      right
      refine ⟨rfl, ?_⟩
      rcases hb : body a s.sys s.run with ⟨sys, r, ans⟩
      cases ans with
      | wait => left; exact ⟨sys, r, rfl, by simp [hr, hb, State.waits]⟩
      | done rep =>
        right
        refine ⟨sys, r, rep, rfl, ?_⟩
        by_cases hf : rep.Fits c a
        · right
          refine ⟨hf, ?_⟩
          have : ¬ (a.entry.bufLen < rep.bufLen ∨ (0 < rep.bufLen ∧ c.bufErr = true)) := by
            rcases hf with h | ⟨h₁, h₂⟩
            · omega
            · simp [h₂]; omega
          simp only [hr, hb, if_neg this, State.done]
        · left
          refine ⟨hf, ?_⟩
          have : a.entry.bufLen < rep.bufLen ∨ (0 < rep.bufLen ∧ c.bufErr = true) := by
            unfold Reply.Fits at hf
            by_cases h : c.bufErr = true
            · right; exact ⟨by omega, h⟩
            · left
              simp at h
              simp [h] at hf
              omega
          simp only [hr, hb, if_pos this, State.done]

theorem runCommand_next (k : CmdSpec) (c : Cmd) (s : State) (body : Accepted → Sys → Run → Sys × Run × Answer) :
    ∃ t, runCommand k c s body = .next t ∧ t.pending = s.pending := by
  rcases runCommand_cases k c s body with ⟨_, h⟩ | ⟨a, _, ⟨st, _, h⟩ | ⟨_, ⟨sys, r, _, h⟩ | ⟨sys, r, rep, _, ⟨_, h⟩ | ⟨_, h⟩⟩⟩⟩ <;>
    exact ⟨_, h, rfl⟩

theorem runCommand_done (k : CmdSpec) (c : Cmd) (s : State) (body : Accepted → Sys → Run → Sys × Run × Answer) (a : Accepted)
    (sys : Sys) (r : Run) (rep : Reply) (h : s.Ready k c a) (hb : body a s.sys s.run = (sys, r, .done rep)) (hf : rep.Fits c a) :
    runCommand k c s body = .next (({ s with sys := sys }).done c r rep) := by
  rcases runCommand_cases k c s body with ⟨h', _⟩ | ⟨a', ha, ⟨st, h', _⟩ | ⟨_, ⟨sys', r', h', _⟩ | ⟨sys', r', rep', h', ⟨hn, _⟩ | ⟨_, e⟩⟩⟩⟩
  all_goals (have h₁ := h.1; have h₂ := h.2; simp_all)

theorem runCommand_wait (k : CmdSpec) (c : Cmd) (s : State) (body : Accepted → Sys → Run → Sys × Run × Answer) (a : Accepted)
    (sys : Sys) (r : Run) (h : s.Ready k c a) (hb : body a s.sys s.run = (sys, r, .wait)) :
    runCommand k c s body = .next (({ s with sys := sys }).waits c r) := by
  rcases runCommand_cases k c s body with ⟨h', _⟩ | ⟨a', ha, ⟨st, h', _⟩ | ⟨_, ⟨sys', r', h', _⟩ | ⟨sys', r', rep', h', _⟩⟩⟩
  all_goals (have h₁ := h.1; have h₂ := h.2; simp_all)

/-- A command that changes only what runs leaves the queue, and reset, boot and power, as they were. -/
theorem runCmd_next (k : CmdSpec) (c : Cmd) (s : State) (body : Accepted → Run → Run × Answer) :
    ∃ r, runCmd k c s body = .next (s.ran r) := by
  rcases runCommand_cases k c s (fun a sys run => let (run, ans) := body a run; (sys, run, ans)) with
    ⟨_, h⟩ | ⟨a, _, ⟨st, _, h⟩ | ⟨_, ⟨sys, r, e, h⟩ | ⟨sys, r, rep, e, ⟨_, h⟩ | ⟨_, h⟩⟩⟩⟩
  · exact ⟨s.run, h⟩
  · exact ⟨_, h⟩
  · have : sys = s.sys := by simp at e; exact e.1.symm
    subst this; exact ⟨_, h⟩
  · exact ⟨_, h⟩
  · have : sys = s.sys := by simp at e; exact e.1.symm
    subst this; exact ⟨_, h⟩

theorem runCmd_done (k : CmdSpec) (c : Cmd) (s : State) (body : Accepted → Run → Run × Answer) (a : Accepted) (r : Run) (rep : Reply)
    (h : s.Ready k c a) (hb : body a s.run = (r, .done rep)) (hf : rep.Fits c a) :
    runCmd k c s body = .next (s.done c r rep) := by
  rw [runCmd, runCommand_done k c s _ a s.sys r rep h (by simp [hb]) hf]

theorem runCmd_wait (k : CmdSpec) (c : Cmd) (s : State) (body : Accepted → Run → Run × Answer) (a : Accepted) (r : Run)
    (h : s.Ready k c a) (hb : body a s.run = (r, .wait)) : runCmd k c s body = .next (s.waits c r) := by
  rw [runCmd, runCommand_wait k c s _ a s.sys r h (by simp [hb])]

theorem runQuery_next (k : CmdSpec) (c : Cmd) (s : State) (body : Accepted → Sys → Run → Answer) :
    ∃ r, runQuery k c s body = .next (s.ran r) := by
  rcases runCommand_cases k c s (fun a sys run => (sys, run, body a sys run)) with
    ⟨_, h⟩ | ⟨a, _, ⟨st, _, h⟩ | ⟨_, ⟨sys, r, e, h⟩ | ⟨sys, r, rep, e, ⟨_, h⟩ | ⟨_, h⟩⟩⟩⟩
  · exact ⟨s.run, h⟩
  · exact ⟨_, h⟩
  · have : sys = s.sys := by simp at e; exact e.1.symm
    subst this; exact ⟨_, h⟩
  · exact ⟨_, h⟩
  · have : sys = s.sys := by simp at e; exact e.1.symm
    subst this; exact ⟨_, h⟩

theorem runQuery_done (k : CmdSpec) (c : Cmd) (s : State) (body : Accepted → Sys → Run → Answer) (a : Accepted) (rep : Reply)
    (h : s.Ready k c a) (hb : body a s.sys s.run = .done rep) (hf : rep.Fits c a) :
    runQuery k c s body = .next (s.done c s.run rep) := by
  rw [runQuery, runCommand_done k c s _ a s.sys s.run rep h (by simp [hb]) hf]

theorem onBlock_next (s : State) (f : Sys → Run → Sys × Run) :
    onBlock s f = .next { s with sys := (f s.sys s.run).1, run := (f s.sys s.run).2 } := rfl

/-! ### Completions (R66, R68, R72, R75, R84) -/

/-- A completion without a reply in the host buffer changes the function's accepted commands, its completed window and its
entries waiting for the event ring, and nothing else. -/
theorem Run.complete_inline (r : Run) (fn : Nat) (cseq : Word) (rep : Reply) (h : rep.bufLen = 0) :
    ∃ f, r.complete fn cseq rep = r.modFn fn f := by
  unfold Run.complete
  split
  · refine ⟨id, ?_⟩
    have : ∀ (l : List FnState) i, modAt l i id = l := by
      intro l; induction l with
      | nil => intro i; rfl
      | cons x t ih => intro i; cases i <;> simp [modAt, ih]
    simp [Run.modFn, this]
  · simp only [h, if_pos]
    exact ⟨_, rfl⟩

theorem Run.started_eq (r : Run) (fn : Nat) (cseq : Word) :
    r.started fn cseq = { r with fns := (r.started fn cseq).fns } := rfl

/-- Sweeping commands of unknown opcodes changes the functions only. -/
theorem Run.sweep_eq (n : Nat) (r : Run) (fn : Nat) : Run.sweep n r fn = { r with fns := (Run.sweep n r fn).fns } := by
  induction n generalizing r with
  | zero => rfl
  | succ n ih =>
    unfold Run.sweep
    split
    · rfl
    · split
      · rfl
      · split
        · rfl
        · rename_i a _ _ _
          obtain ⟨f, hf⟩ := Run.complete_inline r fn a.entry.cseq { status := .opcode } rfl
          rw [ih, hf]
          rfl

/-- A completion without a reply in the host buffer, and what it lets complete after it, changes the functions only. -/
theorem Run.finish_inline (r : Run) (fn : Nat) (cseq : Word) (rep : Reply) (h : rep.bufLen = 0) :
    r.finish fn cseq rep = { r with fns := (r.finish fn cseq rep).fns } := by
  obtain ⟨f, hf⟩ := Run.complete_inline r fn cseq rep h
  unfold Run.finish
  rw [Run.sweep_eq, hf]
  rfl

/-! ### The Cellar stage and events (R62, R63, R69, R71, R540, R541, R543) -/

/-- Staging a record changes the Cellar only. -/
theorem Run.stage_eq (r : Run) (x : CelItem) : r.stage x = { r with cel := (r.stage x).cel } := by
  unfold Run.stage
  dsimp only
  split
  · rfl
  · split <;> rfl

/-- A message changes the pending bits of its function, or what the block has put out. -/
theorem Run.msix_eq (r : Run) (fn v : Nat) : r.msix fn v = { r with fns := (r.msix fn v).fns, out := (r.msix fn v).out } := by
  unfold Run.msix
  split <;> rfl

/-- A W1C bit that is set is noted with the tick, and nothing else changes (R8). -/
theorem Run.setW1c_eq (r : Run) (b : W1c) :
    r.setW1c b = { r with w1cSet := (r.setW1c b).w1cSet, w1cTick := (r.setW1c b).w1cTick } := rfl

/-- Raising a source changes cause bits, the W1C bits of the tick, the functions and what the block has put out. -/
theorem Run.raiseSource_eq (r : Run) (fn s : Nat) :
    r.raiseSource fn s =
      { r with cause := (r.raiseSource fn s).cause, fns := (r.raiseSource fn s).fns, out := (r.raiseSource fn s).out,
               w1cSet := (r.raiseSource fn s).w1cSet, w1cTick := (r.raiseSource fn s).w1cTick } := by
  unfold Run.raiseSource
  dsimp only
  split
  · rw [Run.setW1c_eq]
  · split
    · rw [Run.msix_eq, Run.setW1c_eq]
    · rw [Run.setW1c_eq]

/-- An event that enters a window changes the functions, cause bits, the W1C bits of the tick and what the block has put out. -/
theorem Run.postEvent_eq (r : Run) (fn : Nat) (x : Raise) :
    r.postEvent fn x =
      { r with cause := (r.postEvent fn x).cause, fns := (r.postEvent fn x).fns, out := (r.postEvent fn x).out,
               w1cSet := (r.postEvent fn x).w1cSet, w1cTick := (r.postEvent fn x).w1cTick } := by
  unfold Run.postEvent
  dsimp only
  split
  · rw [Run.raiseSource_eq, Run.setW1c_eq]; rfl
  · rfl

/-- The copy of an event changes the Cellar only. -/
theorem Run.copyEvent_eq (r : Run) (x : Raise) : r.copyEvent x = { r with cel := (r.copyEvent x).cel } := by
  unfold Run.copyEvent
  split
  · dsimp only
    split
    · rw [Run.stage_eq]
    · exact Run.stage_eq _ _
  · rfl

/-- An event changes the functions, cause bits, the W1C bits of the tick, the Cellar and what the block has put out, and nothing
else. -/
theorem Run.raise_eq (r : Run) (x : Raise) :
    r.raise x = { r with cause := (r.raise x).cause, fns := (r.raise x).fns, out := (r.raise x).out, cel := (r.raise x).cel,
                         w1cSet := (r.raise x).w1cSet, w1cTick := (r.raise x).w1cTick } := by
  unfold Run.raise
  dsimp only
  rw [Run.copyEvent_eq, Run.raiseSource_eq, Run.postEvent_eq]

/-! ### Time and accesses of the host -/

/-- Noting TQ changes its record and nothing else. -/
theorem Tsu.noteTq_eq (u : Tsu) (t : Instant) : u.noteTq t = { u with tqLog := (u.noteTq t).tqLog } := by
  unfold Tsu.noteTq
  (repeat' split) <;> rfl

/-- Ticks that pass change local time, the counter and the record of TQ, and nothing else. -/
theorem Run.pass_eq (r : Run) (dt : Nat) :
    r.pass dt = { r with
      ticks := r.ticks + dt
      tsu := { r.tsu with tqLog := (r.tsu.noteTq r.now).tqLog, counter := (r.tsu.counter + dt * r.tsu.inc) % counterWrap } } := by
  unfold Run.pass
  rw [Tsu.noteTq_eq]

@[simp] theorem Run.pass_tsu_inc (r : Run) (dt : Nat) : (r.pass dt).tsu.inc = r.tsu.inc := by rw [Run.pass_eq]
@[simp] theorem Run.pass_tsu_phase (r : Run) (dt : Nat) : (r.pass dt).tsu.phase = r.tsu.phase := by rw [Run.pass_eq]
@[simp] theorem Run.pass_tsu_regs (r : Run) (dt : Nat) : (r.pass dt).tsu.regs = r.tsu.regs := by rw [Run.pass_eq]
@[simp] theorem Run.pass_tsu_servo (r : Run) (dt : Nat) : (r.pass dt).tsu.servo = r.tsu.servo := by rw [Run.pass_eq]
@[simp] theorem Run.pass_tsu_lockedOnce (r : Run) (dt : Nat) : (r.pass dt).tsu.lockedOnce = r.tsu.lockedOnce := by rw [Run.pass_eq]
@[simp] theorem Run.pass_tsu_stepped (r : Run) (dt : Nat) : (r.pass dt).tsu.stepped = r.tsu.stepped := by rw [Run.pass_eq]
@[simp] theorem Run.pass_tsu_traceable (r : Run) (dt : Nat) : (r.pass dt).tsu.traceable = r.tsu.traceable := by rw [Run.pass_eq]
@[simp] theorem Run.pass_tsu_lossAt (r : Run) (dt : Nat) : (r.pass dt).tsu.lossAt = r.tsu.lossAt := by rw [Run.pass_eq]
@[simp] theorem Run.pass_tsu_ref (r : Run) (dt : Nat) : (r.pass dt).tsu.ref = r.tsu.ref := by rw [Run.pass_eq]
@[simp] theorem Run.pass_tsu_newRef (r : Run) (dt : Nat) : (r.pass dt).tsu.newRef = r.tsu.newRef := by rw [Run.pass_eq]
@[simp] theorem Run.pass_tsu_lastEdge (r : Run) (dt : Nat) : (r.pass dt).tsu.lastEdge = r.tsu.lastEdge := by rw [Run.pass_eq]
@[simp] theorem Run.pass_tsu_ranSinceLock (r : Run) (dt : Nat) : (r.pass dt).tsu.ranSinceLock = r.tsu.ranSinceLock := by rw [Run.pass_eq]
@[simp] theorem Run.pass_tsu_parent (r : Run) (dt : Nat) : (r.pass dt).tsu.parent = r.tsu.parent := by rw [Run.pass_eq]
@[simp] theorem Run.pass_tsu_lastParent (r : Run) (dt : Nat) : (r.pass dt).tsu.lastParent = r.tsu.lastParent := by rw [Run.pass_eq]
@[simp] theorem Run.pass_tsu_foreign (r : Run) (dt : Nat) : (r.pass dt).tsu.foreign = r.tsu.foreign := by rw [Run.pass_eq]
@[simp] theorem Run.pass_tsu_linkDelay (r : Run) (dt : Nat) : (r.pass dt).tsu.linkDelay = r.tsu.linkDelay := by rw [Run.pass_eq]
@[simp] theorem Run.pass_tsu_pdelayAt (r : Run) (dt : Nat) : (r.pass dt).tsu.pdelayAt = r.tsu.pdelayAt := by rw [Run.pass_eq]
@[simp] theorem Run.pass_tsu_irig (r : Run) (dt : Nat) : (r.pass dt).tsu.irig = r.tsu.irig := by rw [Run.pass_eq]
@[simp] theorem Run.pass_tsu_txq (r : Run) (dt : Nat) : (r.pass dt).tsu.txq = r.tsu.txq := by rw [Run.pass_eq]
@[simp] theorem Run.pass_tsu_syncSent (r : Run) (dt : Nat) : (r.pass dt).tsu.syncSent = r.tsu.syncSent := by rw [Run.pass_eq]
@[simp] theorem Run.pass_tsu_secLatch (r : Run) (dt : Nat) : (r.pass dt).tsu.secLatch = r.tsu.secLatch := by rw [Run.pass_eq]
@[simp] theorem Run.pass_tsu_ppsOut (r : Run) (dt : Nat) : (r.pass dt).tsu.ppsOut = r.tsu.ppsOut := by rw [Run.pass_eq]
@[simp] theorem Run.pass_tsu_ppsOutSince (r : Run) (dt : Nat) : (r.pass dt).tsu.ppsOutSince = r.tsu.ppsOutSince := by rw [Run.pass_eq]
@[simp] theorem Run.pass_tsu_outliers (r : Run) (dt : Nat) : (r.pass dt).tsu.outliers = r.tsu.outliers := by rw [Run.pass_eq]
@[simp] theorem Run.pass_tsu_irigMismatch (r : Run) (dt : Nat) : (r.pass dt).tsu.irigMismatch = r.tsu.irigMismatch := by rw [Run.pass_eq]

/-- An access of the host changes VF Enable and NumVFs at the most. -/
theorem Run.hostAccess_eq (r : Run) (fn : Nat) :
    r.hostAccess fn = { r with vfEnable := (r.hostAccess fn).vfEnable, numVfs := (r.hostAccess fn).numVfs } := by
  unfold Run.hostAccess
  split <;> rfl

@[simp] theorem Run.hostAccess_fn (r : Run) (a b : Nat) : (r.hostAccess a).fn b = r.fn b := by rw [Run.hostAccess_eq]; rfl
@[simp] theorem Run.hostAccess_tsu (r : Run) (a : Nat) : (r.hostAccess a).tsu = r.tsu := by rw [Run.hostAccess_eq]
@[simp] theorem Run.hostAccess_ownSources (r : Run) (a : Nat) : (r.hostAccess a).ownSources = r.ownSources := by rw [Run.hostAccess_eq]; rfl
@[simp] theorem Run.hostAccess_routedTo (r : Run) (a : Nat) (o : Nat → List Nat) (b : Nat) :
    (r.hostAccess a).routedTo o b = r.routedTo o b := by rw [Run.hostAccess_eq]; rfl

end Sys2Proof.Machine
end

