-- ==== Sys2Proof/Laws/Frames.lean ====
section
/-! SUPPORT. What commands leave unchanged: the shared operations of the host interface, and the three forms of a command row. -/

namespace Sys2Proof.Machine

theorem Run.OnlyHost.refl (r : Run) : r.OnlyHost r := rfl

theorem Run.OnlyHost.trans {a b c : Run} (h : a.OnlyHost b) (g : b.OnlyHost c) : a.OnlyHost c := by
  unfold Run.OnlyHost at *
  rw [g, h]

theorem Run.onlyHost_modFn (r : Run) (n : Nat) (f : FnState → FnState) : r.OnlyHost (r.modFn n f) := rfl

theorem Run.onlyHost_modCel (r : Run) (f : Cellar → Cellar) : r.OnlyHost (r.modCel f) := rfl

theorem Run.onlyHost_emit (r : Run) (o : Out) : r.OnlyHost (r.emit o) := rfl

theorem Run.onlyHost_takeFree (r : Run) (w : Nat) : r.OnlyHost (r.takeFree w).2 := rfl

theorem Run.onlyHost_started (r : Run) (fn : Nat) (cseq : Word) : r.OnlyHost (r.started fn cseq) := rfl

theorem Run.onlyHost_raiseSource (r : Run) (fn s : Nat) : r.OnlyHost (r.raiseSource fn s) := by
  unfold Run.OnlyHost
  rw [Run.raiseSource_eq]

/-- An event changes the host functions, cause bits, the Cellar and what the block has put out. -/
theorem Run.onlyHost_raise (r : Run) (x : Raise) : r.OnlyHost (r.raise x) := by
  unfold Run.OnlyHost
  rw [Run.raise_eq]

/-- A DMA write marks pages of a function's dirty-page log and may raise EV_DIRTY_OVERFLOW. -/
theorem Run.onlyHost_dma (r : Run) (fn addr len : Nat) : r.OnlyHost (r.dma fn addr len) := by
  unfold Run.dma
  split
  · rfl
  · dsimp only
    split
    · rfl
    · exact (Run.onlyHost_modFn _ _ _).trans (Run.onlyHost_raise _ _)

theorem Run.onlyHost_complete (r : Run) (fn : Nat) (cseq : Word) (rep : Reply) : r.OnlyHost (r.complete fn cseq rep) := by
  unfold Run.complete
  split
  · rfl
  · dsimp only
    split
    · rfl
    · exact ((Run.onlyHost_emit _ _).trans (Run.onlyHost_dma _ _ _ _)).trans (Run.onlyHost_modFn _ _ _)

theorem Run.onlyHost_sweep (n : Nat) (r : Run) (fn : Nat) : r.OnlyHost (Run.sweep n r fn) := by
  unfold Run.OnlyHost
  rw [Run.sweep_eq]

/-- A completion, whatever its reply, stays in the host interface. -/
theorem Run.onlyHost_finish (r : Run) (fn : Nat) (cseq : Word) (rep : Reply) : r.OnlyHost (r.finish fn cseq rep) :=
  (Run.onlyHost_complete _ _ _ _).trans (Run.onlyHost_sweep 256 _ _)

/-- A command whose body stays in the host interface does so. -/
theorem runCommand_onlyHost (k : CmdSpec) (c : Cmd) (s t : State) (body : Accepted → Sys → Run → Sys × Run × Answer)
    (hb : ∀ a, (body a s.sys s.run).1 = s.sys ∧ s.run.OnlyHost (body a s.sys s.run).2.1) (h : runCommand k c s body = .next t) :
    t.sys = s.sys ∧ s.run.OnlyHost t.run := by
  rcases runCommand_cases k c s body with
    ⟨_, e⟩ | ⟨a, _, ⟨st, _, e⟩ | ⟨_, ⟨sys, r, b, e⟩ | ⟨sys, r, rep, b, ⟨_, e⟩ | ⟨_, e⟩⟩⟩⟩ <;>
  (rw [e] at h; cases h)
  · exact ⟨rfl, rfl⟩
  · exact ⟨rfl, Run.onlyHost_finish _ _ _ _⟩
  · have := hb a
    rw [b] at this
    exact ⟨this.1, this.2.trans (Run.onlyHost_started _ _ _)⟩
  · exact ⟨rfl, Run.onlyHost_finish _ _ _ _⟩
  · have := hb a
    rw [b] at this
    exact ⟨this.1, this.2.trans (Run.onlyHost_finish _ _ _ _)⟩

theorem runCmd_onlyHost (k : CmdSpec) (c : Cmd) (s t : State) (body : Accepted → Run → Run × Answer)
    (hb : ∀ a, s.run.OnlyHost (body a s.run).1) (h : runCmd k c s body = .next t) : t.sys = s.sys ∧ s.run.OnlyHost t.run :=
  runCommand_onlyHost k c s t _ (fun a => ⟨rfl, hb a⟩) h

theorem runQuery_onlyHost (k : CmdSpec) (c : Cmd) (s t : State) (body : Accepted → Sys → Run → Answer)
    (h : runQuery k c s body = .next t) : t.sys = s.sys ∧ s.run.OnlyHost t.run :=
  runCommand_onlyHost k c s t _ (fun _ => ⟨rfl, Run.OnlyHost.refl _⟩) h

/-! ### The host interface as a whole -/

/-- What changes the host functions and the like only changes nothing but the interface. -/
theorem Run.OnlyHost.interface {a b : Run} (h : a.OnlyHost b) : a.OnlyInterface b := by
  unfold Run.OnlyHost at h
  unfold Run.OnlyInterface
  rw [h]

theorem Run.OnlyInterface.trans {a b c : Run} (h : a.OnlyInterface b) (g : b.OnlyInterface c) : a.OnlyInterface c := by
  unfold Run.OnlyInterface at h g ⊢
  rw [h] at g
  exact g

theorem Run.onlyInterface_hostAccess (r : Run) (fn : Nat) : r.OnlyInterface (r.hostAccess fn) := by
  rw [Run.hostAccess_eq]
  rfl

/-- A read of BAR0 stays in the host interface and what the TSU's registers latch. -/
theorem readBar_onlyInterface (sys : Sys) (r : Run) (fn off : Nat) : r.OnlyInterface (readBar sys r fn off).1 := by
  unfold readBar
  split
  · rfl
  split
  · simp only [Run.readTxqPop]
    split <;> rfl
  split
  · simp only [Run.readLow]
    split <;> rfl
  split <;> rfl

end Sys2Proof.Machine
end

