-- ==== Sys2Proof/Laws/Layout.lean ====
section
/-! SUPPORT. The octets of what passes through host memory have the sizes of its tables. -/

namespace Sys2Proof.Machine

@[simp] theorem length_leOctets (n v : Nat) : (leOctets n v).length = n := by simp [leOctets]

@[simp] theorem length_zeroed (n : Nat) : (zeroed n).length = n := by simp [zeroed]

/-- Octets put over others leave the length as it was. -/
@[simp] theorem length_putOctets (l : List (Option Nat)) (off : Nat) (o : List Nat) (h : off ≤ l.length) :
    (putOctets l off o).length = l.length := by
  simp only [putOctets, List.length_append, List.length_take, List.length_map, List.length_drop]
  omega

/-- Fields laid in places that begin inside a block leave its length. -/
theorem length_laidOver (ps : List Place) (fields : List Int) (base : List (Option Nat)) (h : ∀ p ∈ ps, p.off ≤ base.length) :
    (laidOver base ps fields).length = base.length := by
  unfold laidOver
  induction ps generalizing fields base with
  | nil => simp
  | cons p t ih =>
    cases fields with
    | nil => simp
    | cons v l =>
      simp only [List.zip_cons_cons, List.foldl_cons]
      rw [ih l _ (fun q hq => by rw [length_putOctets _ _ _ (h p (by simp))]; exact h q (by simp [hq])), length_putOctets _ _ _ (h p (by simp))]

/-- A block of `n` octets has `n` octets. -/
theorem length_laid (n : Nat) (ps : List Place) (fields : List Int) (h : ∀ p ∈ ps, p.off ≤ n) : (laid n ps fields).length = n := by
  unfold laid
  rw [length_laidOver _ _ _ (by simpa using h)]
  simp

/-- The descriptors of a frame are one at the least, the last the one with EOF. -/
theorem frameDescs_last {l d : List TxDesc} (h : frameDescs l = some d) : ∃ x ∈ d.getLast?, x.eof = true := by
  induction l generalizing d with
  | nil => simp [frameDescs] at h
  | cons a t ih =>
    simp only [frameDescs] at h
    split at h
    · cases h; simp_all
    · cases e : frameDescs t with
      | none => simp [e] at h
      | some y =>
        simp only [e, Option.map_some, Option.some.injEq] at h
        subst h
        obtain ⟨x, hx, he⟩ := ih e
        exact ⟨x, by cases y <;> simp_all [List.getLast?_cons], he⟩

end Sys2Proof.Machine
end

