-- ==== Sys2Proof/Tests/Slice0.lean ====
section
/-! SUPPORT. Tests: what well-formedness refuses, hand-computed steps, and for each clause of each statement a state and operands that
meet its hypotheses together. -/

namespace Sys2Proof.Tests

open Sys2Proof Sys2Proof.Machine

set_option Elab.async false
set_option linter.unusedVariables false

/-- What runs in a device in service. -/
def run : Run := { State.reset.run with ready := true, protection := true }

/-- A device in service that runs `r`. -/
def up (r : Run) : State :=
  { State.reset with sys := { State.reset.sys with phase := .running, porstN := true, corePower := true }, run := r }

/-- The command of PF0 that the tests run: `op` on instance `inst`. -/
def acc (op inst : Nat) : Accepted :=
  let e : CmdEntry := { cseq := 1, opcode := op, bufLen := 2 ^ 20, inst := inst }
  { entry := e, target := targetOf 0 e, gen := 0 }

/-- `r` with that command accepted. -/
def has (op inst : Nat) (r : Run) : Run := r.modFn 0 fun f => { f with accepted := [acc op inst], cseqAccepted := 1 }

/-- A device in service that runs `r` and has accepted that command. -/
def st (op inst : Nat) (r : Run) : State := up (has op inst r)

def pf0 : Cmd := { fn := 0, cseq := 1 }

/-- `r` with VI_0 in a state. -/
def inst (p : InstPhase) (r : Run) : Run := r.modInst 0 fun i => { i with phase := p }


theorem pair_of {α β : Type} {p : α × β} {b : β} (h : p.2 = b) : p = (p.1, b) := by cases p; cases h; rfl

theorem some_of {α : Type} {o : Option α} {d : α} (h : o.isSome = true) : o = some (o.getD d) := by cases o <;> simp_all

theorem none_all {α : Type} {o : Option α} {p : α → Prop} (h : o.isNone = true) : ∀ t, o = some t → p t := by cases o <;> simp_all

/-- What an `Except` holds. -/
def got {ε α : Type} (e : Except ε α) (d : α) : α := match e with | .ok a => a | .error _ => d

theorem got_of {ε α : Type} {e : Except ε α} {d : α} (h : e.toOption.isSome = true) : e = .ok (got e d) := by
  cases e <;> simp_all [got, Except.toOption]

/-- The virtual NIC of PF0 enabled with `n` entries waiting in each of its rings. -/
def vnic (n : Nat) (r : Run) : Run :=
  let g : Ring := { host := BitVec.ofNat 32 n }
  r.modFn 0 fun f => { f with vnicEn := true, cmdEn := true, evtEn := true, ring0 := g, ring1 := g, ring2 := g, ring3 := g }

/-- The 64 octets of an inline command entry of instance `inst` (Table 2.5), the least significant octet of a field first. -/
def octets64 (inst cseq op : Nat) : List Nat :=
  leOctets 4 cseq ++ leOctets 2 op ++ leOctets 2 0 ++ leOctets 4 0 ++ leOctets 4 inst ++ List.replicate 48 0

/-- The 32 octets of a descriptor (Table 2.12). -/
def descOctets (addr len : Nat) : List Nat := leOctets 8 addr ++ leOctets 2 len ++ List.replicate 22 0

/-- A frame of the tests. -/
def frame : Frame := { da := 0x0180C2000001, sa := 2, etype := 0x0800, len := 64 }

def held : Held :=
  { inPort := 0, frame := frame, vid := 1, pcp := 0, tc := 0, complete := true, taken := 1, reserved := 1, copies := 1, since := 0, arrival := 0 }

/-- `r` with its ports changed. -/
def ports (f : Port → Port) (r : Run) : Run := { r with ports := r.ports.map f }

/-- Every port enabled and with link. -/
def linked (r : Run) : Run := ports (fun p => { p with enable := true, link := true }) r

/-- `r` at `ns` nanoseconds of TAI. -/
def time (ns : Nat) (r : Run) : Run := r.modTsu fun t => { t with counter := ns * 2 ^ 32 }

/-- `s` with its device part changed. -/
def device (f : Sys → Sys) (s : State) : State := { s with sys := f s.sys }

def noPar : PInfo := { ty := 0, value := none }

/-- A graph of one node that adds a constant to itself each P tick. -/
def graph : Graph :=
  { nodes := [{ prio := 0, any := false, flags := 0, mask := 1, budget := 100, cls := 0, unit := 0, op := 1 }], edges := [], binds := [] }

/-- A node of class `cls` with operator or index `op`. -/
def node (cls op : Nat) : GNode := { prio := 0, any := false, flags := 0, mask := 1, budget := 10000, cls := cls, unit := 0, op := op }

/-- VI_0 in state `p` runs a graph of one node. -/
def runs (p : InstPhase) (n : GNode) (r : Run) : Run :=
  (inst p r).modSluice fun x => { x with insts := [(0, { graph := some { nodes := [n], edges := [], binds := [] }, nodes := [{}] })] }

/-- A job of that node, waiting for a unit or with one. -/
def job (cls : Nat) (p : NodePhase) : Flight := { inst := 0, node := 0, gen := 0, prio := 0, cls := cls, unit := 0, phase := p, ready := 0, enq := 0, tick := 0 }

/-- `r` with that job in flight. -/
def flying (cls : Nat) (p : NodePhase) (r : Run) : Run := (runs .active (node cls 0) r).modSluice fun x => { x with flights := [job cls p] }

/-- A task whose program is END, and one that only jumps to itself. -/
def cleTask (code : List Word) : CleTask := { index := 0, engine := 0, supervisory := true, code := code, vaLen := 1, vars := [{ ident := 1, addr := 0, type := 1 }] }

def task (m : TaskMode) (code : List Word) : TaskSt := { dev := 0, task := cleTask code, mode := m }

/-- `r` with such a task in VI_0. -/
def tasks (t : TaskSt) (r : Run) : Run := { r with cle := { r.cle with insts := [(0, { tasks := [(0, t)] })] } }

def loopRec : LoopRec :=
  { gridQ := false, preset := 0xFF, toManual := false, fallback := 0, initAuto := true, dl := 25000, manualInit := 0, ref := none,
    fb := { src := .const 0, estOk := true }, dests := [], stages := [{ type := 4, e := 0, p := [] }] }

def loop (auto : Bool) : LoopSt := { inst := 0, index := 0, record := loopRec, auto := auto }

def loops (x : LoopSt) (r : Run) : Run := { r with mlr := { r.mlr with loops := [(0, x)] } }

def svRec : SvRec :=
  { auth := 0, localOk := true, sim := false, le := false, da := 1, appid := 0x4000, rate := 4800, fnom := 60, noAsdu := 1, confRev := 1,
    nMembers := 8, id := [0x41], timeout := 0, keyA := 0xFFFF, keyB := 0xFFFF, chans := [{ member := 0, scale := 0x3F800000 }] }

def gooseRec : GooseRec :=
  { auth := 0, useGocbRef := false, sim := false, da := 1, appid := 1, confRev := 1, id := [0x41], maxRate := 1, keyA := 0xFFFF, keyB := 0xFFFF,
    members := [(0, 0)] }

/-- `r` where VI_0 subscribes to stream 0, whose channel holds slot 0. -/
def subscribed (r : Run) : Run :=
  { r with ing := { r.ing with
      sv := [(0, { inst := 0, record := .sv { svRec with chans := [{ member := 0, slot := 0, scale := 0x3F800000 }] } })],
      goose := [(0, { inst := 0, record := .goose gooseRec })] } }

def chanRec : ChanRec :=
  { dcEn := false, dcHold := false, peakEn := false, rmsEn := false, envEn := false, drEn := false, alignDelay := 0, delayComp := 0, l := 0,
    proto := 0, np := 1, nr := 1, rr := 2, setA := 0xFFFF, setB := 0xFFFF, bank := 0, dcK := 8, peakK := 1, attack := 0, release := 0, rmsW := 1 }

def chan : Chan := { inst := 0, stream := 0, rate := 4800, record := chanRec }

/-- `r` with channel slot 0 committed to VI_0. -/
def withChan (r : Run) : Run := { r with cfl := { r.cfl with chans := [(0, chan)] } }

def gpub : GoosePub :=
  { da := 1, appid := 1, pcp := 4, vid := 1, confRev := 1, minT := 4, maxT := 1000, talFactor := 2, ports := [0], goId := [0x41], gocbRef := [0x41],
    datSet := [0x41], members := [1] }

def svPub : SvPub := { da := 1, appid := 0x4000, pcp := 4, vid := 1, confRev := 1, ports := [0], svId := [0x41], scales := [0x3F800000] }

/-- A key that serves every use of PF0 in the states before SCRAPPED, and may be exported. -/
def key (type : Nat) : Key := { type := type, keyId := 7, gen := 0, attr := 0x1FF0F0020, material := 1 }

/-- A key-encryption key of PF0: WRAP_UNWRAP alone, not exportable. -/
def kek : Key := { key 2 with attr := 0x800F0020 }

/-- `r` with a key of such a kind in slot 255. -/
def keyed (type : Nat) (r : Run) : Run := r.modSrm fun x => { x with slots := [(0, key 5), (5, key 7), (255, key type)] }

/-- A nonce of either challenge. -/
def challenged (r : Run) : Run := (r.modSrm fun x => { x with nonce := some (1, 0) }).modCel fun x => { x with nonce := some (1, 0), nextSeq := 10 }

def tribCfg : TribCfg := { twinId := 1, pairId := 1, portA := 48, portB := none, key := 0xFFFF, da := 1 }

def drRec : DrRec := { rate := 0, pre := 10, post := 10, autoT := 100, bufMib := 1, analog := [], binary := [(.bi 0, false, [])] }

def drRecord : DrRecord := { number := 1, epoch := 0, first := { instant := 0, cause := 1 }, stop' := 0, record := drRec }

/-- `r` with recorder 0 of VI_0 in phase `p`. -/
def recorder (p : DrPhase) (r : Run) : Run :=
  { r with dr := { r.dr with recs := [(0, { inst := 0, index := 0, record := drRec, phase := p, held := [drRecord] })] } }

def recOf (p : DrPhase) : Rec := { inst := 0, index := 0, record := drRec, phase := p, held := [drRecord] }

def canRec : CanRec := { tx := true, dlc := 8, ident := 1 }

/-- CAN channel 3 as `f` has it, with a transmit buffer 127. -/
def can (x : CanBuf) (f : CanChan → CanChan) (r : Run) : Run :=
  r.modCan 3 fun c => f { c with enable := true, init := false, bufs := [(127, x)] }

def startIn : StartIn :=
  { bootSel := 0, ready := 100, memA := 16, memB := 16, failed := [], firmwareOk := true, configOk := true, badA := false, badB := false, tj := 400 }

def row : DrRow := { q := 10000, values := [], quals := [] }

/-- The result of the cycle that the job of task 0 runs. -/
def cycleIn (r : Run) : CycleRes :=
  (r.cycleOf 0 0 (job 3 .executing)).getD { va := [], last := [], subst := false, bytes := none, cost := 0, fate := .ended }

/-- The octets of an image of one logic-engine node set at each P tick, of the firmware's catalogue version (Table 9.13): the header, the
node, its descriptor, the edge and the binding. -/
def imageOctets : List Nat :=
  leOctets 4 0x31474C53 ++ leOctets 2 1 ++ leOctets 2 Config.catalogueVersion.toNat ++ leOctets 4 1 ++ leOctets 4 1 ++ leOctets 2 1 ++ leOctets 2 0 ++
  leOctets 4 64 ++ leOctets 4 88 ++ leOctets 4 96 ++ leOctets 4 104 ++ leOctets 4 112 ++ leOctets 4 112 ++ leOctets 4 0 ++ leOctets 4 112 ++
  List.replicate 12 0 ++
  (leOctets 2 0xFFFF ++ [0, 0] ++ leOctets 4 0 ++ leOctets 4 1 ++ leOctets 3 1000 ++ [96] ++ leOctets 2 0 ++ leOctets 2 0xFFFF ++ leOctets 4 0) ++
  leOctets 8 0x200 ++ leOctets 8 0 ++ (leOctets 2 1 ++ leOctets 6 0)

theorem catalogue_read (data : Graph) : (readImage imageOctets data).catalogue = Config.catalogueVersion.toNat := by
  have h : (readImage imageOctets data).catalogue =
      Config.catalogueVersion.toNat / 1 % 256 % 256 + 256 * (Config.catalogueVersion.toNat / 256 % 256 % 256 + 256 * 0) := rfl
  have := Config.catalogueVersion.isLt
  omega

theorem image_loads : imageDefect (readImage imageOctets graph) = none := by
  have h : Config.catalogueHas (readImage imageOctets graph).catalogue = true := by
    rw [catalogue_read]
    show (Config.catalogueVersion.toNat == Config.catalogueVersion.toNat || _) = true
    rw [beq_self_eq_true, Bool.true_or]
  have hc : catalogueCheck (readImage imageOctets graph) = none := by
    unfold catalogueCheck
    rw [h]
    decide +kernel
  have hs : structureOk (readImage imageOctets graph) = true := by decide +kernel
  have hg : graphCheck (readImage imageOctets graph) = none := by decide +kernel
  unfold imageDefect
  rw [hs, hc, hg]
  decide +kernel

theorem blob_fits {r : Run} {serial slot : Nat} {k : Key} {c : Cmd} {a : Accepted} (h : 64 + wrappedLen k.type ≤ a.entry.bufLen)
    (hc : c.bufErr = false) : (r.blobReply serial slot k).Fits c a := by
  unfold Run.blobReply
  split
  · exact Or.inr ⟨h, hc⟩
  · exact Or.inl rfl

theorem got3_of {ε α β γ : Type} {e : Except ε (α × β × γ)} {d : α × β × γ} (h : e.toOption.isSome = true) :
    e = .ok ((got e d).1, (got e d).2.1, (got e d).2.2) := got_of h

theorem sv_stages : ∃ (i : Nat) (z : SubRec) (r : Run), (st 0x0500 0 (inst .idle run)).run.stageSub false 0 0xFFFF (.sv svRec) = .ok (r, i, z) :=
  ⟨_, _, _, got3_of (d := (run, 0, .sv svRec)) (by decide +kernel)⟩

def blob : Blob := { magic := 0, format := 1, root := 1, type := 1, keyId := 1, gen := 0, attr := 0, serial := 0, slot := 0, created := 0, wrappedLen := 0, wrapped := 0 }

/-! ### Well-formedness: each check refuses an operand past its bound -/

/-- Commands and events with one operand past its bound are not well formed. -/
theorem test_wf_refuses_1 : [
    .commandFetch 33 (octets64 0 1 0x100) false, .eventRingPost 33, .ringHostWrite 33 0 0, .ringHostWrite 0 4 0, .cmdEnableRise 33,
    .cmdEnableFall 33, .evtEnableRise 33, .evtEnableFall 33, .vnicEnableRise 33, .vnicEnableFall 33, .imaskWrite 33 0 0,
    .imaskWrite 0 32 0, .registerWrite 33 0 0, .registerWrite 0 (2 ^ 32) 0, .registerWrite 0 0 (2 ^ 64), .reg64LowRead 33 0,
    .devNop { pf0 with fn := 33 }, .devIdentify { pf0 with fn := 33 }, .devReplayCompletions { pf0 with fn := 33 } 0,
    .devReplayEvents { pf0 with fn := 33 } 0, .devSnapshot { pf0 with fn := 33 }, .paramGet { pf0 with fn := 33 } [],
    .paramSet { pf0 with fn := 33 } [], .paramDescribe { pf0 with fn := 33 } 0, .paramDescribe pf0 (2 ^ 32),
    .dirtyLogStart { pf0 with fn := 33 } 0 0 0 0 0, .dirtyLogStart pf0 65536 0 0 0 0, .dirtyLogStart pf0 0 (2 ^ 64) 0 0 0,
    .dirtyLogStart pf0 0 0 (2 ^ 64) 0 0, .dirtyLogStart pf0 0 0 0 (2 ^ 64) 0, .dirtyLogStart pf0 0 0 0 0 (2 ^ 64),
    .dirtyLogSync { pf0 with fn := 33 } 0, .dirtyLogSync pf0 65536, .dirtyLogStop { pf0 with fn := 33 } 0 false,
    .dirtyLogStop pf0 65536 false, .devCommit { pf0 with fn := 33 }, .devUnlock { pf0 with fn := 33 }, .vnicRxFrame 33 [],
    .vnicTxFrame 33 [] frame false, .functionLevelReset 33, .d3hotEntry 33, .instCreate { pf0 with fn := 33 } 0 0 0 0,
    .instCreate pf0 65536 0 0 0, .instCreate pf0 0 65536 0 0, .instCreate pf0 0 0 65536 0, .instCreate pf0 0 0 0 256,
    .instDestroy { pf0 with fn := 33 }, .instCommit { pf0 with fn := 33 }, .instStart { pf0 with fn := 33 },
    .instStop { pf0 with fn := 33 }, .instReset { pf0 with fn := 33 } false, .instResetDone 32 0, .instSetShare { pf0 with fn := 33 } 0 0,
    .instSetShare pf0 256 0, .instSetShare pf0 0 65536, .instSetRank { pf0 with fn := 33 } 0, .instSetRank pf0 256,
    .instResume { pf0 with fn := 33 }, .instQuery { pf0 with fn := 33 }, .macFrameReceive 64 0 frame {} 0].all (fun (i : Instr) => !i.wf) = true := by decide +kernel

/-- Commands and events with one operand past its bound are not well formed. -/
theorem test_wf_refuses_2 : [
    .macFrameTransmit 64 {} 0, .linkDown 64 none 0, .linkUp 64 0 false 0, .linkUp 0 16 false 0, .linkHoldExpiry 64 0,
    .portEnableFall 64 0, .macCfgWrite 64 0, .txThreshBaseWrite 64 0, .txThreshBaseWrite 0 (2 ^ 9), .txThreshRestore 64,
    .portSnapshot { pf0 with fn := 33 } 0, .portSnapshot pf0 (2 ^ 64), .portThreshRestore { pf0 with fn := 33 } 0,
    .portThreshRestore pf0 (2 ^ 64), .frameForward 68 0 frame 0, .fdbEntryAge (2 ^ 48) 0 0, .fdbEntryAge 0 4096 0,
    .nodeEntryForget 32 0 0, .nodeEntryForget 0 (2 ^ 48) 0, .supervisionSend 32 0, .supervisionSilence 32 0 false 0,
    .supervisionSilence 0 (2 ^ 48) false 0, .swVlanSet { pf0 with fn := 33 } 0 0 0, .swVlanSet pf0 65536 0 0, .swVlanSet pf0 0 (2 ^ 68) 0,
    .swVlanSet pf0 0 0 (2 ^ 68), .swFdbAdd { pf0 with fn := 33 } 0 0 0 0, .swFdbAdd pf0 (2 ^ 48) 0 0 0, .swFdbAdd pf0 0 65536 0 0,
    .swFdbAdd pf0 0 0 (2 ^ 68) 0, .swFdbAdd pf0 0 0 0 (2 ^ 33), .swFdbDel { pf0 with fn := 33 } 0 0, .swFdbDel pf0 (2 ^ 48) 0,
    .swFdbDel pf0 0 65536, .swFdbFlush { pf0 with fn := 33 } 0 false, .swFdbFlush pf0 65536 false, .swFdbRead { pf0 with fn := 33 },
    .swHostVlan { pf0 with fn := 33 } 0 0 0 [], .swHostVlan pf0 256 0 0 [], .swHostVlan pf0 0 256 0 [], .swHostVlan pf0 0 0 65536 [],
    .swRedSet { pf0 with fn := 33 } 0 0, .swRedSet pf0 256 0, .swRedSet pf0 0 256, .swNodeRead { pf0 with fn := 33 } 0,
    .swNodeRead pf0 256, .swCensusNow { pf0 with fn := 33 } 0, .ptpSyncSend 64 0, .pdelayReqReceive 64 0 0 0, .pdelayReqReceive 0 256 0 0,
    .pdelayReqReceive 0 0 65536 0, .pdelayMeasure 64 { t1 := 0, t2 := 0, t3 := 0, t4 := 0, correction := 0 } 0, .tsuNowNsRead 33 0,
    .tsuTxqPopRead 16, .timeQuery { pf0 with fn := 33 }, .timeSet { pf0 with fn := 33 } 0 0, .timeSet pf0 (2 ^ 48) 0,
    .timeSet pf0 0 (2 ^ 32), .timeReacquire { pf0 with fn := 33 }, .subSupervisionExpiry false 65536 0].all (fun (i : Instr) => !i.wf) = true := by decide +kernel

/-- Commands and events with one operand past its bound are not well formed. -/
theorem test_wf_refuses_3 : [
    .subSvSet { pf0 with fn := 33 } 0 svRec, .subSvSet pf0 65536 svRec, .subGooseSet { pf0 with fn := 33 } 0 gooseRec,
    .subGooseSet pf0 65536 gooseRec, .subDelete { pf0 with fn := 33 } 0 0, .subDelete pf0 256 0, .subDelete pf0 0 65536,
    .subRead { pf0 with fn := 33 } 0 0, .subRead pf0 256 0, .subRead pf0 0 65536, .subKeySet { pf0 with fn := 33 } 0 0 0 0,
    .subKeySet pf0 256 0 0 0, .subKeySet pf0 0 65536 0 0, .subKeySet pf0 0 0 65536 0, .subKeySet pf0 0 0 0 65536,
    .subList { pf0 with fn := 33 } 0, .subList pf0 256, .tickProcess 32 0, .cflChanSet { pf0 with fn := 33 } 0 chanRec,
    .cflChanSet pf0 65536 chanRec, .cflStreamSet { pf0 with fn := 33 } 0 {}, .cflStreamSet pf0 65536 {},
    .cflCoefSet { pf0 with fn := 33 } 0 0 [], .cflCoefSet pf0 256 0 [], .cflCoefSet pf0 0 (2 ^ 32) [],
    .cflProtoLoad { pf0 with fn := 33 } 0 [], .cflProtoLoad pf0 256 [], .cflBankSelect { pf0 with fn := 33 } 0 0 0,
    .cflBankSelect pf0 65536 0 0, .cflBankSelect pf0 0 256 0, .cflBankSelect pf0 0 0 65536, .cflDcHold { pf0 with fn := 33 } 0 false,
    .cflDcHold pf0 65536 false, .cflDecSync { pf0 with fn := 33 } 0 0, .cflDecSync pf0 (2 ^ 48) 0, .cflDecSync pf0 0 (2 ^ 32),
    .cflChanRead { pf0 with fn := 33 } 0, .cflChanRead pf0 65536, .jobFinish 32 0 0 false 0, .jobFinish 0 65536 0 false 0,
    .jobFinish 0 0 257 false 0, .budgetAbort 32 0 0 0, .budgetAbort 0 65536 0 0, .budgetAbort 0 0 257 0, .graphExchange 32 0,
    .exchangeTimeout 32 0, .slcGraphLoad { pf0 with fn := 33 } [] 0 graph, .slcGraphUnload { pf0 with fn := 33 },
    .slcAdmitCheck { pf0 with fn := 33 }, .slcCancel { pf0 with fn := 33 } 0, .slcCancel pf0 65536, .slcTrigger { pf0 with fn := 33 } 0,
    .slcTrigger pf0 65536, .slcNodeRead { pf0 with fn := 33 } 0, .slcNodeRead pf0 65536, .slcChainRead { pf0 with fn := 33 } 0,
    .slcChainRead pf0 65536, .grpForce { pf0 with fn := 33 } 0 0, .grpForce pf0 256 0, .grpForce pf0 0 256].all (fun (i : Instr) => !i.wf) = true := by decide +kernel

/-- Commands and events with one operand past its bound are not well formed. -/
theorem test_wf_refuses_4 : [
    .grpRelease { pf0 with fn := 33 } 0, .grpRelease pf0 256, .grpQuery { pf0 with fn := 33 }, .cleCycle 32 0 0, .cleCycle 0 256 0,
    .cleEmptyJob 32 0 0, .cleEmptyJob 0 256 0, .cleCycleFault 32 0 0, .cleCycleFault 0 256 0,
    .cleProgLoad { pf0 with fn := 33 } [] 0 { tasks := [] }, .cleProgUnload { pf0 with fn := 33 }, .cleTaskMode { pf0 with fn := 33 } 0 0,
    .cleTaskMode pf0 65536 0, .cleTaskMode pf0 0 256, .cleTaskStart { pf0 with fn := 33 } 0 false, .cleTaskStart pf0 65536 false,
    .cleTaskStep { pf0 with fn := 33 } 0, .cleTaskStep pf0 65536, .cleVarRead { pf0 with fn := 33 } 0 0 0, .cleVarRead pf0 65536 0 0,
    .cleVarRead pf0 0 65536 0, .cleVarRead pf0 0 0 65536, .cleVarWrite { pf0 with fn := 33 } 0 0 [], .cleVarWrite pf0 65536 0 [],
    .cleVarWrite pf0 0 65536 [], .cleTaskRead { pf0 with fn := 33 } 0, .cleTaskRead pf0 65536, .loopEvaluation 32 0 0,
    .loopEvaluation 0 65536 0, .mlrLoopSet { pf0 with fn := 33 } 0 loopRec, .mlrLoopSet pf0 65536 loopRec,
    .mlrLoopDelete { pf0 with fn := 33 } 0, .mlrLoopDelete pf0 65536, .mlrMode { pf0 with fn := 33 } 0 0 none, .mlrMode pf0 256 0 none,
    .mlrMode pf0 0 256 none, .mlrInject { pf0 with fn := 33 } 0 0 0 0 0 0 0 0 0 0 0, .mlrInject pf0 65536 0 0 0 0 0 0 0 0 0 0,
    .mlrInject pf0 0 256 0 0 0 0 0 0 0 0 0, .mlrInject pf0 0 0 256 0 0 0 0 0 0 0 0, .mlrInject pf0 0 0 0 256 0 0 0 0 0 0 0,
    .mlrInject pf0 0 0 0 0 0 0 0 (2 ^ 32) 0 0 0, .mlrInject pf0 0 0 0 0 0 0 0 0 65536 0 0, .mlrInject pf0 0 0 0 0 0 0 0 0 0 (2 ^ 48) 0,
    .mlrInject pf0 0 0 0 0 0 0 0 0 0 0 65536, .mlrInjectStop { pf0 with fn := 33 } 0, .mlrInjectStop pf0 65536,
    .mlrCapture { pf0 with fn := 33 } 0 0 0 0 0 0 0, .mlrCapture pf0 256 0 0 0 0 0 0, .mlrCapture pf0 0 65536 0 0 0 0 0,
    .mlrCapture pf0 0 0 256 0 0 0 0, .mlrCapture pf0 0 0 0 256 0 0 0, .mlrCapture pf0 0 0 0 0 65536 0 0,
    .mlrCapture pf0 0 0 0 0 0 (2 ^ 48) 0, .mlrCapture pf0 0 0 0 0 0 0 65536, .mlrCaptureRead { pf0 with fn := 33 } 0,
    .mlrCaptureRead pf0 256, .mlrLoopRead { pf0 with fn := 33 } 0, .mlrLoopRead pf0 65536, .gooseRetransmit 512 0].all (fun (i : Instr) => !i.wf) = true := by decide +kernel

/-- Commands and events with one operand past its bound are not well formed. -/
theorem test_wf_refuses_5 : [
    .sofbMismatch 32 false 0 0, .sofbMismatch 0 false 256 0, .offPulseStart 32 0, .offPulseEnd 32 0, .biChange 32 false 0 0,
    .latchReset 32 0, .sioSessionExpiry 33 0, .pubGooseSet { pf0 with fn := 33 } 0 gpub, .pubGooseSet pf0 65536 gpub,
    .pubSvSet { pf0 with fn := 33 } 0 svPub, .pubSvSet pf0 65536 svPub, .pubDelete { pf0 with fn := 33 } 0 0, .pubDelete pf0 256 0,
    .pubDelete pf0 0 65536, .pubRead { pf0 with fn := 33 } 0 0, .pubRead pf0 256 0, .pubRead pf0 0 65536,
    .tribSet { pf0 with fn := 33 } 0 0 0 none 0 0 0 0, .tribSet pf0 256 0 0 none 0 0 0 0, .tribSet pf0 0 65536 0 none 0 0 0 0,
    .tribSet pf0 0 0 256 none 0 0 0 0, .tribSet pf0 0 0 0 none 65536 0 0 0, .tribSet pf0 0 0 0 none 0 (2 ^ 48) 0 0,
    .tribSet pf0 0 0 0 none 0 0 256 0, .tribSet pf0 0 0 0 none 0 0 0 65536, .tribQuery { pf0 with fn := 33 },
    .sioUnlock { pf0 with fn := 33 } [], .sioLock { pf0 with fn := 33 }, .sioPasswordSet { pf0 with fn := 33 } [] [],
    .sioCfgSet { pf0 with fn := 33 } 0 0 0, .sioCfgSet pf0 256 0 0, .sioCfgSet pf0 0 65536 0, .sioCfgSet pf0 0 0 (2 ^ 32),
    .sioFaultClear { pf0 with fn := 33 } 0 [], .sioFaultClear pf0 256 [], .sioQuery { pf0 with fn := 33 } 0, .drRowWrite 16 0,
    .xtrigInEdge 4 0, .drAutoTrigger 16 0, .drRearmExpiry 16 0, .xtrigOutPulseEnd 4 0, .drcSet { pf0 with fn := 33 } 0 drRec,
    .drcSet pf0 65536 drRec, .drcDelete { pf0 with fn := 33 } 0, .drcDelete pf0 65536, .drcMaskSet { pf0 with fn := 33 } 0 0 0 [],
    .drcMaskSet pf0 65536 0 0 [], .drcMaskSet pf0 0 256 0 [], .drcMaskSet pf0 0 0 65536 [], .drcTrigger { pf0 with fn := 33 } 0 0 0,
    .drcTrigger pf0 65536 0 0, .drcTrigger pf0 0 (2 ^ 48) 0, .drcTrigger pf0 0 0 (2 ^ 32), .drcArm { pf0 with fn := 33 } 0,
    .drcArm pf0 65536, .drcStop { pf0 with fn := 33 } 0, .drcStop pf0 65536, .drcList { pf0 with fn := 33 } 0, .drcList pf0 65536,
    .drcRead { pf0 with fn := 33 } 0 0 0 0].all (fun (i : Instr) => !i.wf) = true := by decide +kernel

/-- Commands and events with one operand past its bound are not well formed. -/
theorem test_wf_refuses_6 : [
    .drcRead pf0 65536 0 0 0, .drcRead pf0 0 65536 0 0, .drcRead pf0 0 0 (2 ^ 32) 0, .drcRead pf0 0 0 0 (2 ^ 32),
    .drcExport { pf0 with fn := 33 } 0 0, .drcExport pf0 65536 0, .drcExport pf0 0 65536, .drcRelease { pf0 with fn := 33 } 0 0,
    .drcRelease pf0 65536 0, .drcRelease pf0 0 65536, .celRead { pf0 with fn := 33 } 0 0 [], .celRead pf0 (2 ^ 64) 0 [],
    .celRead pf0 0 (2 ^ 32) [], .celFlush { pf0 with fn := 33 }, .celChallenge { pf0 with fn := 33 },
    .celClear { pf0 with fn := 33 } 0 0 0, .celClear pf0 65536 0 0, .celClear pf0 0 (2 ^ 64) 0, .lgrRead { pf0 with fn := 33 } 0 0,
    .lgrRead pf0 65536 0, .lgrRead pf0 0 65536, .lgrAssign { pf0 with fn := 33 } 0 0, .lgrAssign pf0 65536 0, .lgrAssign pf0 0 65536,
    .lgrAdd { pf0 with fn := 33 } 0 0, .lgrAdd pf0 65536 0, .lgrAdd pf0 0 (2 ^ 64), .trngHealthFail 256 0,
    .srmQuery { pf0 with fn := 33 }, .srmLcChallenge { pf0 with fn := 33 }, .srmLcAdvance { pf0 with fn := 33 } 0 0 0 0,
    .srmLcAdvance pf0 256 0 0 0, .srmKeyGenerate { pf0 with fn := 33 } 0 0 0 0, .srmKeyGenerate pf0 256 0 0 0,
    .srmKeyGenerate pf0 0 256 0 0, .srmKeyGenerate pf0 0 0 (2 ^ 32) 0, .srmKeyGenerate pf0 0 0 0 (2 ^ 64),
    .srmKeyLoad { pf0 with fn := 33 } 0 blob, .srmKeyLoad pf0 256 blob, .srmKeyLoadClear { pf0 with fn := 33 } 0 0 0 0 0,
    .srmKeyLoadClear pf0 256 0 0 0 0, .srmKeyLoadClear pf0 0 256 0 0 0, .srmKeyLoadClear pf0 0 0 (2 ^ 32) 0 0,
    .srmKeyLoadClear pf0 0 0 0 (2 ^ 64) 0, .srmKeyImport { pf0 with fn := 33 } 0 0 0 0 0 0, .srmKeyImport pf0 256 0 0 0 0 0,
    .srmKeyImport pf0 0 256 0 0 0 0, .srmKeyImport pf0 0 0 256 0 0 0, .srmKeyImport pf0 0 0 0 (2 ^ 32) 0 0,
    .srmKeyImport pf0 0 0 0 0 (2 ^ 64) 0, .srmKeyDerive { pf0 with fn := 33 } 0 0 0 0 0, .srmKeyDerive pf0 256 0 0 0 0,
    .srmKeyDerive pf0 0 256 0 0 0, .srmKeyDerive pf0 0 0 (2 ^ 32) 0 0, .srmKeyDerive pf0 0 0 0 (2 ^ 64) 0,
    .srmKeyReplace { pf0 with fn := 33 } 0 0 0 none 0 blob 0 false 0, .srmKeyReplace pf0 256 0 0 none 0 blob 0 false 0,
    .srmKeyReplace pf0 0 256 0 none 0 blob 0 false 0, .srmKeyReplace pf0 0 0 256 none 0 blob 0 false 0,
    .srmKeyReplace pf0 0 0 0 none (2 ^ 32) blob 0 false 0].all (fun (i : Instr) => !i.wf) = true := by decide +kernel

/-- Commands and events with one operand past its bound are not well formed. -/
theorem test_wf_refuses_7 : [
    .srmKeyUnload { pf0 with fn := 33 } 0 false, .srmKeyUnload pf0 256 false, .srmKeyAttr { pf0 with fn := 33 } 0 0,
    .srmKeyAttr pf0 256 0, .srmKeyAttr pf0 0 (2 ^ 64), .srmKeyInfo { pf0 with fn := 33 } 0, .srmKeyInfo pf0 256,
    .srmKeyExport { pf0 with fn := 33 } 0 0, .srmKeyExport pf0 256 0, .srmKeyExport pf0 0 256,
    .srmCrypt { pf0 with fn := 33 } 0 0 { len := 0 }, .srmCrypt pf0 256 0 { len := 0 }, .srmCrypt pf0 0 256 { len := 0 },
    .srmRandom { pf0 with fn := 33 } 0, .srmRandom pf0 65536, .srmAttestKey { pf0 with fn := 33 } 0 0, .srmAttestKey pf0 256 0,
    .srmAttestKey pf0 0 (2 ^ 128), .srmAttestDevice { pf0 with fn := 33 } 0, .srmAttestDevice pf0 (2 ^ 128),
    .srmIdentity { pf0 with fn := 33 }, .srmDebugUnlock { pf0 with fn := 33 } 0,
    .canFrameReceive 4 { ident := 1, dlc := 0, data := [] } 0 false 0 0 0, .canFrameEnd 4 0 (.acked 0) 0 0 none 0,
    .canFrameEnd 0 128 (.acked 0) 0 0 none 0, .canSlotInstant 4 0 0 0, .canSlotInstant 0 64 0 0, .canSlotInstant 0 0 32 0,
    .canSlotWindowExpiry 4 0 0 0, .canSlotWindowExpiry 0 64 0 0, .canSlotWindowExpiry 0 0 32 0, .canSupervisionExpiry 4 0 0,
    .canSupervisionExpiry 0 128 0, .canRecoveryDone 4 0, .fbBufSet { pf0 with fn := 33 } 0 0 canRec, .fbBufSet pf0 256 0 canRec,
    .fbBufSet pf0 0 256 canRec, .fbSchedSet { pf0 with fn := 33 } 0 0 0 [], .fbSchedSet pf0 256 0 0 [], .fbSchedSet pf0 0 (2 ^ 32) 0 [],
    .fbSchedSet pf0 0 0 (2 ^ 32) [], .fbTx { pf0 with fn := 33 } 0 0 [], .fbTx pf0 256 0 [], .fbTx pf0 0 256 [],
    .fbCancel { pf0 with fn := 33 } 0 0 false, .fbCancel pf0 256 0 false, .fbCancel pf0 0 256 false, .fbBufRead { pf0 with fn := 33 } 0 0,
    .fbBufRead pf0 256 0, .fbBufRead pf0 0 256, .fbRecover { pf0 with fn := 33 } 0, .fbRecover pf0 256,
    .errorReport (2 ^ 32) 0 .nothing 0, .errorReport 0 256 .nothing 0, .selfTestDone (2 ^ 32) false 0, .islandRelockTimeout 31 0,
    .fltList { pf0 with fn := 33 }, .fltUnitRetest { pf0 with fn := 33 } 0, .fltUnitRetest pf0 (2 ^ 32),
    .fltInject { pf0 with fn := 33 } 0 0].all (fun (i : Instr) => !i.wf) = true := by decide +kernel

/-- Commands and events with one operand past its bound are not well formed. -/
theorem test_wf_refuses_8 : [
    .fltInject pf0 (2 ^ 32) 0, .fltInject pf0 0 256, .coldStart { startIn with bootSel := 4 } 0,
    .warmStart { startIn with bootSel := 4 } 0, .devRestart { pf0 with fn := 33 } false, .devImageWrite { pf0 with fn := 33 } 0 0 {} 0,
    .devImageWrite pf0 (2 ^ 32) 0 {} 0, .devImageWrite pf0 0 (2 ^ 32) {} 0, .devImageCommit { pf0 with fn := 33 } 0,
    .devImageCommit pf0 256, .devImageConfirm { pf0 with fn := 33 }, .devBootQuery { pf0 with fn := 33 },
    .trialBootTimeout { startIn with bootSel := 4 } 0, .pwrfailNRise { startIn with bootSel := 4 } 0,
    .thermalRecover { startIn with bootSel := 4 } 0, .sramScrub (2 ^ 32) 0 0, .sramScrub 0 3 0, .islandPllRelock 31 0].all (fun (i : Instr) => !i.wf) = true := by decide +kernel

/-- An entry of 64 octets and descriptors of 32 are well formed; fewer octets, or a number above 255, are not. -/
theorem test_wf_refuses_octets : (Instr.commandFetch 32 (octets64 0 1 0x100) false).wf = true ∧
    [.commandFetch 32 (List.replicate 63 0) false, .commandFetch 32 (List.replicate 63 0 ++ [256]) false, .vnicRxFrame 32 [List.replicate 31 0],
      .vnicRxFrame 32 [descOctets 0 128, List.replicate 31 0 ++ [256]]].all (fun (i : Instr) => !i.wf) = true ∧
    (Instr.vnicRxFrame 32 [descOctets 0 128]).wf = true := by decide +kernel

/-! ### Witnesses: for each clause of each statement, what meets its hypotheses -/


theorem test_meets_StepRunsFrontCommand_StepRunsFrontCommand_0 : ∃ (s : State) (i : Instr) (rest : List Instr),
    s.pending = i :: rest :=
  ⟨{ State.reset with pending := [.devNop pf0] }, .devNop pf0, [],
    by decide +kernel⟩

theorem test_meets_IdleStepIsOneTick_IdleStepIsOneTick_0 : ∃ (s : State),
    s.pending = [] :=
  ⟨up run,
    by decide +kernel⟩

theorem test_meets_ringHostWrite_RingRowsComplete_0 : ∃ (s : State) (fn ring : Nat) (count : Word),
    s.Hosts fn ∧
    fn < 33 ∧
    ring < 4 ∧
    ((s.run.fn fn).ring ring).badCount ring count = false :=
  ⟨up run, 32, 3, 16,
    by decide +kernel⟩

theorem test_meets_cmdEnableRise_RingRowsComplete_1 : ∃ (s : State) (fn : Nat),
    s.Hosts fn ∧
    (s.run.fn fn).cmdEn = false ∧
    fn < 33 :=
  ⟨up run, 0,
    by decide +kernel⟩

theorem test_meets_cmdEnableFall_RingRowsComplete_2 : ∃ (s : State) (fn : Nat),
    s.Up ∧
    fn < 33 :=
  ⟨up run, 0,
    by decide +kernel⟩

theorem test_meets_evtEnableRise_RingRowsComplete_3 : ∃ (s : State) (fn : Nat),
    s.Hosts fn ∧
    (s.run.fn fn).evtEn = false ∧
    fn < 33 :=
  ⟨up run, 0,
    by decide +kernel⟩

theorem test_meets_evtEnableFall_RingRowsComplete_4 : ∃ (s : State) (fn : Nat),
    s.Up ∧
    fn < 33 :=
  ⟨up run, 0,
    by decide +kernel⟩

theorem test_meets_vnicEnableRise_RingRowsComplete_5 : ∃ (s : State) (fn : Nat),
    s.Hosts fn ∧
    (s.run.fn fn).vnicEn = false ∧
    fn < 33 :=
  ⟨up run, 0,
    by decide +kernel⟩

theorem test_meets_vnicEnableFall_RingRowsComplete_6 : ∃ (s : State) (fn : Nat),
    s.Up ∧
    fn < 33 :=
  ⟨up run, 0,
    by decide +kernel⟩

theorem test_meets_commandFetch_IntakeAndPostingComplete_0 : ∃ (s : State) (fn : Nat) (octets : List Nat),
    s.Up ∧
    fn < 33 ∧
    s.run.mayFetch s.sys fn = true ∧
    let e := entryOf octets
    e.cseq = (s.run.fn fn).cseqAccepted + 1 :=
  ⟨up ((vnic 1 run)), 0, octets64 0 1 0x100,
    by decide +kernel⟩

theorem test_meets_eventRingPost_IntakeAndPostingComplete_1 : ∃ (s : State) (fn : Nat) (p : Post) (rest : List Post),
    s.Up ∧
    (s.run.fn fn).post = p :: rest ∧
    s.run.mayPost fn = true :=
  ⟨up ((vnic 1 run).modFn 0 fun f => { f with ring1 := { host := 0 }, post := [.loss 1 2 3] }), 0, .loss 1 2 3, [],
    by decide +kernel⟩

theorem test_meets_imaskWrite_RegisterRowsComplete_0 : ∃ (s : State) (fn index : Nat) (value : Word),
    s.Hosts fn ∧
    fn < 33 ∧
    index < 32 :=
  ⟨up run, 32, 31, 0,
    by decide +kernel⟩

theorem test_meets_registerWrite_RegisterRowsComplete_1 : ∃ (s : State) (fn offset value : Nat),
    s.Hosts fn ∧
    ¬ (fn = 0 ∧ offset = 0x100008) :=
  ⟨up run, 0, 0x108, 0,
    by decide +kernel⟩

theorem test_meets_registerWrite_RegisterRowsComplete_2 : ∃ (s : State) (value : Nat),
    s.Linked :=
  ⟨up run, 0,
    by decide +kernel⟩

theorem test_meets_reg64LowRead_RegisterRowsComplete_3 : ∃ (s : State) (fn offset v : Nat),
    s.Hosts fn ∧
    (s.run.hostAccess fn).reg64 fn offset = some v ∧
    ¬ (fn = 0 ∧ 0x180000 ≤ offset ∧ offset < 0x1A0000) :=
  ⟨up run, 0, 0x148000, 0,
    by decide +kernel⟩

theorem test_meets_reg64LowRead_RegisterRowsComplete_4 : ∃ (s : State) (fn offset v : Nat),
    s.Hosts fn ∧
    (s.run.hostAccess fn).reg64 fn (offset + 4) = none ∧
    ¬ (fn = 0 ∧ 0x180000 ≤ offset ∧ offset < 0x1A0000) ∧
    offset % 8 = 0 ∧
    tabGet (s.run.fn fn).latch offset = some v :=
  ⟨up (run.modFn 0 fun f => { f with latch := [(0x148000, 5)] }), 0, 0x148000, 5,
    by decide +kernel⟩

theorem test_meets_reg64LowRead_RegisterRowsComplete_5 : ∃ (s : State) (fn offset : Nat),
    s.Hosts fn ∧
    (s.run.hostAccess fn).reg64 fn offset = none ∧
    ¬ (fn = 0 ∧ 0x180000 ≤ offset ∧ offset < 0x1A0000) ∧
    offset % 8 = 0 :=
  ⟨up run, 0, 0x1028,
    by decide +kernel⟩

theorem test_meets_reg64LowRead_RegisterRowsComplete_6 : ∃ (s : State),
    s.Linked :=
  ⟨up run,
    by decide +kernel⟩

theorem test_meets_macCfgWrite_RegisterRowsComplete_7 : ∃ (s : State) (n : Nat) (value : Word),
    s.Up ∧
    n < 64 ∧
    macCfgBad n value.toNat = false ∧
    s.sys.locked = false :=
  ⟨up run, 63, BitVec.ofNat 32 (2000 * 2 ^ 16 + 0x40),
    by decide +kernel⟩

theorem test_meets_macCfgWrite_RegisterRowsComplete_8 : ∃ (s : State) (n : Nat) (value : Word),
    s.Up ∧
    n < 64 ∧
    macCfgBad n value.toNat = false ∧
    s.sys.locked = true :=
  ⟨device (fun x => { x with locked := true }) (up run), 0, BitVec.ofNat 32 (2000 * 2 ^ 16),
    by decide +kernel⟩

theorem test_meets_txThreshBaseWrite_RegisterRowsComplete_9 : ∃ (s : State) (n base : Nat),
    s.Up ∧
    threshOk base = true :=
  ⟨up run, 0, 2048,
    by decide +kernel⟩

theorem test_meets_txThreshRestore_RegisterRowsComplete_10 : ∃ (s : State) (n : Nat),
    s.Up :=
  ⟨up run, 0,
    by decide +kernel⟩

theorem test_meets_snapTake_RegisterRowsComplete_11 : ∃ (s : State),
    s.Up ∧
    s.run.sw.snapAt = none :=
  ⟨up run,
    by decide +kernel⟩

theorem test_meets_tsuNowNsRead_RegisterRowsComplete_12 : ∃ (s : State) (fn dt : Nat),
    s.Up ∧
    (s.sys.phase = .recovery → fn = 0) :=
  ⟨up run, 0, 0,
    by decide +kernel⟩

theorem test_meets_tsuTxqPopRead_RegisterRowsComplete_13 : ∃ (s : State) (q : Nat) (e : TxStamp) (rest : List TxStamp),
    s.Up ∧
    (tabGetD s.run.tsu.txq q {}).entries = e :: rest :=
  ⟨up (run.modTsu fun t => { t with txq := [(0, { entries := [{ kind := 1, tq := 0, port := 0, id := 7, time := 5 }] })] }), 0, { kind := 1, tq := 0, port := 0, id := 7, time := 5 }, [],
    by decide +kernel⟩

theorem test_meets_devNop_DeviceCommandsComplete_0 : ∃ (s : State) (c : Cmd) (a : Accepted),
    s.Ready { op := 0x0100, pf0 := false, recovery := true } c a :=
  ⟨st 0x0100 noInst run, pf0, acc 0x0100 noInst,
    by decide +kernel⟩

theorem test_meets_devIdentify_DeviceCommandsComplete_1 : ∃ (s : State) (c : Cmd) (a : Accepted),
    s.Ready { op := 0x0101, pf0 := false, recovery := true } c a :=
  ⟨st 0x0101 noInst run, pf0, acc 0x0101 noInst,
    by decide +kernel⟩

theorem test_meets_devReplayCompletions_DeviceCommandsComplete_2 : ∃ (s : State) (c : Cmd) (a : Accepted) (start : Word),
    s.Ready { op := 0x0102, pf0 := false } c a ∧
    ((s.run.fn c.fn).cseqAccepted + 1 - start).toNat ≤ 256 :=
  ⟨st 0x0102 noInst run, pf0, acc 0x0102 noInst, 0,
    by decide +kernel⟩

theorem test_meets_devReplayEvents_DeviceCommandsComplete_3 : ∃ (s : State) (c : Cmd) (a : Accepted) (start : Word),
    s.Ready { op := 0x0103, pf0 := false } c a ∧
    ((s.run.fn c.fn).eseqRaised + 1 - start).toNat ≤ 4096 :=
  ⟨st 0x0103 noInst run, pf0, acc 0x0103 noInst, 0,
    by decide +kernel⟩

theorem test_meets_devSnapshot_DeviceCommandsComplete_4 : ∃ (s : State) (c : Cmd) (a : Accepted),
    s.Ready { op := 0x0104, pf0 := false } c a ∧
    c.bufErr = false :=
  ⟨st 0x0104 noInst run, pf0, acc 0x0104 noInst,
    by decide +kernel⟩

theorem test_meets_paramGet_ParameterAndConfigCommandsComplete_0 : ∃ (s : State) (c : Cmd) (a : Accepted) (id : Nat) (p : PInfo) (v : Int),
    s.Ready { op := 0x0105, pf0 := false } c a ∧
    paramOf s.sys s.run id = some p ∧
    p.readable c.fn = true ∧
    p.value = some v :=
  ⟨st 0x0105 noInst run, pf0, acc 0x0105 noInst, 0x05FF0001, (paramOf (st 0x0105 noInst run).sys (st 0x0105 noInst run).run 0x05FF0001).getD noPar, 0,
    by decide +kernel⟩

theorem test_meets_paramGet_ParameterAndConfigCommandsComplete_1 : ∃ (s : State) (c : Cmd) (a : Accepted) (ids : List Nat),
    s.Ready { op := 0x0105, pf0 := false } c a ∧
    2 ≤ ids.length ∧
    ids.length ≤ 256 ∧
    16 * ids.length ≤ a.entry.bufLen ∧
    c.bufErr = false :=
  ⟨st 0x0105 noInst run, pf0, acc 0x0105 noInst, [0x05FF0001, 0],
    by decide +kernel⟩

theorem test_meets_paramSet_ParameterAndConfigCommandsComplete_2 : ∃ (s : State) (c : Cmd) (a : Accepted) (records : List ParamRec),
    s.Ready { op := 0x0106, pf0 := false } c a ∧
    1 ≤ records.length ∧
    records.length ≤ 256 ∧
    (∀ x ∈ records, (judgeSet s.sys s.run c.fn x).1 = .ok) ∧
    (records.length = 1 ∨ (16 * records.length ≤ a.entry.bufLen ∧ c.bufErr = false)) :=
  ⟨st 0x0106 noInst run, pf0, acc 0x0106 noInst, [{ ident := 0x01FF0004, type := 2, value := 1 }],
    by decide +kernel⟩

theorem test_meets_paramDescribe_ParameterAndConfigCommandsComplete_3 : ∃ (s : State) (c : Cmd) (a : Accepted) (id : Nat) (p : PInfo),
    s.Ready { op := 0x0107, pf0 := false } c a ∧
    paramOf s.sys s.run id = some p ∧
    p.readable c.fn = true ∧
    8 ≤ a.entry.bufLen ∧
    c.bufErr = false :=
  ⟨st 0x0107 noInst run, pf0, acc 0x0107 noInst, 0x05FF0001, (paramOf (st 0x0107 noInst run).sys (st 0x0107 noInst run).run 0x05FF0001).getD noPar,
    by decide +kernel⟩

theorem test_meets_devCommit_ParameterAndConfigCommandsComplete_4 : ∃ (s : State) (c : Cmd) (a : Accepted),
    s.Ready { op := 0x010B, pf0 := true } c a ∧
    stagedBad s.sys s.run = false :=
  ⟨st 0x010B noInst run, pf0, acc 0x010B noInst,
    by decide +kernel⟩

theorem test_meets_devUnlock_ParameterAndConfigCommandsComplete_5 : ∃ (s : State) (c : Cmd) (a : Accepted),
    s.Ready { op := 0x010C, pf0 := true } c a :=
  ⟨st 0x010C noInst run, pf0, acc 0x010C noInst,
    by decide +kernel⟩

theorem test_meets_dirtyLogStart_DirtyLogCommandsComplete_0 : ∃ (s : State) (c : Cmd) (a : Accepted) (m base length bitmapA bitmapB : Nat),
    s.Ready { op := 0x0108, pf0 := true } c a ∧
    dirtyArgsOk m base length bitmapA bitmapB = true ∧
    (s.run.fn m).dirty = none :=
  ⟨st 0x0108 noInst run, pf0, acc 0x0108 noInst, 32, 0, 32768, 0, 0,
    by decide +kernel⟩

theorem test_meets_dirtyLogSync_DirtyLogCommandsComplete_1 : ∃ (s : State) (c : Cmd) (a : Accepted) (m : Nat) (d : DirtyLog),
    s.Ready { op := 0x0109, pf0 := true } c a ∧
    1 ≤ m ∧
    m ≤ 32 ∧
    (s.run.fn m).dirty = some d :=
  ⟨st 0x0109 noInst (run.modFn 32 fun f => { f with dirty := some { base := 0, length := 32768, bitmapA := 0, bitmapB := 0 } }), pf0, acc 0x0109 noInst, 32, { base := 0, length := 32768, bitmapA := 0, bitmapB := 0 },
    by decide +kernel⟩

theorem test_meets_dirtyLogStop_DirtyLogCommandsComplete_2 : ∃ (s : State) (c : Cmd) (a : Accepted) (m : Nat) (freeze : Bool) (d : DirtyLog),
    s.Ready { op := 0x010A, pf0 := true } c a ∧
    1 ≤ m ∧
    m ≤ 32 ∧
    (s.run.fn m).dirty = some d :=
  ⟨st 0x010A noInst (run.modFn 1 fun f => { f with dirty := some { base := 0, length := 32768, bitmapA := 0, bitmapB := 0 } }), pf0, acc 0x010A noInst, 1, false, { base := 0, length := 32768, bitmapA := 0, bitmapB := 0 },
    by decide +kernel⟩

theorem test_meets_vnicRxFrame_VirtualNicRowsComplete_0 : ∃ (s : State) (fn : Nat) (octets : List (List Nat)) (x : Queued) (rest : List Queued) (h : Held),
    s.Up ∧
    fn < 33 ∧
    let descs := octets.map rxDescOf
    (s.run.fn fn).vnicEn = true ∧
    (s.run.fn fn).frozen = false ∧
    (s.run.fn fn).ring2.err = false ∧
    descs ≠ [] ∧
    descs.length ≤ (s.run.fn fn).ring2.waiting ∧
    tabGetD s.run.sw.hostQ fn [] = x :: rest ∧
    s.run.held x.fid = some h ∧
    h.complete = true ∧
    (descs.length = (s.run.fn fn).ring2.waiting ∨ egressLen h.frame x ≤ (descs.map (·.len)).sum) :=
  ⟨up ((vnic 1 run).modSw fun w => { w with hostQ := [(0, [{ fid := 0 }])], frames := [(0, held)] }), 0, [descOctets 0 128], { fid := 0 }, [], held,
    by decide +kernel⟩

theorem test_meets_vnicTxFrame_VirtualNicRowsComplete_1 : ∃ (s : State) (fn : Nat) (octets : List (List Nat)) (frame : Frame) (l : List TxDesc) (r : Run),
    s.Up ∧
    fn < 33 ∧
    (s.run.fn fn).vnicEn = true ∧
    (s.run.fn fn).frozen = false ∧
    (s.run.fn fn).ring3.err = false ∧
    frameDescs (octets.map txDescOf) = some l ∧
    l.length ≤ (s.run.fn fn).ring3.waiting ∧
    (l.map (·.len)).sum ≤ 1996 ∧
    s.run.vnicSend fn { frame with len := (l.map (·.len)).sum } = (r, true) :=
  ⟨up ((vnic 1 run)), 0, [leOctets 8 0 ++ leOctets 2 60 ++ leOctets 2 3 ++ List.replicate 20 0], frame, [{ addr := 0, len := 60, sof := true, eof := true }], ((up (vnic 1 run)).run.vnicSend 0 { frame with len := 60 }).1,
    by decide +kernel, by decide +kernel, by decide +kernel, by decide +kernel, by decide +kernel, by decide +kernel, by decide +kernel, by decide +kernel, pair_of (by decide +kernel)⟩

theorem test_meets_vnicTxFrame_VirtualNicRowsComplete_2 : ∃ (s : State) (fn : Nat) (octets : List (List Nat)) (frame : Frame) (l : List TxDesc) (dmaErr : Bool),
    s.Up ∧
    fn < 33 ∧
    (s.run.fn fn).vnicEn = true ∧
    (s.run.fn fn).frozen = false ∧
    (s.run.fn fn).ring3.err = false ∧
    frameDescs (octets.map txDescOf) = some l ∧
    l.length ≤ (s.run.fn fn).ring3.waiting ∧
    (dmaErr = true ∨ 1996 < (l.map (·.len)).sum) :=
  ⟨up ((vnic 1 run)), 0, [leOctets 8 0 ++ leOctets 2 1997 ++ leOctets 2 3 ++ List.replicate 20 0], frame, [{ addr := 0, len := 1997, sof := true, eof := true }], false,
    by decide +kernel⟩

theorem test_meets_functionLevelReset_HostInterfaceResetsComplete_0 : ∃ (s : State) (fn : Nat),
    s.Up ∧
    1 ≤ fn ∧
    fn < 33 :=
  ⟨up run, 32,
    by decide +kernel⟩

theorem test_meets_functionLevelReset_HostInterfaceResetsComplete_1 : ∃ (s : State),
    s.Up :=
  ⟨up run,
    by decide +kernel⟩

theorem test_meets_pcieLinkLoss_HostInterfaceResetsComplete_2 : ∃ (s : State),
    s.Up :=
  ⟨up run,
    by decide +kernel⟩

theorem test_meets_d3hotEntry_HostInterfaceResetsComplete_3 : ∃ (s : State) (fn : Nat),
    s.Up ∧
    fn < 33 :=
  ⟨up run, 0,
    by decide +kernel⟩

theorem test_meets_perstNFall_HostInterfaceResetsComplete_4 : ∃ (s : State),
    s.Up :=
  ⟨up run,
    by decide +kernel⟩

theorem test_meets_instCreate_InstanceCommandsComplete_0 : ∃ (s : State) (c : Cmd) (a : Accepted) (n sl ci ig rank : Nat),
    s.Ready { op := 0x0200, pf0 := true } c a ∧
    a.target = some n ∧
    (s.run.inst n).phase = .free ∧
    sl ≤ 1024 ∧
    ci ≤ 1024 ∧
    ig ≤ 1024 ∧
    rank ≤ 255 ∧
    s.run.sharesFit n { sluice := sl, cistern := ci, ingest := ig } = true :=
  ⟨st 0x0200 0 run, pf0, acc 0x0200 0, 0, 1024, 1024, 1024, 255,
    by decide +kernel⟩

theorem test_meets_instDestroy_InstanceCommandsComplete_1 : ∃ (s : State) (c : Cmd) (a : Accepted) (n : Nat),
    s.Ready { op := 0x0201, pf0 := true } c a ∧
    a.target = some n ∧
    ((s.run.inst n).phase = .idle ∨ (s.run.inst n).phase = .ready ∨ (s.run.inst n).phase = .shed) ∧
    s.run.latchHeld n = false :=
  ⟨st 0x0201 0 (inst .idle run), pf0, acc 0x0201 0, 0,
    by decide +kernel⟩

theorem test_meets_instCommit_InstanceCommandsComplete_2 : ∃ (s : State) (c : Cmd) (a : Accepted) (n : Nat),
    s.Ready { op := 0x0202, pf0 := false } c a ∧
    a.target = some n ∧
    s.run.commitTurn c.fn c.cseq = true ∧
    ((s.run.inst n).phase = .idle ∨ (s.run.inst n).phase = .ready ∨ ((s.run.inst n).phase = .active ∧ (s.run.slcOf n).staged = none ∧ (s.run.cleOf n).newImage = (s.run.cleOf n).image)) ∧
    s.run.commitDefect n (s.sys.drLaid * 2 ^ 30) = none ∧
    let claims := s.run.claimsOf n (s.run.newGraph n) (s.run.cleOf n).newImage
    s.run.conflicts n s.run.trip.ballMux claims = [] ∧
    let x := (s.run.trialOf n).1.admission (some (n, (s.run.trialOf n).2))
    x.refusals = [] :=
  ⟨st 0x0202 0 (inst .idle run), pf0, acc 0x0202 0, 0,
    by decide +kernel⟩

theorem test_meets_instCommit_InstanceCommandsComplete_3 : ∃ (s : State) (c : Cmd) (a : Accepted) (n : Nat),
    s.Ready { op := 0x0202, pf0 := false } c a ∧
    a.target = some n ∧
    s.run.commitTurn c.fn c.cseq = true ∧
    (s.run.inst n).phase = .active ∧
    ((s.run.slcOf n).staged ≠ none ∨ (s.run.cleOf n).newImage ≠ (s.run.cleOf n).image) ∧
    s.run.commitDefect n (s.sys.drLaid * 2 ^ 30) = none ∧
    let claims := s.run.claimsOf n (s.run.newGraph n) (s.run.cleOf n).newImage
    s.run.conflicts n s.run.trip.ballMux claims = [] ∧
    let x := (s.run.trialOf n).1.admission (some (n, (s.run.trialOf n).2))
    x.refusals = [] :=
  ⟨st 0x0202 0 ((inst .active run).modSluice fun x => { x with insts := [(0, { staged := some (some graph) })] }), pf0, acc 0x0202 0, 0,
    by decide +kernel⟩

theorem test_meets_instStart_InstanceCommandsComplete_4 : ∃ (s : State) (c : Cmd) (a : Accepted) (n : Nat),
    s.Ready { op := 0x0203, pf0 := true } c a ∧
    a.target = some n ∧
    (s.run.inst n).phase = .ready ∧
    s.run.srm.startRefused = false :=
  ⟨st 0x0203 0 (inst .ready run), pf0, acc 0x0203 0, 0,
    by decide +kernel⟩

theorem test_meets_instSetShare_InstanceCommandsComplete_5 : ∃ (s : State) (c : Cmd) (a : Accepted) (n resource share : Nat),
    s.Ready { op := 0x0206, pf0 := true } c a ∧
    a.target = some n ∧
    (s.run.inst n).phase ≠ .free ∧
    resource ≤ 2 ∧
    share ≤ 1024 ∧
    s.run.sharesFit n ((s.run.inst n).granted.put resource share) = true :=
  ⟨st 0x0206 0 (inst .idle run), pf0, acc 0x0206 0, 0, 2, 1024,
    by decide +kernel⟩

theorem test_meets_instSetRank_InstanceCommandsComplete_6 : ∃ (s : State) (c : Cmd) (a : Accepted) (n rank : Nat),
    s.Ready { op := 0x0207, pf0 := true } c a ∧
    a.target = some n ∧
    (s.run.inst n).phase ≠ .free ∧
    rank ≤ 255 :=
  ⟨st 0x0207 0 (inst .idle run), pf0, acc 0x0207 0, 0, 0,
    by decide +kernel⟩

theorem test_meets_instResume_InstanceCommandsComplete_7 : ∃ (s : State) (c : Cmd) (a : Accepted) (n : Nat),
    s.Ready { op := 0x0208, pf0 := true } c a ∧
    a.target = some n ∧
    (s.run.inst n).phase = .shed ∧
    let x := s.run.admission (some (n, (s.run.slcOf n).graph))
    x.refusals = [] :=
  ⟨st 0x0208 0 (inst .shed run), pf0, acc 0x0208 0, 0,
    by decide +kernel⟩

theorem test_meets_instQuery_InstanceCommandsComplete_8 : ∃ (s : State) (c : Cmd) (a : Accepted) (n : Nat),
    s.Ready { op := 0x0209, pf0 := false } c a ∧
    a.target = some n :=
  ⟨st 0x0209 0 run, pf0, acc 0x0209 0, 0,
    by decide +kernel⟩

theorem test_meets_instStop_InstanceResetRowsComplete_0 : ∃ (s : State) (c : Cmd) (a : Accepted) (n : Nat),
    s.Ready { op := 0x0204, pf0 := false } c a ∧
    a.target = some n ∧
    (s.run.inst n).phase = .active :=
  ⟨st 0x0204 0 (inst .active run), pf0, acc 0x0204 0, 0,
    by decide +kernel⟩

theorem test_meets_instReset_InstanceResetRowsComplete_1 : ∃ (s : State) (c : Cmd) (a : Accepted) (n : Nat) (warm : Bool),
    s.Ready { op := 0x0205, pf0 := true } c a ∧
    a.target = some n ∧
    ((s.run.inst n).phase = .ready ∨ (s.run.inst n).phase = .active ∨ (s.run.inst n).phase = .shed) :=
  ⟨st 0x0205 0 (inst .ready run), pf0, acc 0x0205 0, 0, false,
    by decide +kernel⟩

theorem test_meets_instResetDone_InstanceResetRowsComplete_2 : ∃ (s : State) (n dt : Nat),
    s.Running ∧
    (s.run.inst n).phase = .resetting ∧
    s.run.instQuiet n = true :=
  ⟨up (inst .resetting run), 0, 0,
    by decide +kernel⟩

theorem test_meets_accountingPeriod_InstanceResetRowsComplete_3 : ∃ (s : State) (dt : Nat),
    s.Running ∧
    (s.run.pass dt).passed 1000000 0 = true :=
  ⟨up run, 0,
    by decide +kernel⟩

theorem test_meets_macFrameReceive_PortRowsComplete_0 : ∃ (s : State) (n fid : Nat) (f : Frame) (v : RxVerdict) (dt : Nat),
    s.Running ∧
    (s.run.port n).enable = true ∧
    (s.run.port n).link = true :=
  ⟨up (linked run), 63, 0, frame, {}, 0,
    by decide +kernel⟩

theorem test_meets_macFrameTransmit_PortRowsComplete_1 : ∃ (s : State) (n q : Nat) (t : TxStep) (dt : Nat),
    s.Running ∧
    let r := ((s.run.pass dt).settlePort n).takeCells t.present
    let r' := (List.range 8).foldl (fun (r : Run) (q : Nat) => r.dropLong ((r.port n).queue q).length n q) r
    (r.port n).link = true ∧
    (r.port n).enable = true ∧
    (r.port n).sending = none ∧
    r'.pickQueue n t.present = some q :=
  ⟨up (((linked run).modPort 0 fun p => p.setQueue 0 [{ fid := 0 }]).modSw fun w => { w with frames := [(0, held)] }), 0, 0, {}, 0,
    by decide +kernel⟩

theorem test_meets_macFrameTransmit_PortRowsComplete_2 : ∃ (s : State) (n q : Nat) (x : Queued) (t : TxStep) (dt : Nat),
    s.Running ∧
    let r := ((s.run.pass dt).settlePort n).takeCells t.present
    (r.port n).link = true ∧
    (r.port n).enable = true ∧
    (r.port n).sending = some (q, x) :=
  ⟨up ((linked run).modPort 0 fun p => { p with sending := some (0, { fid := 0 }) }), 0, 0, { fid := 0 }, {}, 0,
    by decide +kernel⟩

theorem test_meets_linkDown_PortRowsComplete_3 : ∃ (s : State) (n : Nat) (rx : Option (Nat × Frame)) (dt : Nat),
    s.Running ∧
    (s.run.port n).link = true :=
  ⟨up (linked run), 0, none, 0,
    by decide +kernel⟩

theorem test_meets_linkUp_PortRowsComplete_4 : ∃ (s : State) (n speed : Nat) (half : Bool) (dt : Nat),
    s.Running ∧
    n < 64 ∧
    let r := if (s.run.pass dt).holdOver n then (s.run.pass dt).holdExpires n else s.run.pass dt
    let p := r.port n
    let speed' := match p.mode with | 1 => 2 | 3 => 5 | 4 => 6 | _ => speed
    p.enable = true ∧
    p.link = false ∧
    r.portHeld n = false ∧
    (speedsOf p.mode).contains speed' = true ∧
    (half = false ∨ p.mode = 3 ∨ p.mode = 4) :=
  ⟨up (ports (fun p => { p with enable := true }) run), 59, 2, false, 0,
    by decide +kernel⟩

theorem test_meets_linkHoldExpiry_PortRowsComplete_5 : ∃ (s : State) (n dt : Nat),
    s.Running ∧
    let r := s.run.pass dt
    let p := r.port n
    p.holding = true ∧
    p.link = false ∧
    (p.holdSince + usTicks (100 * p.hold)) * 400 / islandPeriod n ≤ r.cyclesOf n :=
  ⟨up (ports (fun p => { p with holding := true }) run), 0, 1250000,
    by decide +kernel⟩

theorem test_meets_portEnableFall_PortRowsComplete_6 : ∃ (s : State) (n dt : Nat),
    s.Running ∧
    (s.run.port n).enable = true :=
  ⟨up (linked run), 0, 0,
    by decide +kernel⟩

theorem test_meets_snapshotLatch_SnapshotRowsComplete_0 : ∃ (s : State) (dt : Nat) (t : Instant),
    s.Up ∧
    s.run.sw.snapAt = some t ∧
    t ≤ (s.run.pass dt).now :=
  ⟨up (run.modSw fun w => { w with snapAt := some 0 }), 0, 0,
    by decide +kernel⟩

theorem test_meets_portSnapshot_SnapshotRowsComplete_1 : ∃ (s : State) (c : Cmd) (a : Accepted) (mask : Nat),
    s.Ready { op := 0x0300, pf0 := true } c a ∧
    s.run.sw.snapAt = none ∧
    16 + 256 * (bitsOf 64 mask).length ≤ a.entry.bufLen ∧
    c.bufErr = false :=
  ⟨st 0x0300 noInst run, pf0, acc 0x0300 noInst, 0,
    by decide +kernel⟩

theorem test_meets_portThreshRestore_SnapshotRowsComplete_2 : ∃ (s : State) (c : Cmd) (a : Accepted) (mask : Nat),
    s.Ready { op := 0x0301, pf0 := true } c a :=
  ⟨st 0x0301 noInst run, pf0, acc 0x0301 noInst, 0,
    by decide +kernel⟩

theorem test_meets_frameForward_SwitchEventsComplete_0 : ∃ (s : State) (inp fid : Nat) (f : Frame) (dt : Nat),
    s.Running ∧
    inp < 64 :=
  ⟨up run, 63, 0, frame, 0,
    by decide +kernel⟩

theorem test_meets_frameForward_SwitchEventsComplete_1 : ∃ (s : State) (inp fid : Nat) (f : Frame) (dt : Nat),
    s.Running ∧
    64 ≤ inp ∧
    inp ≤ 67 :=
  ⟨up run, 64, 0, frame, 0,
    by decide +kernel⟩

theorem test_meets_fdbEntryAge_SwitchEventsComplete_2 : ∃ (s : State) (mac vid dt : Nat) (e : FdbEntry),
    s.Running ∧
    (s.run.sw.fdb.find? (fun e => e.mac == mac && e.vid == vid) = some e) ∧
    s.run.sw.live (s.run.pass dt).now e = false :=
  ⟨up (time 300000000001 (run.modSw fun w => { w with fdb := [{ mac := 1, vid := 1, static := false, ports := [0] }] })), 1, 1, 0, { mac := 1, vid := 1, static := false, ports := [0] },
    by decide +kernel⟩

theorem test_meets_nodeEntryForget_SwitchEventsComplete_3 : ∃ (s : State) (pair mac dt : Nat),
    s.Running :=
  ⟨up run, 0, 0, 0,
    by decide +kernel⟩

theorem test_meets_cisternCensus_SwitchEventsComplete_4 : ∃ (s : State) (skew : Int) (dt : Nat),
    s.Running ∧
    s.run.sw.walking = false ∧
    (s.run.pass dt).now / 100000000 ≠ s.run.sw.censusAt :=
  ⟨up (time 100000000 run), 0, 0,
    by decide +kernel⟩

theorem test_meets_cisternCensus_SwitchEventsComplete_5 : ∃ (s : State) (skew : Int) (dt : Nat),
    s.Running ∧
    s.run.sw.walking = true ∧
    (s.run.pass dt).now / 100000000 ≠ s.run.sw.censusAt :=
  ⟨up (time 100000000 (run.modSw fun w => { w with walking := true })), 0, 0,
    by decide +kernel⟩

theorem test_meets_cisternWalkDone_SwitchEventsComplete_6 : ∃ (s : State) (orphans : Nat) (doubles : List (Nat × Nat)) (dt : Nat),
    s.Running ∧
    s.run.sw.walking = true :=
  ⟨up (run.modSw fun w => { w with walking := true }), 0, [], 0,
    by decide +kernel⟩

theorem test_meets_supervisionSend_SwitchEventsComplete_7 : ∃ (s : State) (pair dt : Nat),
    s.Running ∧
    s.run.sw.mode pair ≠ 0 ∧
    (∀ t, tabGet s.run.sw.supSentAt pair = some t → t + s.run.sw.lifeCheck * 1000000 ≤ (s.run.pass dt).now) :=
  ⟨up (run.modSw fun w => { w with redMode := [(0, 1)] }), 0, 0,
    by decide +kernel, by decide +kernel, none_all (by decide +kernel)⟩

theorem test_meets_supervisionSilence_SwitchEventsComplete_8 : ∃ (s : State) (pair mac dt : Nat) (b : Bool) (n : Node) (t : Instant),
    s.Running ∧
    s.run.sw.node pair mac = some n ∧
    ((if b then n.supB else n.supA).getD n.since + 3 * s.run.sw.lifeCheck * 1000000 ≤ (s.run.pass dt).now) ∧
    (if b then n.supA else n.supB) = some t ∧
    (s.run.pass dt).now < t + 3 * s.run.sw.lifeCheck * 1000000 :=
  ⟨up (time 6000000001 (run.modSw fun w => { w with nodes := [{ pair := 0, mac := 1, newest := 0, a := {}, b := {}, refreshed := 0, supA := some 6000000000, supB := some 0 }] })), 0, 1, 0, true, { pair := 0, mac := 1, newest := 0, a := {}, b := {}, refreshed := 0, supA := some 6000000000, supB := some 0 }, 6000000000,
    by decide +kernel⟩

theorem test_meets_swVlanSet_SwitchCommandsComplete_0 : ∃ (s : State) (c : Cmd) (a : Accepted) (vid members untagged : Nat),
    s.Ready { op := 0x0302, pf0 := true } c a ∧
    vidOk vid = true :=
  ⟨st 0x0302 noInst run, pf0, acc 0x0302 noInst, 4094, 0, 0,
    by decide +kernel⟩

theorem test_meets_swFdbAdd_SwitchCommandsComplete_1 : ∃ (s : State) (c : Cmd) (a : Accepted) (mac vid ports fns : Nat),
    s.Ready { op := 0x0303, pf0 := true } c a ∧
    vidOk vid = true ∧
    ((s.run.sw.fdb.any fun x => x.mac == mac && x.vid == vid) = true ∨ (s.run.sw.bucket mac vid).length < 8) :=
  ⟨st 0x0303 noInst run, pf0, acc 0x0303 noInst, 0, 4094, 0, 0,
    by decide +kernel⟩

theorem test_meets_swFdbAdd_SwitchCommandsComplete_2 : ∃ (s : State) (c : Cmd) (a : Accepted) (mac vid ports fns : Nat) (old : FdbEntry),
    s.Ready { op := 0x0303, pf0 := true } c a ∧
    vidOk vid = true ∧
    (s.run.sw.fdb.any fun x => x.mac == mac && x.vid == vid) = false ∧
    8 ≤ (s.run.sw.bucket mac vid).length ∧
    oldestLearned (s.run.sw.bucket mac vid) = some old :=
  ⟨st 0x0303 noInst (run.modSw fun w => { w with fdb := [{ mac := 2379, vid := 1, static := false, ports := [] }, { mac := 4757, vid := 1, static := false, ports := [] }, { mac := 7135, vid := 1, static := false, ports := [] }, { mac := 9948, vid := 1, static := false, ports := [] }, { mac := 12182, vid := 1, static := false, ports := [] }, { mac := 13384, vid := 1, static := false, ports := [] }, { mac := 15618, vid := 1, static := false, ports := [] }, { mac := 18180, vid := 1, static := false, ports := [] }] }), pf0, acc 0x0303 noInst, 1, 1, 0, 0, { mac := 2379, vid := 1, static := false, ports := [] },
    by decide +kernel⟩

theorem test_meets_swFdbDel_SwitchCommandsComplete_3 : ∃ (s : State) (c : Cmd) (a : Accepted) (mac vid : Nat),
    s.Ready { op := 0x0304, pf0 := true } c a ∧
    (s.run.sw.fdb.any fun x => x.mac == mac && x.vid == vid && s.run.sw.live s.run.now x) = true :=
  ⟨st 0x0304 noInst (run.modSw fun w => { w with fdb := [{ mac := 1, vid := 1, static := false, ports := [0] }] }), pf0, acc 0x0304 noInst, 1, 1,
    by decide +kernel⟩

theorem test_meets_swFdbFlush_SwitchCommandsComplete_4 : ∃ (s : State) (c : Cmd) (a : Accepted) (vid : Nat) (static : Bool),
    s.Ready { op := 0x0305, pf0 := true } c a ∧
    vid < 4095 :=
  ⟨st 0x0305 noInst run, pf0, acc 0x0305 noInst, 0, false,
    by decide +kernel⟩

theorem test_meets_swFdbRead_SwitchCommandsComplete_5 : ∃ (s : State) (c : Cmd) (a : Accepted),
    s.Ready { op := 0x0306, pf0 := true } c a ∧
    let l := s.run.sw.fdb.filter (s.run.sw.live s.run.now)
    24 * l.length ≤ a.entry.bufLen ∧
    c.bufErr = false :=
  ⟨st 0x0306 noInst run, pf0, acc 0x0306 noInst,
    by decide +kernel⟩

theorem test_meets_swHostVlan_SwitchCommandsComplete_6 : ∃ (s : State) (c : Cmd) (a : Accepted) (m maxPcp defVid : Nat) (vids : List Nat),
    s.Ready { op := 0x0307, pf0 := true, buf := true, need := some (2 * vids.length) } c a ∧
    m ≤ 32 ∧
    maxPcp ≤ 7 ∧
    vidOk defVid = true ∧
    vids.length ≤ 64 ∧
    vids.all vidOk = true :=
  ⟨st 0x0307 noInst run, pf0, acc 0x0307 noInst, 32, 7, 1, [1, 4094],
    by decide +kernel⟩

theorem test_meets_swRedSet_SwitchCommandsComplete_7 : ∃ (s : State) (c : Cmd) (a : Accepted) (j mode : Nat),
    s.Ready { op := 0x0308, pf0 := true } c a ∧
    j < 32 ∧
    mode ≤ 5 ∧
    (s.sys.locked = false ∨ mode = s.run.sw.mode j) ∧
    (s.run.port (2 * j)).mode = (s.run.port (2 * j + 1)).mode ∧
    (s.run.port (2 * j)).maxFrame = (s.run.port (2 * j + 1)).maxFrame ∧
    (mode = 5 → s.run.sw.mode (j ^^^ 1) = 5) ∧
    (s.run.sw.port (2 * j)).trib = false ∧
    (s.run.sw.port (2 * j + 1)).trib = false :=
  ⟨st 0x0308 noInst run, pf0, acc 0x0308 noInst, 0, 0,
    by decide +kernel⟩

theorem test_meets_swNodeRead_SwitchCommandsComplete_8 : ∃ (s : State) (c : Cmd) (a : Accepted) (j : Nat),
    s.Ready { op := 0x0309, pf0 := true } c a ∧
    j < 32 ∧
    let l := s.run.sw.nodes.filter fun n => n.pair == j
    32 * l.length ≤ a.entry.bufLen ∧
    c.bufErr = false :=
  ⟨st 0x0309 noInst run, pf0, acc 0x0309 noInst, 0,
    by decide +kernel⟩

theorem test_meets_swCensusNow_SwitchCommandsComplete_9 : ∃ (s : State) (c : Cmd) (a : Accepted) (skew : Int),
    s.Ready { op := 0x030A, pf0 := true } c a ∧
    s.run.sw.walking = false :=
  ⟨st 0x030A noInst run, pf0, acc 0x030A noInst, 0,
    by decide +kernel⟩

theorem test_meets_ptpSyncReceive_TimeMessagesComplete_0 : ∃ (s : State) (m : SyncMsg) (dt : Nat),
    s.Up :=
  ⟨up run, { port := 0, domain := 0, parentPort := 0, origin := 0, stamp := 0, correction := 0 }, 0,
    by decide +kernel⟩

theorem test_meets_ptpAnnounceReceive_TimeMessagesComplete_1 : ∃ (s : State) (m : AnnounceMsg) (dt : Nat),
    s.Up :=
  ⟨up run, { port := 0, domain := 0, ref := {}, rank := [], clockClass := 6, traceable := true, utcOffset := 37, utcValid := true, leap59 := false, leap61 := false }, 0,
    by decide +kernel⟩

theorem test_meets_ptpSyncSend_TimeMessagesComplete_2 : ∃ (s : State) (port dt k : Nat),
    s.Running ∧
    (s.run.pass dt).isMaster port = true ∧
    (s.run.port port).link = true ∧
    ((tabGet s.run.tsu.syncSent port = none ∧ k = 0) ∨ ∃ m t, tabGet s.run.tsu.syncSent port = some (m, t) ∧ t + 1000000000 ≤ (s.run.pass dt).now ∧ k = (m + 1) % 65536) :=
  ⟨up ((linked run).modTsuRegs fun g => { g with ptpPorts := [0], gmEn := true, src := 2 }), 0, 0, 0,
    by decide +kernel, by decide +kernel, by decide +kernel, Or.inl (by decide +kernel)⟩

theorem test_meets_pdelayReqReceive_TimeMessagesComplete_3 : ∃ (s : State) (port domain seqId dt : Nat),
    s.Running ∧
    (s.run.pass dt).pdelayPort port = true :=
  ⟨up (linked run), 63, 0, 0, 0,
    by decide +kernel⟩

theorem test_meets_pdelayMeasure_TimeMessagesComplete_4 : ∃ (s : State) (port k dt : Nat) (x : PdelayTimes),
    s.Running ∧
    (s.run.pass dt).pdelayPort port = true ∧
    ((tabGet s.run.tsu.pdelayAt port = none ∧ k = 0) ∨ ∃ m t, tabGet s.run.tsu.pdelayAt port = some (m, t) ∧ t + 1000000000 ≤ (s.run.pass dt).now ∧ k = (m + 1) % 65536) :=
  ⟨up (linked run), 63, 0, 0, { t1 := 0, t2 := 100, t3 := 200, t4 := 300, correction := 0 },
    by decide +kernel, by decide +kernel, Or.inl (by decide +kernel)⟩

theorem test_meets_ppsInEdge_TimeMessagesComplete_5 : ∃ (s : State) (falling : Bool) (dt : Nat),
    s.Up ∧
    falling = s.run.tsu.regs.inPol :=
  ⟨up run, false, 0,
    by decide +kernel⟩

theorem test_meets_irigFrame_TimeMessagesComplete_6 : ∃ (s : State) (m : IrigMsg) (dt : Nat),
    s.Up :=
  ⟨up run, { format := 0, pulses := [], onTime := 0 }, 0,
    by decide +kernel⟩

theorem test_meets_referenceLoss_TimeEventsComplete_0 : ∃ (s : State) (dt : Nat),
    s.Up :=
  ⟨up run, 0,
    by decide +kernel⟩

theorem test_meets_holdTimerExpiry_TimeEventsComplete_1 : ∃ (s : State) (dt : Nat) (t : Instant),
    s.Up ∧
    s.run.tsu.lossAt = some t ∧
    s.run.tsu.phase = .holdPending ∧
    t + 10000000000 ≤ (s.run.pass dt).now :=
  ⟨up (time 10000000000 (run.modTsu fun t => { t with lossAt := some 0, phase := .holdPending })), 0, 0,
    by decide +kernel⟩

theorem test_meets_leapSecond_TimeEventsComplete_2 : ∃ (s : State) (dt : Nat),
    s.Up ∧
    (s.run.pass dt).leapDue = true :=
  ⟨up (time 38000000000 (run.modTsuRegs fun g => { g with leapPending := true })), 0,
    by decide +kernel⟩

theorem test_meets_ppsOutEdge_TimeEventsComplete_3 : ∃ (s : State) (dt : Nat),
    s.Up ∧
    s.sys.phase ≠ .recovery ∧
    (s.run.pass dt).onSecond = true ∧
    (s.run.pass dt).tsu.gated = false :=
  ⟨up (time 1000000000 run), 0,
    by decide +kernel⟩

theorem test_meets_ppsOutPulseEnd_TimeEventsComplete_4 : ∃ (s : State) (dt : Nat),
    s.Up ∧
    s.run.tsu.ppsOut = true ∧
    s.run.tsu.ppsOutSince + s.run.tsu.regs.outWidth * 1000000 ≤ (s.run.pass dt).now :=
  ⟨up (time 100000000 (run.modTsu fun t => { t with ppsOut := true })), 0,
    by decide +kernel⟩

theorem test_meets_servoEnFall_TimeEventsComplete_5 : ∃ (s : State),
    s.Up ∧
    s.run.tsu.regs.servoEn = true :=
  ⟨up run,
    by decide +kernel⟩

theorem test_meets_servoEnRise_TimeEventsComplete_6 : ∃ (s : State),
    s.Up ∧
    s.run.tsu.regs.servoEn = false :=
  ⟨up (run.modTsuRegs fun g => { g with servoEn := false }),
    by decide +kernel⟩

theorem test_meets_timeQuery_TimeCommandsComplete_0 : ∃ (s : State) (c : Cmd) (a : Accepted),
    s.Ready { op := 0x0400, pf0 := false } c a :=
  ⟨st 0x0400 noInst run, pf0, acc 0x0400 noInst,
    by decide +kernel⟩

theorem test_meets_timeSet_TimeCommandsComplete_1 : ∃ (s : State) (c : Cmd) (a : Accepted) (sec ns : Nat),
    s.Ready { op := 0x0401, pf0 := true } c a ∧
    ns < 1000000000 ∧
    s.run.tsu.regs.src = 0 :=
  ⟨st 0x0401 noInst run, pf0, acc 0x0401 noInst, 0, 0,
    by decide +kernel⟩

theorem test_meets_timeReacquire_TimeCommandsComplete_2 : ∃ (s : State) (c : Cmd) (a : Accepted),
    s.Ready { op := 0x0402, pf0 := true } c a ∧
    (s.run.tsu.phase = .acquiring ∨ s.run.tsu.phase = .holdover) :=
  ⟨st 0x0402 noInst (run.modTsu fun t => { t with phase := .holdover }), pf0, acc 0x0402 noInst,
    by decide +kernel⟩

theorem test_meets_ingestFrame_IngestRowsComplete_0 : ∃ (s : State) (p : IngestPdu) (dt q : Nat) (x : Queued) (h : Held),
    s.Running ∧
    s.run.sw.ingestHead = some (q, x) ∧
    tabGet s.run.sw.frames x.fid = some h ∧
    h.complete = true ∧
    (s.run.pass dt).ingestRoom h.frame.etype h.frame.da p = true :=
  ⟨up (run.modSw fun w => { w with ingestQ := [(0, [{ fid := 0 }])], frames := [(0, held)] }), { octets := [0, 1, 0, 8, 0, 0, 0, 0] }, 0, 0, { fid := 0 }, held,
    by decide +kernel⟩

theorem test_meets_subSupervisionExpiry_IngestRowsComplete_1 : ∃ (s : State) (goose : Bool) (index dt : Nat),
    s.Running :=
  ⟨up run, false, 0, 0,
    by decide +kernel⟩

theorem test_meets_subSvSet_IngestRowsComplete_2 : ∃ (s : State) (c : Cmd) (a : Accepted) (n index i : Nat) (x y : SvRec) (z : SubRec) (r : Run),
    s.Ready { op := 0x0500, pf0 := false, buf := true, need := some 296 } c a ∧
    a.target = some n ∧
    (s.run.inst n).phase ≠ .free ∧
    svRecord x = some y ∧
    (index = 0xFFFF ∨ s.run.ing.notOwn false c.fn n index = none) ∧
    s.run.stageSub false n index (.sv y) = .ok (r, i, z) ∧
    296 ≤ a.entry.bufLen ∧
    c.bufErr = false :=
  by
  obtain ⟨i, z, r, h⟩ := sv_stages
  exact ⟨st 0x0500 0 (inst .idle run), pf0, acc 0x0500 0, 0, 0xFFFF, i, svRec, svRec, z, r, by decide +kernel, by decide +kernel,
    by decide +kernel, by decide +kernel, Or.inl rfl, h, by decide +kernel, by decide +kernel⟩

theorem test_meets_subGooseSet_IngestRowsComplete_3 : ∃ (s : State) (c : Cmd) (a : Accepted) (n index i : Nat) (x y : GooseRec) (z : SubRec) (r : Run),
    s.Ready { op := 0x0501, pf0 := false, buf := true, need := some 424 } c a ∧
    a.target = some n ∧
    (s.run.inst n).phase ≠ .free ∧
    gooseRecord x = some y ∧
    (index = 0xFFFF ∨ s.run.ing.notOwn true c.fn n index = none) ∧
    s.run.stageSub true n index (.goose y) = .ok (r, i, z) :=
  ⟨st 0x0501 0 (inst .idle run), pf0, acc 0x0501 0, 0, 0xFFFF, (got ((st 0x0501 0 (inst .idle run)).run.stageSub true 0 0xFFFF (.goose gooseRec)) (run, 0, .goose gooseRec)).2.1, gooseRec, gooseRec, (got ((st 0x0501 0 (inst .idle run)).run.stageSub true 0 0xFFFF (.goose gooseRec)) (run, 0, .goose gooseRec)).2.2, (got ((st 0x0501 0 (inst .idle run)).run.stageSub true 0 0xFFFF (.goose gooseRec)) (run, 0, .goose gooseRec)).1,
    by decide +kernel, by decide +kernel, by decide +kernel, by decide +kernel, Or.inl rfl, got3_of (d := (run, 0, .goose gooseRec)) (by decide +kernel)⟩

theorem test_meets_subDelete_IngestRowsComplete_4 : ∃ (s : State) (c : Cmd) (a : Accepted) (n kind index : Nat),
    s.Ready { op := 0x0502, pf0 := false } c a ∧
    a.target = some n ∧
    (s.run.inst n).phase ≠ .free ∧
    kind ≤ 1 ∧
    s.run.ing.notOwn (kind == 1) c.fn n index = none :=
  ⟨st 0x0502 0 (subscribed (inst .idle run)), pf0, acc 0x0502 0, 0, 1, 0,
    by decide +kernel⟩

theorem test_meets_subRead_IngestRowsComplete_5 : ∃ (s : State) (c : Cmd) (a : Accepted) (n kind index : Nat) (x : Sub),
    s.Ready { op := 0x0503, pf0 := false } c a ∧
    a.target = some n ∧
    (s.run.inst n).phase ≠ .free ∧
    kind ≤ 1 ∧
    s.run.ownSub (kind == 1) c.fn n index = .ok x ∧
    (if kind = 1 then 424 else 296) ≤ a.entry.bufLen ∧
    c.bufErr = false :=
  ⟨st 0x0503 0 (subscribed (inst .idle run)), pf0, acc 0x0503 0, 0, 1, 0, (got ((st 0x0503 0 (subscribed (inst .idle run))).run.ownSub true 0 0 0) { inst := 0, record := .goose gooseRec }),
    by decide +kernel, by decide +kernel, by decide +kernel, by decide +kernel, got_of (by decide +kernel), by decide +kernel, by decide +kernel⟩

theorem test_meets_subKeySet_IngestRowsComplete_6 : ∃ (s : State) (c : Cmd) (a : Accepted) (n kind index keyA keyB : Nat) (x : Sub),
    s.Ready { op := 0x0504, pf0 := false } c a ∧
    a.target = some n ∧
    (s.run.inst n).phase ≠ .free ∧
    kind ≤ 1 ∧
    keySlotOk keyA = true ∧
    keySlotOk keyB = true ∧
    s.run.ownSub (kind == 1) c.fn n index = .ok x ∧
    s.run.srm.ingestMayUse n keyA = true ∧
    s.run.srm.ingestMayUse n keyB = true :=
  ⟨st 0x0504 0 (subscribed (inst .idle run)), pf0, acc 0x0504 0, 0, 0, 0, 255, 0xFFFF, (got ((st 0x0504 0 (subscribed (inst .idle run))).run.ownSub false 0 0 0) { inst := 0, record := .sv { svRec with chans := [{ member := 0, slot := 0, scale := 0x3F800000 }] } }),
    by decide +kernel, by decide +kernel, by decide +kernel, by decide +kernel, by decide +kernel, by decide +kernel, got_of (by decide +kernel), by decide +kernel, by decide +kernel⟩

theorem test_meets_subList_IngestRowsComplete_7 : ∃ (s : State) (c : Cmd) (a : Accepted) (n kind : Nat),
    s.Ready { op := 0x0505, pf0 := false } c a ∧
    a.target = some n ∧
    (s.run.inst n).phase ≠ .free ∧
    kind ≤ 1 ∧
    let own := (s.run.ing.table (kind == 1)).filter fun e => e.2.inst == n
    4 * own.length ≤ a.entry.bufLen ∧
    c.bufErr = false :=
  ⟨st 0x0505 0 (inst .idle run), pf0, acc 0x0505 0, 0, 0,
    by decide +kernel⟩

theorem test_meets_decSyncEdge_ConfluenceRowsComplete_0 : ∃ (s : State) (falling : Bool) (dt : Nat),
    s.Running ∧
    s.run.cfl.pinEn = true ∧
    falling = s.run.cfl.pol :=
  ⟨up (run.modCfl fun x => { x with pinEn := true }), false, 0,
    by decide +kernel⟩

theorem test_meets_cflChanSet_ConfluenceRowsComplete_1 : ∃ (s : State) (c : Cmd) (a : Accepted) (n slot : Nat) (x : ChanRec),
    s.Ready { op := 0x0600, pf0 := false, buf := true, need := some 32 } c a ∧
    a.target = some n ∧
    (s.run.inst n).phase ≠ .free ∧
    x.ok (s.run.slotOnQ n slot) = true ∧
    ((s.run.slotView n).any fun e => e.1 == slot) = true :=
  ⟨st 0x0600 0 (subscribed (inst .idle run)), pf0, acc 0x0600 0, 0, 0, chanRec,
    by decide +kernel⟩

theorem test_meets_cflStreamSet_ConfluenceRowsComplete_2 : ∃ (s : State) (c : Cmd) (a : Accepted) (n index : Nat) (x : StreamRec),
    s.Ready { op := 0x0601, pf0 := false, buf := true, need := some 24 } c a ∧
    a.target = some n ∧
    (s.run.inst n).phase ≠ .free ∧
    x.ok = true ∧
    s.run.ing.notOwn false c.fn n index = none :=
  ⟨st 0x0601 0 (subscribed (inst .idle run)), pf0, acc 0x0601 0, 0, 0, { latEst := 1000000 },
    by decide +kernel⟩

theorem test_meets_cflCoefSet_ConfluenceRowsComplete_3 : ∃ (s : State) (c : Cmd) (a : Accepted) (n set delay : Nat) (taps : List Word),
    s.Ready { op := 0x0602, pf0 := false, buf := true, need := some (4 * taps.length) } c a ∧
    a.target = some n ∧
    (s.run.inst n).phase ≠ .free ∧
    1 ≤ taps.length ∧
    taps.length ≤ 64 ∧
    set < 32 ∧
    ((s.run.cfl.chansOf n).any fun e => e.2.usesSet set) = false :=
  ⟨st 0x0602 0 (inst .idle run), pf0, acc 0x0602 0, 0, 31, 0, List.replicate 64 0,
    by decide +kernel⟩

theorem test_meets_cflProtoLoad_ConfluenceRowsComplete_4 : ∃ (s : State) (c : Cmd) (a : Accepted) (proto : Nat) (table : List (List Word)),
    s.Ready { op := 0x0603, pf0 := true, buf := true, need := some 32832 } c a ∧
    1 ≤ proto ∧
    proto ≤ 4 ∧
    (s.run.cfl.chans.any fun e => e.2.record.proto == proto) = false ∧
    protoOk table = true :=
  ⟨st 0x0603 noInst run, pf0, acc 0x0603 noInst, 4, List.replicate 513 (List.replicate 16 0),
    by decide +kernel⟩

theorem test_meets_cflBankSelect_ConfluenceRowsComplete_5 : ∃ (s : State) (c : Cmd) (a : Accepted) (n slot bank len : Nat) (ch : Chan),
    s.Ready { op := 0x0604, pf0 := false } c a ∧
    a.target = some n ∧
    (s.run.inst n).phase ≠ .free ∧
    tabGet s.run.cfl.chans slot = some ch ∧
    ch.inst = n ∧
    bank ≤ 1 ∧
    1 ≤ len ∧
    len ≤ 4096 :=
  ⟨st 0x0604 0 (withChan (inst .idle run)), pf0, acc 0x0604 0, 0, 0, 1, 4096, chan,
    by decide +kernel⟩

theorem test_meets_cflDcHold_ConfluenceRowsComplete_6 : ∃ (s : State) (c : Cmd) (a : Accepted) (n slot : Nat) (hold : Bool) (ch : Chan),
    s.Ready { op := 0x0605, pf0 := false } c a ∧
    a.target = some n ∧
    (s.run.inst n).phase ≠ .free ∧
    tabGet s.run.cfl.chans slot = some ch ∧
    ch.inst = n :=
  ⟨st 0x0605 0 (withChan (inst .idle run)), pf0, acc 0x0605 0, 0, 0, false, chan,
    by decide +kernel⟩

theorem test_meets_cflDecSync_ConfluenceRowsComplete_7 : ∃ (s : State) (c : Cmd) (a : Accepted) (sec ns : Nat) (r : Run),
    s.Ready { op := 0x0606, pf0 := true } c a ∧
    ns < 1000000000 ∧
    sec < 2 ^ 48 ∧
    s.run.decSyncRequest (sec * 1000000000 + ns) = (r, true) :=
  ⟨st 0x0606 noInst run, pf0, acc 0x0606 noInst, 0, 0, ((st 0x0606 noInst run).run.decSyncRequest 0).1,
    by decide +kernel, by decide +kernel, by decide +kernel, pair_of (by decide +kernel)⟩

theorem test_meets_cflChanRead_ConfluenceRowsComplete_8 : ∃ (s : State) (c : Cmd) (a : Accepted) (n slot : Nat) (ch : Chan),
    s.Ready { op := 0x0607, pf0 := false } c a ∧
    a.target = some n ∧
    (s.run.inst n).phase ≠ .free ∧
    tabGet s.run.cfl.chans slot = some ch ∧
    ch.inst = n ∧
    32 ≤ a.entry.bufLen ∧
    c.bufErr = false :=
  ⟨st 0x0607 0 (withChan (inst .idle run)), pf0, acc 0x0607 0, 0, 0, chan,
    by decide +kernel⟩

theorem test_meets_tickProcess_SluiceEventsComplete_0 : ∃ (s : State) (n dt q : Nat),
    s.Running ∧
    let r := (s.run.pass dt).settleDecSync
    let h := r.cfl.h n
    tabGet r.cfl.next n = some q ∧
    (r.inst n).phase = .active ∧
    dueCounter q h ≤ r.tsu.counter :=
  ⟨up (time 1000000000 ((inst .active run).modCfl fun x => { x with next := [(0, 0)] })), 0, 0, 0,
    by decide +kernel⟩

theorem test_meets_nodeDispatch_SluiceEventsComplete_1 : ∃ (s : State) (dt u : Nat) (f : Flight) (deferred : Bool),
    s.Running ∧
    (s.run.pass dt).pick = some (f, u, deferred) :=
  ⟨up (flying 0 .queued run), 0, 0, job 0 .queued, true,
    by decide +kernel⟩

theorem test_meets_jobFinish_SluiceEventsComplete_2 : ∃ (s : State) (n i gen dt : Nat) (cancelOut : Bool) (f : Flight) (e : JobEnd),
    s.Running ∧
    (s.run.slc.flights.find? fun f => f.inst == n && f.node == i && f.gen == gen && f.phase == .executing) = some f ∧
    (s.run.pass dt).jobEndOf f cancelOut = some e ∧
    (f.cls = 3 ∨ f.engine.isSome = true ∨ (s.run.pass dt).ticks ≤ (s.run.pass dt).budgetEnd f true) :=
  ⟨up (flying 0 .executing run), 0, 0, 0, 0, false, job 0 .executing, .completed false,
    by decide +kernel⟩

theorem test_meets_budgetAbort_SluiceEventsComplete_3 : ∃ (s : State) (n i gen dt : Nat) (f : Flight),
    s.Running ∧
    (s.run.slc.flights.find? fun f => f.inst == n && f.node == i && f.gen == gen && f.phase == .executing) = some f ∧
    f.cls ≠ 3 ∧
    f.engine = none ∧
    (s.run.pass dt).budgetEnd f false ≤ (s.run.pass dt).ticks :=
  ⟨up (flying 0 .executing run), 0, 0, 0, 100000000, job 0 .executing,
    by decide +kernel⟩

theorem test_meets_graphExchange_SluiceEventsComplete_4 : ∃ (s : State) (n dt : Nat) (e : Exchange),
    s.Running ∧
    (s.run.inst n).phase = .active ∧
    (s.run.pass dt).flagDue n = true ∧
    (s.run.pass dt).graphQuiet n = true ∧
    (s.run.slcOf n).exchange = some e ∧
    e.ticks < 96 :=
  ⟨up (time 1000000000 (((inst .active run).modCfl fun x => { x with next := [(0, 0)] }).modSluice fun x => { x with insts := [(0, { exchange := some { graph := none, wait := (0, 1), ticks := 95, claims := [], bounds := [], needs := [] } })] })), 0, 0, { graph := none, wait := (0, 1), ticks := 95, claims := [], bounds := [], needs := [] },
    by decide +kernel⟩

theorem test_meets_exchangeTimeout_SluiceEventsComplete_5 : ∃ (s : State) (n dt : Nat) (e : Exchange),
    s.Running ∧
    (s.run.slcOf n).exchange = some e ∧
    96 ≤ e.ticks :=
  ⟨up (time 1000000000 (((inst .active run).modCfl fun x => { x with next := [(0, 0)] }).modSluice fun x => { x with insts := [(0, { exchange := some { graph := none, wait := (0, 1), ticks := 96, claims := [], bounds := [], needs := [] } })] })), 0, 0, { graph := none, wait := (0, 1), ticks := 96, claims := [], bounds := [], needs := [] },
    by decide +kernel⟩

theorem test_meets_slcGraphLoad_SluiceCommandsComplete_0 : ∃ (s : State) (c : Cmd) (a : Accepted) (n sig : Nat) (octets : List Nat) (data : Graph),
    s.Ready { op := 0x0700, pf0 := false, buf := true, need := some octets.length } c a ∧
    a.target = some n ∧
    (s.run.inst n).phase ≠ .free ∧
    let image := readImage octets data
    imageDefect image = none :=
  ⟨st 0x0700 0 (inst .idle run), pf0, acc 0x0700 0, 0, 0, imageOctets, graph,
    by decide +kernel, by decide +kernel, by decide +kernel, image_loads⟩

theorem test_meets_slcGraphUnload_SluiceCommandsComplete_1 : ∃ (s : State) (c : Cmd) (a : Accepted) (n : Nat),
    s.Ready { op := 0x0701, pf0 := false } c a ∧
    a.target = some n ∧
    (s.run.inst n).phase ≠ .free :=
  ⟨st 0x0701 0 (inst .idle run), pf0, acc 0x0701 0, 0,
    by decide +kernel⟩

theorem test_meets_slcAdmitCheck_SluiceCommandsComplete_2 : ∃ (s : State) (c : Cmd) (a : Accepted) (n : Nat),
    s.Ready { op := 0x0702, pf0 := false } c a ∧
    a.target = some n ∧
    (s.run.inst n).phase ≠ .free ∧
    let t := s.run.trialOf n
    let x := t.1.admission (some (n, t.2))
    let bounds : List Nat := x.bounds.flatMap (·.2)
    24 * x.refusals.length + 16 * bounds.length ≤ a.entry.bufLen ∧
    c.bufErr = false :=
  ⟨st 0x0702 0 (inst .idle run), pf0, acc 0x0702 0, 0,
    by decide +kernel⟩

theorem test_meets_slcCancel_SluiceCommandsComplete_3 : ∃ (s : State) (c : Cmd) (a : Accepted) (n node : Nat) (x : NodeSt),
    s.Ready { op := 0x0703, pf0 := false } c a ∧
    a.target = some n ∧
    (s.run.inst n).phase ≠ .free ∧
    (s.run.slcOf n).nodes[node]? = some x :=
  ⟨st 0x0703 0 (runs .idle (node 0 0) run), pf0, acc 0x0703 0, 0, 0, {},
    by decide +kernel⟩

theorem test_meets_slcTrigger_SluiceCommandsComplete_4 : ∃ (s : State) (c : Cmd) (a : Accepted) (n bind : Nat) (b : GBind),
    s.Ready { op := 0x0704, pf0 := false } c a ∧
    a.target = some n ∧
    (s.run.inst n).phase = .active ∧
    (s.run.slcOf n).g.binds[bind]? = some b ∧
    b.kind = 5 ∧
    (∀ t, tabGet (s.run.slcOf n).triggers bind = some t → t + b.param * 10000 ≤ s.run.now) :=
  ⟨st 0x0704 0 ((inst .active run).modSluice fun x => { x with insts := [(0, { graph := some { nodes := [], edges := [], binds := [{ kind := 5, edges := 0xFFFF }] } })] }), pf0, acc 0x0704 0, 0, 0, { kind := 5, edges := 0xFFFF },
    by decide +kernel, by decide +kernel, by decide +kernel, by decide +kernel, by decide +kernel, none_all (by decide +kernel)⟩

theorem test_meets_slcNodeRead_SluiceCommandsComplete_5 : ∃ (s : State) (c : Cmd) (a : Accepted) (n node : Nat) (x : NodeSt),
    s.Ready { op := 0x0705, pf0 := false } c a ∧
    a.target = some n ∧
    (s.run.inst n).phase ≠ .free ∧
    (s.run.slcOf n).nodes[node]? = some x :=
  ⟨st 0x0705 0 (runs .idle (node 0 0) run), pf0, acc 0x0705 0, 0, 0, {},
    by decide +kernel⟩

theorem test_meets_slcChainRead_SluiceCommandsComplete_6 : ∃ (s : State) (c : Cmd) (a : Accepted) (n ident k : Nat) (z : ChainSt),
    s.Ready { op := 0x0706, pf0 := false } c a ∧
    a.target = some n ∧
    (s.run.inst n).phase ≠ .free ∧
    ((s.run.slcOf n).g.chains.findIdx? fun z => z.ident == ident) = some k ∧
    (s.run.slcOf n).chains[k]? = some z :=
  ⟨st 0x0706 0 ((inst .idle run).modSluice fun x => { x with insts := [(0, { graph := some { nodes := [], edges := [], binds := [], chains := [{ ident := 5, bind := 0, last := 0, deadline := 1 }] }, chains := [{}] })] }), pf0, acc 0x0706 0, 0, 5, 0, {},
    by decide +kernel⟩

theorem test_meets_grpForce_SluiceCommandsComplete_7 : ∃ (s : State) (c : Cmd) (a : Accepted) (n sel group : Nat) (z : Selector),
    s.Ready { op := 0x0707, pf0 := false } c a ∧
    a.target = some n ∧
    (s.run.inst n).phase ≠ .free ∧
    (s.run.slcOf n).sels[sel]? = some z ∧
    group < 8 ∧
    ((((s.run.slcOf n).g.sels[sel]?).getD {}).allowed.testBit group) = true :=
  ⟨st 0x0707 0 (inst .idle run), pf0, acc 0x0707 0, 0, 3, 0, {},
    by decide +kernel⟩

theorem test_meets_grpRelease_SluiceCommandsComplete_8 : ∃ (s : State) (c : Cmd) (a : Accepted) (n sel : Nat) (z : Selector),
    s.Ready { op := 0x0708, pf0 := false } c a ∧
    a.target = some n ∧
    (s.run.inst n).phase ≠ .free ∧
    (s.run.slcOf n).sels[sel]? = some z :=
  ⟨st 0x0708 0 (inst .idle run), pf0, acc 0x0708 0, 0, 3, {},
    by decide +kernel⟩

theorem test_meets_grpQuery_SluiceCommandsComplete_9 : ∃ (s : State) (c : Cmd) (a : Accepted) (n : Nat),
    s.Ready { op := 0x0709, pf0 := false } c a ∧
    a.target = some n ∧
    (s.run.inst n).phase ≠ .free :=
  ⟨st 0x0709 0 (inst .idle run), pf0, acc 0x0709 0, 0,
    by decide +kernel⟩

theorem test_meets_cleCycle_CleEventsComplete_0 : ∃ (s : State) (n i dt : Nat) (f : Flight) (x : CycleRes),
    s.Running ∧
    (s.run.pass dt).taskFlight n i = some f ∧
    (s.run.pass dt).cycleOf n i f = some x ∧
    x.fate = .ended ∧
    (s.run.pass dt).engineDone f x.cost = true :=
  ⟨up ((tasks { task .run [0x04000000] with image := some [] } (flying 3 .executing run))), 0, 0, 100000000, job 3 .executing, (cycleIn (tasks { task .run [0x04000000] with image := some [] } (flying 3 .executing run))),
    by decide +kernel, by decide +kernel, some_of (by decide +kernel), by decide +kernel, by decide +kernel⟩

theorem test_meets_cleCycleFault_CleEventsComplete_1 : ∃ (s : State) (n i dt : Nat) (f : Flight) (x : CycleRes),
    s.Running ∧
    (s.run.pass dt).taskFlight n i = some f ∧
    (s.run.pass dt).cycleOf n i f = some x ∧
    x.fate ≠ .ended ∧
    (s.run.pass dt).engineDone f x.cost = true :=
  ⟨up ((tasks { task .run [0x9C000000] with image := some [] } (flying 3 .executing run))), 0, 0, 100000000, job 3 .executing, (cycleIn (tasks { task .run [0x9C000000] with image := some [] } (flying 3 .executing run))),
    by decide +kernel, by decide +kernel, some_of (by decide +kernel), by decide +kernel, by decide +kernel⟩

theorem test_meets_cleEmptyJob_CleEventsComplete_2 : ∃ (s : State) (n i dt : Nat) (f : Flight) (t : TaskSt),
    s.Running ∧
    (s.run.pass dt).taskFlight n i = some f ∧
    (s.run.pass dt).task n i = some t ∧
    t.image = none ∧
    (s.run.pass dt).engineDone f 8 = true :=
  ⟨up ((tasks { task .run [0x04000000] with image := none } (flying 3 .executing run))), 0, 0, 100000000, job 3 .executing, { task .run [0x04000000] with image := none },
    by decide +kernel⟩

theorem test_meets_retainCheckpoint_CleEventsComplete_3 : ∃ (s : State) (dt : Nat),
    s.Running ∧
    (s.run.pass dt).passed 1000000000 0 = true ∧
    s.run.flt.hkpAway = false ∧
    s.run.flt.hkpDead = false :=
  ⟨up run, 0,
    by decide +kernel⟩

theorem test_meets_cleProgLoad_CleCommandsComplete_0 : ∃ (s : State) (c : Cmd) (a : Accepted) (n sig : Nat) (octets : List Nat) (image : CleImage),
    s.Ready { op := 0x0800, pf0 := false, buf := true, need := some octets.length } c a ∧
    a.target = some n ∧
    (s.run.inst n).phase ≠ .free ∧
    image.ok = true :=
  ⟨st 0x0800 0 (inst .idle run), pf0, acc 0x0800 0, 0, 0, [], { tasks := [cleTask [0x04000000]] },
    by decide +kernel⟩

theorem test_meets_cleProgUnload_CleCommandsComplete_1 : ∃ (s : State) (c : Cmd) (a : Accepted) (n : Nat),
    s.Ready { op := 0x0801, pf0 := false } c a ∧
    a.target = some n ∧
    (s.run.inst n).phase ≠ .free :=
  ⟨st 0x0801 0 (inst .idle run), pf0, acc 0x0801 0, 0,
    by decide +kernel⟩

theorem test_meets_cleTaskMode_CleCommandsComplete_2 : ∃ (s : State) (c : Cmd) (a : Accepted) (n index mode : Nat) (t : TaskSt) (m : TaskMode),
    s.Ready { op := 0x0802, pf0 := false } c a ∧
    a.target = some n ∧
    (s.run.inst n).phase ≠ .free ∧
    s.run.task n index = some t ∧
    modeOf mode = some m ∧
    (m = .hold → t.task.supervisory = true) ∧
    (t.mode.may m = true ∨ (t.image.isSome = true ∧ t.wait ≠ [])) :=
  ⟨st 0x0802 0 (tasks (task .hold [0x04000000]) (inst .idle run)), pf0, acc 0x0802 0, 0, 0, 1, (task .hold [0x04000000]), .run,
    by decide +kernel⟩

theorem test_meets_cleTaskStart_CleCommandsComplete_3 : ∃ (s : State) (c : Cmd) (a : Accepted) (n index : Nat) (warm : Bool) (t : TaskSt),
    s.Ready { op := 0x0803, pf0 := false } c a ∧
    a.target = some n ∧
    (s.run.inst n).phase ≠ .free ∧
    s.run.task n index = some t ∧
    (t.mode = .stop ∨ t.mode = .halted) :=
  ⟨st 0x0803 0 (tasks (task .halted [0x04000000]) (inst .idle run)), pf0, acc 0x0803 0, 0, 0, false, (task .halted [0x04000000]),
    by decide +kernel⟩

theorem test_meets_cleTaskStep_CleCommandsComplete_4 : ∃ (s : State) (c : Cmd) (a : Accepted) (n index : Nat) (t : TaskSt),
    s.Ready { op := 0x0804, pf0 := false } c a ∧
    a.target = some n ∧
    (s.run.inst n).phase ≠ .free ∧
    s.run.task n index = some t ∧
    t.mode = .hold ∧
    t.step = none :=
  ⟨st 0x0804 0 (tasks (task .hold [0x04000000]) (inst .idle run)), pf0, acc 0x0804 0, 0, 0, (task .hold [0x04000000]),
    by decide +kernel⟩

theorem test_meets_cleVarRead_CleCommandsComplete_5 : ∃ (s : State) (c : Cmd) (a : Accepted) (n index addr len : Nat) (t : TaskSt),
    s.Ready { op := 0x0805, pf0 := false } c a ∧
    a.target = some n ∧
    (s.run.inst n).phase ≠ .free ∧
    s.run.task n index = some t ∧
    spanOk t.task addr len = true ∧
    len ≤ a.entry.bufLen ∧
    c.bufErr = false :=
  ⟨st 0x0805 0 (tasks (task .hold [0x04000000]) (inst .idle run)), pf0, acc 0x0805 0, 0, 0, 0, 256, (task .hold [0x04000000]),
    by decide +kernel⟩

theorem test_meets_cleVarWrite_CleCommandsComplete_6 : ∃ (s : State) (c : Cmd) (a : Accepted) (n index addr : Nat) (octets : List Byte) (t : TaskSt),
    s.Ready { op := 0x0806, pf0 := false, buf := true, need := some octets.length } c a ∧
    a.target = some n ∧
    (s.run.inst n).phase ≠ .free ∧
    s.run.task n index = some t ∧
    (t.mode = .stop ∨ (t.mode = .hold ∧ t.task.supervisory = true)) ∧
    spanOk t.task addr octets.length = true ∧
    (∀ k < octets.length, (t.task.vars.any fun v => decide (v.addr ≤ addr + k) && decide (addr + k < v.addr + v.size)) = true) :=
  ⟨st 0x0806 0 (tasks (task .hold [0x04000000]) (inst .idle run)), pf0, acc 0x0806 0, 0, 0, 0, [1], (task .hold [0x04000000]),
    by decide +kernel⟩

theorem test_meets_cleTaskRead_CleCommandsComplete_7 : ∃ (s : State) (c : Cmd) (a : Accepted) (n index : Nat) (t : TaskSt),
    s.Ready { op := 0x0807, pf0 := false } c a ∧
    a.target = some n ∧
    (s.run.inst n).phase ≠ .free ∧
    s.run.task n index = some t :=
  ⟨st 0x0807 0 (tasks (task .hold [0x04000000]) (inst .idle run)), pf0, acc 0x0807 0, 0, 0, (task .hold [0x04000000]),
    by decide +kernel⟩

theorem test_meets_loopEvaluation_MillraceRowsComplete_0 : ∃ (s : State) (n index dt l : Nat) (f : Flight) (x : LoopSt) (y : GNode),
    s.Running ∧
    (s.run.slc.flights.find? fun f => f.inst == n && f.cls == 2 && f.phase == .executing && f.engine.isNone && f.gen == (s.run.inst n).gen && match (s.run.slcOf n).g.nodes[f.node]? with | some x => x.op == index | none => false) = some f ∧
    s.run.loopDev n index = some l ∧
    s.run.loop l = some x ∧
    (s.run.slcOf n).g.nodes[f.node]? = some y ∧
    loopCost x.record ≤ y.budget ∧
    f.start * 4000 + clsDispatch 2 + loopCost x.record * clsPeriod 2 ≤ (s.run.pass dt).ticks * 4000 :=
  ⟨up (loops (loop true) (flying 2 .executing run)), 0, 0, 100000000, 0, job 2 .executing, (loop true), node 2 0,
    by decide +kernel⟩

theorem test_meets_mlrLoopSet_MillraceRowsComplete_1 : ∃ (s : State) (c : Cmd) (a : Accepted) (n index : Nat) (x : LoopRec),
    s.Ready { op := 0x0900, pf0 := false, buf := true, need := some 320 } c a ∧
    a.target = some n ∧
    (s.run.inst n).phase ≠ .free ∧
    index < 64 ∧
    loopDefect x = none :=
  ⟨st 0x0900 0 (inst .idle run), pf0, acc 0x0900 0, 0, 63, loopRec,
    by decide +kernel⟩

theorem test_meets_mlrLoopDelete_MillraceRowsComplete_2 : ∃ (s : State) (c : Cmd) (a : Accepted) (n index : Nat),
    s.Ready { op := 0x0901, pf0 := false } c a ∧
    a.target = some n ∧
    (s.run.inst n).phase ≠ .free ∧
    ((s.run.loopView n).any fun e => e.1 == index) = true :=
  ⟨st 0x0901 0 (loops (loop true) (inst .idle run)), pf0, acc 0x0901 0, 0, 0,
    by decide +kernel⟩

theorem test_meets_mlrMode_MillraceRowsComplete_3 : ∃ (s : State) (c : Cmd) (a : Accepted) (n index mode l : Nat) (value : Option Word) (x : LoopSt),
    s.Ready { op := 0x0902, pf0 := false } c a ∧
    a.target = some n ∧
    (s.run.inst n).phase ≠ .free ∧
    s.run.loopDev n index = some l ∧
    s.run.loop l = some x ∧
    mode ≤ 1 :=
  ⟨st 0x0902 0 (loops (loop true) (inst .idle run)), pf0, acc 0x0902 0, 0, 0, 1, 0, none, (loop true),
    by decide +kernel⟩

theorem test_meets_mlrInject_MillraceRowsComplete_4 : ∃ (s : State) (c : Cmd) (acc : Accepted) (n index stage kind order len hold seconds tick l : Nat) (a fStart fEnd : Word) (x : LoopSt),
    s.Ready { op := 0x0903, pf0 := false } c acc ∧
    acc.target = some n ∧
    (s.run.inst n).phase ≠ .free ∧
    s.run.loopDev n index = some l ∧
    s.run.loop l = some x ∧
    let i : Inject := { stage := stage, kind := kind, order := order, a := a, fStart := fStart, fEnd := fEnd, len := len, hold := hold, tick := seconds * (if x.record.gridQ then 14400 else 4800) + tick, lfsr := 2 ^ order - 1 }
    injectOk x.record i tick = true ∧
    x.inject = none ∧
    (8 ≤ stage ∨ x.auto = true ∨ stage < x.record.preset) :=
  ⟨st 0x0903 0 (loops (loop true) (inst .idle run)), pf0, acc 0x0903 0, 0, 0, 8, 0, 0, 1048576, 0, 0, 4799, 0, 0, 0, 0, (loop true),
    by decide +kernel⟩

theorem test_meets_mlrInjectStop_MillraceRowsComplete_5 : ∃ (s : State) (c : Cmd) (a : Accepted) (n index l : Nat) (x : LoopSt),
    s.Ready { op := 0x0904, pf0 := false } c a ∧
    a.target = some n ∧
    (s.run.inst n).phase ≠ .free ∧
    s.run.loopDev n index = some l ∧
    s.run.loop l = some x ∧
    x.inject.isSome = true :=
  ⟨st 0x0904 0 (loops { loop true with inject := some { stage := 8, kind := 0, order := 0, a := 0, fStart := 0, fEnd := 0, len := 1, hold := 0, tick := 0 } } (inst .idle run)), pf0, acc 0x0904 0, 0, 0, 0, { loop true with inject := some { stage := 8, kind := 0, order := 0, a := 0, fStart := 0, fEnd := 0, len := 1, hold := 0, tick := 0 } },
    by decide +kernel⟩

theorem test_meets_mlrCapture_MillraceRowsComplete_6 : ∃ (s : State) (c : Cmd) (a : Accepted) (n slot index sigA sigB points seconds tick l : Nat) (x : LoopSt),
    s.Ready { op := 0x0905, pf0 := false } c a ∧
    a.target = some n ∧
    (s.run.inst n).phase ≠ .free ∧
    s.run.loopDev n index = some l ∧
    s.run.loop l = some x ∧
    slot < 4 ∧
    sigA ≤ 18 ∧
    sigB ≤ 18 ∧
    1 ≤ points ∧
    points ≤ 4096 ∧
    tick < (if x.record.gridQ then 14400 else 4800) ∧
    (s.run.mlr.caps.getD slot {}).busy = false :=
  ⟨st 0x0905 0 (loops (loop true) (inst .idle run)), pf0, acc 0x0905 0, 0, 3, 0, 18, 18, 4096, 0, 4799, 0, (loop true),
    by decide +kernel⟩

theorem test_meets_mlrCaptureRead_MillraceRowsComplete_7 : ∃ (s : State) (c : Cmd) (a : Accepted) (slot : Nat),
    s.Ready { op := 0x0906, pf0 := false } c a ∧
    slot < 4 ∧
    let z := s.run.mlr.caps.getD slot {}
    z.busy = false ∧
    z.readableBy c.fn = true ∧
    16 * z.points.length ≤ a.entry.bufLen ∧
    c.bufErr = false :=
  ⟨st 0x0906 noInst run, pf0, acc 0x0906 noInst, 3,
    by decide +kernel⟩

theorem test_meets_mlrLoopRead_MillraceRowsComplete_8 : ∃ (s : State) (c : Cmd) (a : Accepted) (n index l : Nat) (x : LoopSt),
    s.Ready { op := 0x0907, pf0 := false } c a ∧
    a.target = some n ∧
    (s.run.inst n).phase ≠ .free ∧
    s.run.loopDev n index = some l ∧
    s.run.loop l = some x :=
  ⟨st 0x0907 0 (loops (loop true) (inst .idle run)), pf0, acc 0x0907 0, 0, 0, 0, (loop true),
    by decide +kernel⟩

theorem test_meets_gooseRetransmit_PublicationRowsComplete_0 : ∃ (s : State) (d dt : Nat),
    s.Running :=
  ⟨up run, 0, 0,
    by decide +kernel⟩

theorem test_meets_pubGooseSet_PublicationRowsComplete_1 : ∃ (s : State) (c : Cmd) (a : Accepted) (n index i : Nat) (x : GoosePub),
    s.Ready { op := 0x0A00, pf0 := false, buf := true, need := some 512 } c a ∧
    a.target = some n ∧
    (s.run.inst n).phase ≠ .free ∧
    x.ok = true ∧
    s.run.pubKeyOk n x.auth x.key = true ∧
    pubIndex ((s.run.gooseView n).map (·.1)) 512 index = some i :=
  ⟨st 0x0A00 0 (inst .idle run), pf0, acc 0x0A00 0, 0, 0xFFFF, 0, gpub,
    by decide +kernel⟩

theorem test_meets_pubSvSet_PublicationRowsComplete_2 : ∃ (s : State) (c : Cmd) (a : Accepted) (n index i : Nat) (x : SvPub),
    s.Ready { op := 0x0A01, pf0 := false, buf := true, need := some 192 } c a ∧
    a.target = some n ∧
    (s.run.inst n).phase ≠ .free ∧
    x.ok = true ∧
    s.run.pubKeyOk n x.auth x.key = true ∧
    pubIndex ((s.run.svView n).map (·.1)) 64 index = some i :=
  ⟨st 0x0A01 0 (inst .idle run), pf0, acc 0x0A01 0, 0, 0xFFFF, 0, svPub,
    by decide +kernel⟩

theorem test_meets_pubDelete_PublicationRowsComplete_3 : ∃ (s : State) (c : Cmd) (a : Accepted) (n index : Nat),
    s.Ready { op := 0x0A02, pf0 := false } c a ∧
    a.target = some n ∧
    (s.run.inst n).phase ≠ .free :=
  ⟨st 0x0A02 0 (inst .idle run), pf0, acc 0x0A02 0, 0, 0,
    by decide +kernel⟩

theorem test_meets_pubRead_PublicationRowsComplete_4 : ∃ (s : State) (c : Cmd) (a : Accepted) (n index d : Nat),
    s.Ready { op := 0x0A03, pf0 := false } c a ∧
    a.target = some n ∧
    (s.run.inst n).phase ≠ .free :=
  ⟨st 0x0A03 0 (inst .idle run), pf0, acc 0x0A03 0, 0, 0, 0,
    by decide +kernel⟩

theorem test_meets_tribSend_TributaryRowsComplete_0 : ∃ (s : State) (dt : Nat),
    s.Running :=
  ⟨up run, 0,
    by decide +kernel⟩

theorem test_meets_tribReceive_TributaryRowsComplete_1 : ∃ (s : State) (m : TribMsg) (dt : Nat),
    s.Running :=
  ⟨up run, { twinId := 2, pairId := 1, tseq := 0, second := 0, tick := 0, keyId := 0, tag := 0, covered := [], items := [] }, 0,
    by decide +kernel⟩

theorem test_meets_twinJoinEnd_TributaryRowsComplete_2 : ∃ (s : State) (complete : Bool) (dt k : Nat),
    s.Running ∧
    s.run.trip.trib.join = some k ∧
    (complete = true ∨ k + 4800 ≤ (s.run.pass dt).pTickNow) :=
  ⟨up (run.modTrib fun t => { t with join := some 0 }), true, 0, 0,
    by decide +kernel⟩

theorem test_meets_tribTimeout_TributaryRowsComplete_3 : ∃ (s : State) (dt k : Nat) (x : TribCfg),
    s.Running ∧
    let r := (s.run.pass dt).settleTrib
    r.trip.trib.cfg = some x ∧
    r.trip.trib.rxTick = some k ∧
    r.trip.trib.paired = true ∧
    k + x.timeout ≤ r.pTickNow :=
  ⟨up (time 2500000 (run.modTrib fun t => { t with cfg := some tribCfg, rxTick := some 0, paired := true })), 0, 0, tribCfg,
    by decide +kernel⟩

theorem test_meets_tribSet_TributaryRowsComplete_4 : ∃ (s : State) (c : Cmd) (a : Accepted) (twinId pairId portA key da timeout vlan : Nat) (portB : Option Nat),
    s.Ready { op := 0x0A04, pf0 := true } c a ∧
    1 ≤ twinId ∧
    twinId ≤ 2 ∧
    pairId ≤ 65535 ∧
    3 ≤ timeout ∧
    timeout ≤ 48 ∧
    (vlan = 0 ∨ (1 ≤ vlan % 4096 ∧ vlan % 4096 ≤ 4094)) ∧
    s.run.sw.tribPort portA = true ∧
    (portB.all fun p => s.run.sw.tribPort p) = true :=
  ⟨st 0x0A04 noInst (run.modSw fun w => { w with ports := [(48, { trib := true })] }), pf0, acc 0x0A04 noInst, 2, 65535, 48, 0, 0, 48, 0, none,
    by decide +kernel⟩

theorem test_meets_TributaryRowsComplete_TributaryRowsComplete_5 : ∃ (r : Run) (x : TribCfg) (k : Nat),
    r.trip.trib.next = some (x, k) :=
  ⟨run.modTrib fun t => { t with next := some (tribCfg, 1) }, tribCfg, 1,
    by decide +kernel⟩

theorem test_meets_tribQuery_TributaryRowsComplete_6 : ∃ (s : State) (c : Cmd) (a : Accepted),
    s.Ready { op := 0x0A05, pf0 := false } c a :=
  ⟨st 0x0A05 noInst run, pf0, acc 0x0A05 noInst,
    by decide +kernel⟩

theorem test_meets_sofbMismatch_SafetyIoEventsComplete_0 : ∃ (s : State) (n cause dt : Nat) (level : Bool),
    s.Up ∧
    (s.run.so n).enabled = true ∧
    (s.run.so n).contradicts level cause = true :=
  ⟨up (run.modSo 31 fun z => { z with enabled := true, drive := true }), 31, 1, 0, false,
    by decide +kernel⟩

theorem test_meets_offPulseStart_SafetyIoEventsComplete_1 : ∃ (s : State) (n dt : Nat),
    s.Up ∧
    (s.run.so n).enabled = true ∧
    (s.run.so n).drive = true ∧
    (s.run.so n).pulse = none ∧
    (s.run.pass dt).passed 1000000000 (n * 31250000) = true :=
  ⟨up (time 968750000 (run.modSo 31 fun z => { z with enabled := true, drive := true })), 31, 0,
    by decide +kernel⟩

theorem test_meets_offPulseEnd_SafetyIoEventsComplete_2 : ∃ (s : State) (n dt t : Nat),
    s.Up ∧
    (s.run.so n).pulse = some t ∧
    t + usTicks s.run.trip.offPulse ≤ s.run.ticks + dt :=
  ⟨up (run.modSo 31 fun z => { z with enabled := true, pulse := some 0 }), 31, 37500, 0,
    by decide +kernel⟩

theorem test_meets_biChange_SafetyIoEventsComplete_3 : ∃ (s : State) (n edge dt : Nat) (level : Bool),
    s.Up ∧
    n < 32 ∧
    (s.run.bi n).level ≠ level ∧
    edge + (s.run.bi n).debounce * 25000 ≤ s.run.ticks + dt :=
  ⟨up run, 31, 0, 250000, true,
    by decide +kernel⟩

theorem test_meets_latchReset_SafetyIoEventsComplete_4 : ∃ (s : State) (l dt t : Nat),
    s.Up ∧
    (s.run.latch l).highSince = some t ∧
    (s.run.latch l).set = true ∧
    t + msTicks 20 ≤ s.run.ticks + dt :=
  ⟨up ({ run with trip := { run.trip with latches := [{ set := true, highSince := some 0 }] } }), 0, 5000000, 0,
    by decide +kernel⟩

theorem test_meets_sioSessionExpiry_SafetyIoEventsComplete_5 : ∃ (s : State) (fn dt t : Nat),
    s.Up ∧
    tabGet s.run.trip.sessions fn = some t ∧
    t + msTicks 600000 ≤ s.run.ticks + dt :=
  ⟨up (run.modTrip fun t => { t with sessions := [(0, 0)] }), 0, 150000000000, 0,
    by decide +kernel⟩

theorem test_meets_sioUnlock_SafetyIoCommandsComplete_0 : ∃ (s : State) (c : Cmd) (a : Accepted) (password : List Nat) (salt hash : Nat),
    s.Ready { op := 0x0A06, pf0 := false, buf := true, need := some password.length } c a ∧
    s.run.verifier = some (salt, hash) ∧
    (∀ t, s.run.trip.lockout = some t → t ≤ s.run.ticks) :=
  ⟨st 0x0A06 noInst ((run.setVerifier 1 2).modTrip fun t => { t with sessions := [(0, 0)] }), pf0, acc 0x0A06 noInst, List.replicate 8 0x41, 1, 2,
    by decide +kernel, by decide +kernel, by decide +kernel⟩

theorem test_meets_sioUnlock_SafetyIoCommandsComplete_1 : ∃ (s : State) (c : Cmd) (a : Accepted) (password : List Nat) (t : Nat),
    s.Ready { op := 0x0A06, pf0 := false, buf := true, need := some password.length } c a ∧
    s.run.trip.lockout = some t ∧
    s.run.ticks < t :=
  ⟨st 0x0A06 noInst (run.modTrip fun t => { t with lockout := some 1 }), pf0, acc 0x0A06 noInst, [], 1,
    by decide +kernel⟩

theorem test_meets_sioLock_SafetyIoCommandsComplete_2 : ∃ (s : State) (c : Cmd) (a : Accepted),
    s.Ready { op := 0x0A07, pf0 := false } c a :=
  ⟨st 0x0A07 noInst run, pf0, acc 0x0A07 noInst,
    by decide +kernel⟩

theorem test_meets_sioPasswordSet_SafetyIoCommandsComplete_3 : ∃ (s : State) (c : Cmd) (a : Accepted) (old new : List Nat),
    s.Ready { op := 0x0A08, pf0 := true, buf := true, need := some (2 + old.length + new.length) } c a ∧
    passwordOk new = true ∧
    s.run.srm.trngFail = false :=
  ⟨st 0x0A08 noInst run, pf0, acc 0x0A08 noInst, [], List.replicate 8 0x41,
    by decide +kernel⟩

theorem test_meets_sioCfgSet_SafetyIoCommandsComplete_4 : ∃ (s : State) (c : Cmd) (a : Accepted) (item index value : Nat),
    s.Ready { op := 0x0A09, pf0 := false } c a ∧
    s.run.verifier.isSome = true ∧
    s.run.session c.fn = true ∧
    sioRange item index value = true ∧
    s.run.sioMay c.fn item index = true ∧
    (item = 2 → (s.run.so (index / 2 * 2)).drive = false ∧ (s.run.so (index / 2 * 2 + 1)).drive = false) :=
  ⟨st 0x0A09 noInst ((run.setVerifier 1 2).modTrip fun t => { t with sessions := [(0, 0)] }), pf0, acc 0x0A09 noInst, 0, 0, 500,
    by decide +kernel⟩

theorem test_meets_sioFaultClear_SafetyIoCommandsComplete_5 : ∃ (s : State) (c : Cmd) (a : Accepted) (n : Nat) (sofb : List Bool),
    s.Ready { op := 0x0A0A, pf0 := false } c a ∧
    n < 32 ∧
    s.run.verifier.isSome = true ∧
    s.run.session c.fn = true ∧
    (c.fn = 0 ∨ (s.run.so n).owner = some (c.fn - 1)) ∧
    (((s.run.channelsOf n).zip sofb).any fun e => (s.run.so e.1).level != e.2) = false :=
  ⟨st 0x0A0A noInst ((run.setVerifier 1 2).modTrip fun t => { t with sessions := [(0, 0)] }), pf0, acc 0x0A0A noInst, 31, [],
    by decide +kernel⟩

theorem test_meets_sioQuery_SafetyIoCommandsComplete_6 : ∃ (s : State) (c : Cmd) (a : Accepted) (sofb : Word),
    s.Ready { op := 0x0A0B, pf0 := false } c a :=
  ⟨st 0x0A0B noInst run, pf0, acc 0x0A0B noInst, 0,
    by decide +kernel⟩

theorem test_meets_drRowWrite_RecorderEventsComplete_0 : ∃ (s : State) (d dt : Nat),
    s.Running :=
  ⟨up run, 0, 0,
    by decide +kernel⟩

theorem test_meets_xtrigInEdge_RecorderEventsComplete_1 : ∃ (s : State) (n dt : Nat),
    s.Running :=
  ⟨up run, 0, 0,
    by decide +kernel⟩

theorem test_meets_drAutoTrigger_RecorderEventsComplete_2 : ∃ (s : State) (d dt : Nat) (x : Rec) (w : DrRow),
    s.Running ∧
    s.run.recorder d = some x ∧
    x.phase = .armed ∧
    x.record.auto = true ∧
    (x.ring.find? fun w => decide ((x.armedAt : Rat) + (x.record.autoT : Rat) * 1000000 ≤ w.at')) = some w :=
  ⟨up ({ run with dr := { run.dr with recs := [(0, { recOf .armed with record := { drRec with auto := true }, ring := [row] })] } }), 0, 0, { recOf .armed with record := { drRec with auto := true }, ring := [row] }, row,
    by decide +kernel⟩

theorem test_meets_drRearmExpiry_RecorderEventsComplete_3 : ∃ (s : State) (d dt : Nat),
    s.Running :=
  ⟨up run, 0, 0,
    by decide +kernel⟩

theorem test_meets_xtrigOutPulseEnd_RecorderEventsComplete_4 : ∃ (s : State) (n dt : Nat) (x : XOut),
    s.Running ∧
    tabGet s.run.dr.xout n = some x ∧
    x.till ≤ s.run.ticks + dt :=
  ⟨up ({ run with dr := { run.dr with xout := [(0, { recs := [], till := 0 })] } }), 0, 0, { recs := [], till := 0 },
    by decide +kernel⟩

theorem test_meets_drcSet_RecorderCommandsComplete_0 : ∃ (s : State) (c : Cmd) (a : Accepted) (n index : Nat) (x : DrRec),
    s.Ready { op := 0x0B00, pf0 := false, buf := true, need := some (64 + 40 * (x.analog.length + x.binary.length)) } c a ∧
    a.target = some n ∧
    (s.run.inst n).phase ≠ .free ∧
    index < 16 ∧
    x.ok = true :=
  ⟨st 0x0B00 0 (inst .idle run), pf0, acc 0x0B00 0, 0, 15, drRec,
    by decide +kernel⟩

theorem test_meets_drcDelete_RecorderCommandsComplete_1 : ∃ (s : State) (c : Cmd) (a : Accepted) (n index : Nat),
    s.Ready { op := 0x0B01, pf0 := false } c a ∧
    a.target = some n ∧
    (s.run.inst n).phase ≠ .free ∧
    ((s.run.drView n).any fun e => e.1 == index) = true :=
  ⟨st 0x0B01 0 (recorder .idle (inst .idle run)), pf0, acc 0x0B01 0, 0, 0,
    by decide +kernel⟩

theorem test_meets_drcMaskSet_RecorderCommandsComplete_2 : ∃ (s : State) (c : Cmd) (a : Accepted) (n index test chan i : Nat) (points : List (Int × Word × Word)) (x : DrRec),
    s.Ready { op := 0x0B02, pf0 := false, buf := !points.isEmpty } c a ∧
    a.target = some n ∧
    (s.run.inst n).phase ≠ .free ∧
    ((s.run.drView n).find? fun e => e.1 == index) = some (i, x) ∧
    test < 8 ∧
    (points = [] ∨ (maskPointsOk points = true ∧ chan < x.analog.length)) :=
  ⟨st 0x0B02 0 (recorder .idle (inst .idle run)), pf0, acc 0x0B02 0, 0, 0, 7, 0, 0, [], drRec,
    by decide +kernel⟩

theorem test_meets_drcTrigger_RecorderCommandsComplete_3 : ∃ (s : State) (c : Cmd) (a : Accepted) (n index seconds ns d : Nat) (x : Rec),
    s.Ready { op := 0x0B03, pf0 := false } c a ∧
    a.target = some n ∧
    (s.run.inst n).phase ≠ .free ∧
    s.run.drOf n index = some (d, x) ∧
    ns < 1000000000 :=
  ⟨st 0x0B03 0 (recorder .armed (inst .idle run)), pf0, acc 0x0B03 0, 0, 0, 0, 0, 0, recOf .armed,
    by decide +kernel⟩

theorem test_meets_drcArm_RecorderCommandsComplete_4 : ∃ (s : State) (c : Cmd) (a : Accepted) (n index d : Nat) (x : Rec),
    s.Ready { op := 0x0B04, pf0 := false } c a ∧
    a.target = some n ∧
    (s.run.inst n).phase ≠ .free ∧
    s.run.drOf n index = some (d, x) ∧
    (x.phase = .stopped ∨ x.phase = .full) ∧
    x.roomToArm = true :=
  ⟨st 0x0B04 0 (recorder .stopped (inst .idle run)), pf0, acc 0x0B04 0, 0, 0, 0, recOf .stopped,
    by decide +kernel⟩

theorem test_meets_drcStop_RecorderCommandsComplete_5 : ∃ (s : State) (c : Cmd) (a : Accepted) (n index d : Nat) (x : Rec),
    s.Ready { op := 0x0B04, pf0 := false } c a ∧
    a.target = some n ∧
    (s.run.inst n).phase ≠ .free ∧
    s.run.drOf n index = some (d, x) :=
  ⟨st 0x0B04 0 (recorder .armed (inst .idle run)), pf0, acc 0x0B04 0, 0, 0, 0, recOf .armed,
    by decide +kernel⟩

theorem test_meets_drcList_RecorderCommandsComplete_6 : ∃ (s : State) (c : Cmd) (a : Accepted) (n index d : Nat) (x : Rec),
    s.Ready { op := 0x0B05, pf0 := false } c a ∧
    a.target = some n ∧
    (s.run.inst n).phase ≠ .free ∧
    s.run.drOf n index = some (d, x) ∧
    288 * x.held.length ≤ a.entry.bufLen ∧
    c.bufErr = false :=
  ⟨st 0x0B05 0 (recorder .idle (inst .idle run)), pf0, acc 0x0B05 0, 0, 0, 0, recOf .idle,
    by decide +kernel⟩

theorem test_meets_drcRead_RecorderCommandsComplete_7 : ∃ (s : State) (c : Cmd) (a : Accepted) (n index number first rows d : Nat) (x : Rec) (h : DrRecord),
    s.Ready { op := 0x0B06, pf0 := false } c a ∧
    a.target = some n ∧
    (s.run.inst n).phase ≠ .free ∧
    s.run.drOf n index = some (d, x) ∧
    x.heldRecord number = some h ∧
    first + rows ≤ h.rows.length ∧
    rows * h.rowBytes ≤ a.entry.bufLen ∧
    c.bufErr = false :=
  ⟨st 0x0B06 0 (recorder .idle (inst .idle run)), pf0, acc 0x0B06 0, 0, 0, 1, 0, 0, 0, recOf .idle, drRecord,
    by decide +kernel⟩

theorem test_meets_drcExport_RecorderCommandsComplete_8 : ∃ (s : State) (c : Cmd) (a : Accepted) (n index number d : Nat) (x : Rec) (h : DrRecord),
    s.Ready { op := 0x0B07, pf0 := false } c a ∧
    a.target = some n ∧
    (s.run.inst n).phase ≠ .free ∧
    s.run.drOf n index = some (d, x) ∧
    x.heldRecord number = some h ∧
    let items := s.run.comtradeItems s.sys.serial d x h
    let cfg := Config.comtradeCfg items
    let inf := Config.comtradeInf items
    let dat := (List.range h.rows.length).flatMap fun i => match h.rows[i]? with | some w => datSample (h.rows.head?.getD { q := 0, values := [], quals := [] }) h.record i w | none => []
    c.bufErr = false :=
  ⟨st 0x0B07 0 (recorder .idle (inst .idle run)), pf0, acc 0x0B07 0, 0, 0, 1, 0, recOf .idle, drRecord,
    by decide +kernel⟩

theorem test_meets_drcRelease_RecorderCommandsComplete_9 : ∃ (s : State) (c : Cmd) (a : Accepted) (n index number d : Nat) (x : Rec) (h : DrRecord),
    s.Ready { op := 0x0B08, pf0 := false } c a ∧
    a.target = some n ∧
    (s.run.inst n).phase ≠ .free ∧
    s.run.drOf n index = some (d, x) ∧
    x.heldRecord number = some h :=
  ⟨st 0x0B08 0 (recorder .idle (inst .idle run)), pf0, acc 0x0B08 0, 0, 0, 1, 0, recOf .idle, drRecord,
    by decide +kernel⟩

theorem test_meets_cellarFlushSecond_CellarRowsComplete_0 : ∃ (s : State) (dt : Nat),
    s.Up ∧
    (s.run.pass dt).onSecond = true ∧
    s.run.cel.stage ≠ [] :=
  ⟨up (time 1000000000 (run.modCel fun k => { k with stage := [{ seq := 1, micros := 0, type := 1, source := 0, inst := 0, epoch := 0, tq := 0, severity := 1, logEpoch := 0, data := [] }] })), 0,
    by decide +kernel⟩

theorem test_meets_cellarFlushDone_CellarRowsComplete_1 : ∃ (s : State) (dt tagErases : Nat) (err : Option (Nat × Nat)),
    s.Up ∧
    s.run.cel.flushing = true :=
  ⟨up (run.modCel fun k => { k with flushing := true }), 0, 0, none,
    by decide +kernel⟩

theorem test_meets_stageLossRecord_CellarRowsComplete_2 : ∃ (s : State) (dt : Nat),
    s.Up ∧
    s.run.cel.lostNow ≠ 0 ∧
    s.run.stageFull = false :=
  ⟨up (run.modCel fun k => { k with lostNow := 1 }), 0,
    by decide +kernel⟩

theorem test_meets_celRead_CellarRowsComplete_3 : ∃ (s : State) (c : Cmd) (a : Accepted) (start count : Nat) (bad : List Nat),
    s.Ready { op := 0x0C00, pf0 := true } c a ∧
    1 ≤ count ∧
    count ≤ 65536 ∧
    s.run.cel.tail ≤ start ∧
    let l := (s.run.cel.ring.filter fun x => decide (start ≤ x.seq)).take count
    72 * l.length ≤ a.entry.bufLen ∧
    c.bufErr = false :=
  ⟨st 0x0C00 noInst run, pf0, acc 0x0C00 noInst, 1, 65536, [],
    by decide +kernel⟩

theorem test_meets_celFlush_CellarRowsComplete_4 : ∃ (s : State) (c : Cmd) (a : Accepted),
    s.Ready { op := 0x0C01, pf0 := true } c a :=
  ⟨st 0x0C01 noInst run, pf0, acc 0x0C01 noInst,
    by decide +kernel⟩

theorem test_meets_celChallenge_CellarRowsComplete_5 : ∃ (s : State) (c : Cmd) (a : Accepted),
    s.Ready { op := 0x0C02, pf0 := true } c a ∧
    s.run.srm.trngFail = false ∧
    16 ≤ a.entry.bufLen ∧
    c.bufErr = false :=
  ⟨st 0x0C02 noInst run, pf0, acc 0x0C02 noInst,
    by decide +kernel⟩

theorem test_meets_celClear_CellarRowsComplete_6 : ∃ (s : State) (c : Cmd) (a : Accepted) (slot limit sig : Nat) (k : Key),
    s.Ready { op := 0x0C03, pf0 := true, buf := true, need := some 96 } c a ∧
    s.run.cel.clearing = none ∧
    s.run.cel.tail ≤ limit ∧
    limit < s.run.cel.nextSeq ∧
    8 ≤ slot ∧
    s.run.srm.key slot = some k ∧
    s.run.srm.trngFail = false ∧
    s.run.srm.commandServes k c.fn 5 = true :=
  ⟨st 0x0C03 noInst (challenged (run.modSrm fun x => { x with slots := [(255, { key 7 with attr := 0x3FFF0F0020 })] })), pf0, acc 0x0C03 noInst, 255, 9, 0, { key 7 with attr := 0x3FFF0F0020 },
    by decide +kernel⟩

theorem test_meets_lgrRead_LedgerRowsComplete_0 : ∃ (s : State) (c : Cmd) (a : Accepted) (first count : Nat),
    s.Ready { op := 0x0C04, pf0 := false } c a ∧
    first + count ≤ 4096 ∧
    (∀ k, first ≤ k → k < first + count → c.fn = 0 ∨ k < 256 ∨ tabGet s.run.lgr.owner k = some (c.fn - 1)) ∧
    8 * count ≤ a.entry.bufLen ∧
    c.bufErr = false :=
  ⟨st 0x0C04 noInst run, pf0, acc 0x0C04 noInst, 0, 4096,
    by decide +kernel, by decide +kernel, fun _ _ _ => Or.inl rfl, by decide +kernel, by decide +kernel⟩

theorem test_meets_lgrAssign_LedgerRowsComplete_1 : ∃ (s : State) (c : Cmd) (a : Accepted) (counter inst : Nat),
    s.Ready { op := 0x0C05, pf0 := true } c a ∧
    256 ≤ counter ∧
    counter < 4096 ∧
    inst < 32 :=
  ⟨st 0x0C05 noInst run, pf0, acc 0x0C05 noInst, 4095, 31,
    by decide +kernel⟩

theorem test_meets_lgrAdd_LedgerRowsComplete_2 : ∃ (s : State) (c : Cmd) (a : Accepted) (counter n : Nat),
    s.Ready { op := 0x0C06, pf0 := false } c a ∧
    256 ≤ counter ∧
    counter < 4096 ∧
    ((∃ k, a.target = some k ∧ tabGet s.run.lgr.owner counter = some k) ∨ (a.target = none ∧ c.fn = 0)) :=
  ⟨st 0x0C06 noInst run, pf0, acc 0x0C06 noInst, 4095, 0,
    by decide +kernel, by decide +kernel, by decide +kernel, Or.inr (by decide +kernel)⟩

theorem test_meets_operatingHour_LedgerRowsComplete_3 : ∃ (s : State) (dt : Nat),
    s.Up ∧
    s.run.lgr.powerAt + msTicks (3600000 * (s.run.lgr.hours + 1)) ≤ s.run.ticks + dt :=
  ⟨up run, 900000000000,
    by decide +kernel⟩

theorem test_meets_tempBinMinute_LedgerRowsComplete_4 : ∃ (s : State) (tj : Int) (dt : Nat),
    s.Up ∧
    s.run.lgr.minuteAt + msTicks 60000 ≤ s.run.ticks + dt :=
  ⟨up run, 0, 15000000000,
    by decide +kernel⟩

theorem test_meets_serviceDay_LedgerRowsComplete_5 : ∃ (s : State) (dt : Nat),
    s.Up :=
  ⟨up run, 0,
    by decide +kernel⟩

theorem test_meets_ledgerWrite_LedgerRowsComplete_6 : ∃ (s : State) (copyB : Bool) (dt x : Nat) (l : List Nat),
    s.Up ∧
    (s.run.pass dt).entriesDue = x :: l :=
  ⟨up ({ run with lgr := { run.lgr with pending := [300] } }), false, 0, 300, [],
    by decide +kernel⟩

theorem test_meets_ledgerWearCheck_LedgerRowsComplete_7 : ∃ (s : State) (dt : Nat),
    s.Up :=
  ⟨up run, 0,
    by decide +kernel⟩

theorem test_meets_keyRemask_StrongroomStateRowsComplete_0 : ∃ (s : State) (dt : Nat),
    s.Up ∧
    s.run.srm.remaskAt + msTicks 100 ≤ s.run.ticks + dt :=
  ⟨up run, 25000000,
    by decide +kernel⟩

theorem test_meets_trngHealthFail_StrongroomStateRowsComplete_1 : ∃ (s : State) (test dt : Nat),
    s.Running ∧
    s.run.srm.trngFail = false :=
  ⟨up run, 0, 0,
    by decide +kernel⟩

theorem test_meets_srmQuery_StrongroomStateRowsComplete_2 : ∃ (s : State) (c : Cmd) (a : Accepted),
    s.Ready { op := 0x0D00, pf0 := false } c a :=
  ⟨st 0x0D00 noInst run, pf0, acc 0x0D00 noInst,
    by decide +kernel⟩

theorem test_meets_srmLcChallenge_StrongroomStateRowsComplete_3 : ∃ (s : State) (c : Cmd) (a : Accepted),
    s.Ready { op := 0x0D01, pf0 := true } c a ∧
    s.run.srm.trngFail = false :=
  ⟨st 0x0D01 noInst run, pf0, acc 0x0D01 noInst,
    by decide +kernel⟩

theorem test_meets_srmLcAdvance_StrongroomStateRowsComplete_4 : ∃ (s : State) (c : Cmd) (a : Accepted) (target sig ownerKey fuses : Nat),
    s.Ready { op := 0x0D02, pf0 := true, buf := true, need := some (sigLen384 + if Lc.ofCode target = .secured then pointLen384 else 0) } c a ∧
    target < 5 ∧
    s.run.srm.lc.allows (Lc.ofCode target) = true ∧
    (Lc.ofCode target = .provisioned → s.run.srm.trngFail = false) :=
  ⟨st 0x0D02 noInst (challenged run), pf0, acc 0x0D02 noInst, 2, 0, 0, 0,
    by decide +kernel⟩

theorem test_meets_srmDebugUnlock_StrongroomStateRowsComplete_5 : ∃ (s : State) (c : Cmd) (a : Accepted) (sig : Nat),
    s.Ready { op := 0x0D12, pf0 := true, buf := true, need := some sigLen384 } c a ∧
    (s.run.insts.any fun i => i.phase == .active || i.phase == .shed) = false ∧
    s.run.srm.lc = .secured :=
  ⟨st 0x0D12 noInst (challenged ((keyed 1 run).modSrm fun x => { x with fuses := [3, 3, 0, 0] })), pf0, acc 0x0D12 noInst, 0,
    by decide +kernel⟩

theorem test_meets_srmKeyGenerate_KeyCommandsComplete_0 : ∃ (s : State) (c : Cmd) (a : Accepted) (slot type keyId attr : Nat),
    s.Ready { op := 0x0D03, pf0 := false } c a ∧
    s.run.newKeyRefused c.fn slot type keyId attr = none ∧
    isPublic type = false ∧
    type ≠ 8 ∧
    s.run.srm.trngFail = false ∧
    let x := s.run.generate type keyId attr
    let r := x.2.loadKey slot x.1
    (r.blobReply s.sys.serial slot x.1).Fits c a :=
  ⟨st 0x0D03 noInst run, pf0, acc 0x0D03 noInst, 255, 1, 0, 0x20F0020,
    by decide +kernel, by decide +kernel, by decide +kernel, by decide +kernel, by decide +kernel, blob_fits (by show 64 + wrappedLen 1 ≤ _; decide +kernel) rfl⟩

theorem test_meets_srmKeyLoad_KeyCommandsComplete_1 : ∃ (s : State) (c : Cmd) (a : Accepted) (slot : Nat) (blob : Blob),
    s.Ready { op := 0x0D04, pf0 := false, buf := true, need := some (64 + blob.wrappedLen) } c a ∧
    s.run.newKeyRefused c.fn slot blob.type blob.keyId blob.attr = none ∧
    let key (m : Nat) : Key := { type := blob.type, keyId := blob.keyId, gen := blob.gen, attr := blob.attr, material := m }
    (∀ m, ((s.run.loadKey slot (key m)).blobReply s.sys.serial slot (key m)).Fits c a) :=
  ⟨st 0x0D04 noInst run, pf0, acc 0x0D04 noInst, 255, { magic := 0, format := 1, root := 1, type := 1, keyId := 1, gen := 0, attr := 0x20F0020, serial := 0, slot := 0, created := 0, wrappedLen := 0, wrapped := 0 },
    by decide +kernel, by decide +kernel, fun _ => blob_fits (by show 64 + wrappedLen 1 ≤ _; decide +kernel) rfl⟩

theorem test_meets_srmKeyLoadClear_KeyCommandsComplete_2 : ∃ (s : State) (c : Cmd) (a : Accepted) (slot type keyId attr material : Nat),
    s.Ready { op := 0x0D05, pf0 := true, buf := true, need := some (materialBytes type) } c a ∧
    s.run.srm.lc ≠ .secured ∧
    s.run.srm.lc ≠ .scrapped ∧
    s.run.newKeyRefused c.fn slot type keyId attr = none ∧
    material < 256 ^ materialBytes type ∧
    let g := s.run.random 32
    let k : Key := { type := type, keyId := keyId, gen := g.1, attr := setDevice attr clearLoaded, material := material }
    let r := g.2.loadKey slot k
    (r.blobReply s.sys.serial slot k).Fits c a :=
  ⟨st 0x0D05 noInst run, pf0, acc 0x0D05 noInst, 255, 1, 0, 0x20F0020, 0,
    by decide +kernel, by decide +kernel, by decide +kernel, by decide +kernel, by decide +kernel, blob_fits (by show 64 + wrappedLen 1 ≤ _; decide +kernel) rfl⟩

theorem test_meets_srmKeyImport_KeyCommandsComplete_3 : ∃ (s : State) (c : Cmd) (a : Accepted) (slot type kekSlot keyId attr cipher : Nat) (kek : Key),
    s.Ready { op := 0x0D06, pf0 := false, buf := true, need := some (cipherLen type) } c a ∧
    s.run.newKeyRefused c.fn slot type keyId attr = none ∧
    8 ≤ kekSlot ∧
    s.run.srm.key kekSlot = some kek ∧
    kek.type = 2 ∧
    derivedAttrOk kek.attr = true ∧
    s.run.srm.commandServes kek c.fn 7 = true ∧
    let g := (s.run.srmCount 0).random 32
    let k (m : Nat) : Key := { type := type, keyId := keyId, gen := g.1, attr := setDevice attr 0, material := m }
    (∀ m, ((g.2.loadKey slot (k m)).blobReply s.sys.serial slot (k m)).Fits c a) :=
  ⟨st 0x0D06 noInst (run.modSrm fun x => { x with slots := [(255, kek)] }), pf0, acc 0x0D06 noInst, 8, 1, 255, 0, 0x20F0020, 0, kek,
    by decide +kernel, by decide +kernel, by decide +kernel, by decide +kernel, by decide +kernel, by decide +kernel, by decide +kernel, fun _ => blob_fits (by show 64 + wrappedLen 1 ≤ _; decide +kernel) rfl⟩

theorem test_meets_srmKeyDerive_KeyCommandsComplete_4 : ∃ (s : State) (c : Cmd) (a : Accepted) (slot privSlot keyId attr peer : Nat) (priv : Key),
    s.Ready { op := 0x0D07, pf0 := false, buf := true, need := some (s.run.srm.peerLen privSlot) } c a ∧
    s.run.newKeyRefused c.fn slot 2 keyId attr = none ∧
    derivedAttrOk attr = true ∧
    8 ≤ privSlot ∧
    s.run.srm.key privSlot = some priv ∧
    (priv.type = 4 ∨ priv.type = 5) ∧
    s.run.srm.commandServes priv c.fn 6 = true ∧
    let g := (s.run.srmCount 0).random 32
    let k (z : Nat) : Key := { type := 2, keyId := keyId, gen := g.1, attr := setDevice attr 0, material := Config.hmac z [label [0x53, 0x52, 0x4D, 0x49, 0x4D, 0x50], s.sys.serial, keyId, 1] }
    (∀ z, ((g.2.loadKey slot (k z)).blobReply s.sys.serial slot (k z)).Fits c a) :=
  ⟨st 0x0D07 noInst (keyed 4 run), pf0, acc 0x0D07 noInst, 8, 255, 0, 0x80020020, 0, key 4,
    by decide +kernel, by decide +kernel, by decide +kernel, by decide +kernel, by decide +kernel, by decide +kernel, by decide +kernel, fun _ => blob_fits (by show 64 + wrappedLen 2 ≤ _; decide +kernel) rfl⟩

theorem test_meets_srmKeyReplace_KeyCommandsComplete_5 : ∃ (s : State) (c : Cmd) (a : Accepted) (slot source kekSlot keyId cipher reach : Nat) (check : Option Nat) (blob : Blob) (old new : Key) (r : Run),
    s.Ready { op := 0x0D08, pf0 := false, buf := source != 1, need := some (s.run.srm.sourceLen slot source blob) } c a ∧
    s.run.srm.replacing c.fn c.cseq = none ∧
    s.run.srm.key slot = some old ∧
    8 ≤ slot ∧
    mayManage c.fn old.attr = true ∧
    s.run.srm.busy slot = false ∧
    s.run.replacement c old source kekSlot keyId blob cipher s.sys.serial = (r, .ok new) ∧
    new.type = old.type ∧
    setDevice new.attr 0 = setDevice old.attr 0 ∧
    r.srm.idTaken slot new.keyId new.attr = false ∧
    (∀ v, check = some v → v = kcv new 0) ∧
    let x := r.startReplace (r.replaceOf s.sys c slot old new) reach
    (∀ rep, x.2 = .done rep → rep.Fits c a) :=
  ⟨st 0x0D08 noInst (run.modSrm fun x => { x with slots := [(255, key 1)] }), pf0, acc 0x0D08 noInst, 255, 1, 0, 7, 0, 0, none, { magic := 0, format := 1, root := 1, type := 1, keyId := 1, gen := 0, attr := 0x20F0020, serial := 0, slot := 0, created := 0, wrappedLen := 0, wrapped := 0 }, key 1, { ((st 0x0D08 noInst (run.modSrm fun x => { x with slots := [(255, key 1)] })).run.generate 1 7 (key 1).attr).1 with gen := 1 }, ((st 0x0D08 noInst (run.modSrm fun x => { x with slots := [(255, key 1)] })).run.replacement pf0 (key 1) 1 0 7 { magic := 0, format := 1, root := 1, type := 1, keyId := 1, gen := 0, attr := 0x20F0020, serial := 0, slot := 0, created := 0, wrappedLen := 0, wrapped := 0 } 0 0).1,
    by decide +kernel, by decide +kernel, by decide +kernel, by decide +kernel, by decide +kernel, by decide +kernel, rfl, rfl, rfl, by decide +kernel, nofun, fun _ h => by cases h; exact blob_fits (by show 64 + wrappedLen 1 ≤ _; decide +kernel) rfl⟩

theorem test_meets_srmKeyReplace_KeyCommandsComplete_6 : ∃ (s : State) (c : Cmd) (slot source kekSlot keyId cipher reach : Nat) (check : Option Nat) (blob : Blob) (testOk : Bool) (x : Replace),
    s.Up ∧
    s.run.srm.replacing c.fn c.cseq = some x :=
  ⟨up ((run.modSrm fun x => { x with replaces := [{ fn := 0, cseq := 1, slot := 8, new := key 1, step := 1 }] })), pf0, 0, 0, 0, 0, 0, 0, none, { magic := 0, format := 1, root := 1, type := 1, keyId := 1, gen := 0, attr := 0x20F0020, serial := 0, slot := 0, created := 0, wrappedLen := 0, wrapped := 0 }, false, { fn := 0, cseq := 1, slot := 8, new := key 1, step := 1 },
    by decide +kernel⟩

theorem test_meets_srmKeyUnload_KeyCommandsComplete_7 : ∃ (s : State) (c : Cmd) (a : Accepted) (slot : Nat) (purge : Bool) (k : Key),
    s.Ready { op := 0x0D09, pf0 := false } c a ∧
    s.run.srm.key slot = some k ∧
    mayManage c.fn k.attr = true ∧
    8 ≤ slot ∧
    s.run.srm.busy slot = false :=
  ⟨st 0x0D09 noInst (keyed 1 run), pf0, acc 0x0D09 noInst, 255, false, key 1,
    by decide +kernel⟩

theorem test_meets_srmKeyAttr_KeyCommandsComplete_8 : ∃ (s : State) (c : Cmd) (a : Accepted) (slot bits : Nat) (k : Key),
    s.Ready { op := 0x0D0A, pf0 := false } c a ∧
    s.run.srm.key slot = some k ∧
    mayManage c.fn k.attr = true ∧
    8 ≤ slot ∧
    s.run.srm.busy slot = false ∧
    bits &&& clearable = bits ∧
    let k' : Key := { k with attr := k.attr &&& ((2 ^ 64 - 1) ^^^ bits) }
    let r := (s.run.modSrm fun x => x.withSlots (tabSet x.slots slot k')).persist slot k'
    (r.blobReply s.sys.serial slot k').Fits c a :=
  ⟨st 0x0D0A noInst (keyed 1 run), pf0, acc 0x0D0A noInst, 255, 0x1000000, key 1,
    by decide +kernel, by decide +kernel, by decide +kernel, by decide +kernel, by decide +kernel, by decide +kernel, blob_fits (by show 64 + wrappedLen 1 ≤ _; decide +kernel) rfl⟩

theorem test_meets_srmKeyInfo_KeyCommandsComplete_9 : ∃ (s : State) (c : Cmd) (a : Accepted) (slot : Nat) (k : Key),
    s.Ready { op := 0x0D0B, pf0 := false } c a ∧
    s.run.srm.key slot = some k ∧
    mayManage c.fn k.attr = true :=
  ⟨st 0x0D0B noInst (keyed 1 run), pf0, acc 0x0D0B noInst, 255, key 1,
    by decide +kernel⟩

theorem test_meets_srmKeyExport_KeyCommandsComplete_10 : ∃ (s : State) (c : Cmd) (a : Accepted) (slot kekSlot : Nat) (k kek : Key),
    s.Ready { op := 0x0D0C, pf0 := false } c a ∧
    s.run.srm.key slot = some k ∧
    mayManage c.fn k.attr = true ∧
    k.attr.testBit 32 = true ∧
    8 ≤ slot ∧
    8 ≤ kekSlot ∧
    s.run.srm.key kekSlot = some kek ∧
    kek.type = 2 ∧
    derivedAttrOk kek.attr = true ∧
    s.run.srm.commandServes kek c.fn 7 = true ∧
    cipherLen k.type ≤ a.entry.bufLen ∧
    c.bufErr = false :=
  ⟨st 0x0D0C noInst ((keyed 1 run).modSrm fun x => { x with slots := [(254, kek), (255, key 1)] }), pf0, acc 0x0D0C noInst, 255, 254, key 1, kek,
    by decide +kernel⟩

theorem test_meets_srmCrypt_CryptoCommandsComplete_0 : ∃ (s : State) (c : Cmd) (a : Accepted) (slot op : Nat) (d : CryptData) (k : Key),
    s.Ready { op := 0x0D0D, pf0 := false, buf := true, need := some d.len } c a ∧
    op < 8 ∧
    d.len ≤ 65536 ∧
    8 ≤ slot ∧
    s.run.srm.key slot = some k ∧
    s.run.srm.commandServes k c.fn (cryptUsage op) = true ∧
    cryptFits op k.type = true ∧
    (op = 0 ∨ op = 2 → s.run.srm.trngFail = false ∧ k.uses < 2 ^ 32) ∧
    d.len + 96 ≤ a.entry.bufLen ∧
    c.bufErr = false :=
  ⟨st 0x0D0D noInst (keyed 1 run), pf0, acc 0x0D0D noInst, 255, 0, { len := 65536 }, key 1,
    by decide +kernel⟩

theorem test_meets_srmRandom_CryptoCommandsComplete_1 : ∃ (s : State) (c : Cmd) (a : Accepted) (len : Nat),
    s.Ready { op := 0x0D0E, pf0 := false } c a ∧
    1 ≤ len ∧
    len ≤ 4096 ∧
    s.run.srm.trngFail = false ∧
    len ≤ a.entry.bufLen ∧
    c.bufErr = false :=
  ⟨st 0x0D0E noInst run, pf0, acc 0x0D0E noInst, 4096,
    by decide +kernel⟩

theorem test_meets_srmAttestKey_CryptoCommandsComplete_2 : ∃ (s : State) (c : Cmd) (a : Accepted) (slot nonce : Nat) (k identity : Key),
    s.Ready { op := 0x0D0F, pf0 := false } c a ∧
    s.run.srm.key slot = some k ∧
    mayManage c.fn k.attr = true ∧
    s.run.srm.lc ≠ .scrapped ∧
    s.run.srm.lc ≠ .blank ∧
    s.run.srm.key 0 = some identity ∧
    288 ≤ a.entry.bufLen ∧
    c.bufErr = false :=
  ⟨st 0x0D0F noInst (keyed 1 run), pf0, acc 0x0D0F noInst, 255, 0, key 1, key 5,
    by decide +kernel⟩

theorem test_meets_srmAttestDevice_CryptoCommandsComplete_3 : ∃ (s : State) (c : Cmd) (a : Accepted) (nonce : Nat) (identity : Key),
    s.Ready { op := 0x0D10, pf0 := false } c a ∧
    s.run.srm.lc ≠ .blank ∧
    s.run.srm.key 0 = some identity ∧
    416 ≤ a.entry.bufLen ∧
    c.bufErr = false :=
  ⟨st 0x0D10 noInst (keyed 1 run), pf0, acc 0x0D10 noInst, 0, key 5,
    by decide +kernel⟩

theorem test_meets_srmIdentity_CryptoCommandsComplete_4 : ∃ (s : State) (c : Cmd) (a : Accepted) (identity : Key),
    s.Ready { op := 0x0D11, pf0 := false } c a ∧
    s.run.srm.lc ≠ .blank ∧
    s.run.srm.key 0 = some identity ∧
    193 ≤ a.entry.bufLen ∧
    c.bufErr = false :=
  ⟨st 0x0D11 noInst (keyed 1 run), pf0, acc 0x0D11 noInst, key 5,
    by decide +kernel⟩

theorem test_meets_canFrameReceive_FieldBusEventsComplete_0 : ∃ (s : State) (n sof tec rec' dt : Nat) (f : CanFrame) (locked : Bool),
    s.Running ∧
    n < 4 ∧
    (s.run.can n).onBus = true :=
  ⟨up (can { record := canRec } (fun c => c) run), 3, 0, 0, 0, 0, { ident := 1, dlc := 0, data := [] }, false,
    by decide +kernel⟩

theorem test_meets_canFrameEnd_FieldBusEventsComplete_1 : ∃ (s : State) (n b tec rec' dt : Nat) (e : CanEnd) (tdcv : Option Nat) (x : CanBuf),
    s.Running ∧
    n < 4 ∧
    (s.run.can n).onBus = true ∧
    (s.run.can n).listen = false ∧
    tabGet (s.run.can n).bufs b = some x ∧
    x.pending = true ∧
    (s.run.can n).offered.contains b = true :=
  ⟨up (can { record := canRec, pending := true } (fun c => { c with offered := [127] }) run), 3, 127, 0, 0, 0, (.acked 0), none, { record := canRec, pending := true },
    by decide +kernel⟩

theorem test_meets_canSlotInstant_FieldBusEventsComplete_2 : ∃ (s : State) (n cycle slot dt : Nat),
    s.Running :=
  ⟨up run, 0, 0, 0, 0,
    by decide +kernel⟩

theorem test_meets_canSlotWindowExpiry_FieldBusEventsComplete_3 : ∃ (s : State) (n cycle slot dt : Nat),
    s.Running :=
  ⟨up run, 0, 0, 0, 0,
    by decide +kernel⟩

theorem test_meets_canSupervisionExpiry_FieldBusEventsComplete_4 : ∃ (s : State) (n b dt : Nat),
    s.Running :=
  ⟨up run, 0, 0, 0,
    by decide +kernel⟩

theorem test_meets_canRecoveryDone_FieldBusEventsComplete_5 : ∃ (s : State) (n dt : Nat),
    s.Running ∧
    n < 4 ∧
    (s.run.can n).state = 2 ∧
    (s.run.can n).recovering = true ∧
    (s.run.can n).init = false :=
  ⟨up (can { record := canRec } (fun c => { c with state := 2, recovering := true }) run), 3, 0,
    by decide +kernel⟩

theorem test_meets_fbBufSet_FieldBusCommandsComplete_0 : ∃ (s : State) (c : Cmd) (a : Accepted) (n b : Nat) (x : CanRec),
    s.Ready { op := 0x0E00, pf0 := true, buf := true, need := some 16 } c a ∧
    n < 4 ∧
    b < 128 ∧
    x.ok = true ∧
    s.run.bufNamed n b = false :=
  ⟨st 0x0E00 noInst run, pf0, acc 0x0E00 noInst, 3, 127, canRec,
    by decide +kernel⟩

theorem test_meets_fbSchedSet_FieldBusCommandsComplete_1 : ∃ (s : State) (c : Cmd) (a : Accepted) (n len window : Nat) (cycles : List (List CanSlot)),
    s.Ready { op := 0x0E01, pf0 := true, buf := true, need := some (128 * cycles.length) } c a ∧
    n < 4 ∧
    (s.run.can n).schedEn = false ∧
    schedOk cycles len = true :=
  ⟨st 0x0E01 noInst run, pf0, acc 0x0E01 noInst, 3, 1000000000, 0, [[some (127, 0), none]],
    by decide +kernel⟩

theorem test_meets_fbTx_FieldBusCommandsComplete_2 : ∃ (s : State) (c : Cmd) (a : Accepted) (n b : Nat) (data : List Nat) (x : CanBuf),
    s.Ready { op := 0x0E02, pf0 := false, buf := true, need := some data.length } c a ∧
    n < 4 ∧
    b < 128 ∧
    s.run.canBuf n b = some x ∧
    (c.fn = 0 ∨ x.record.inst + 1 = c.fn) ∧
    x.record.tx = true ∧
    data.length ≤ dlcLength x.record.fdf x.record.dlc ∧
    x.pending = false ∧
    (s.run.can n).state ≠ 2 :=
  ⟨st 0x0E02 noInst (can { record := canRec } (fun c => c) run), pf0, acc 0x0E02 noInst, 3, 127, List.replicate 8 0, { record := canRec },
    by decide +kernel⟩

theorem test_meets_fbCancel_FieldBusCommandsComplete_3 : ∃ (s : State) (c : Cmd) (a : Accepted) (n b : Nat) (onWire : Bool) (x : CanBuf),
    s.Ready { op := 0x0E03, pf0 := false } c a ∧
    n < 4 ∧
    b < 128 ∧
    s.run.canBuf n b = some x ∧
    (c.fn = 0 ∨ x.record.inst + 1 = c.fn) ∧
    x.pending = true :=
  ⟨st 0x0E03 noInst (can { record := canRec, pending := true } (fun c => c) run), pf0, acc 0x0E03 noInst, 3, 127, false, { record := canRec, pending := true },
    by decide +kernel⟩

theorem test_meets_fbBufRead_FieldBusCommandsComplete_4 : ∃ (s : State) (c : Cmd) (a : Accepted) (n b : Nat) (x y : CanBuf) (d : CanStore),
    s.Ready { op := 0x0E04, pf0 := false } c a ∧
    n < 4 ∧
    b < 128 ∧
    s.run.canBuf n b = some x ∧
    (c.fn = 0 ∨ x.record.inst + 1 = c.fn) ∧
    (s.run.modBuf n b CanBuf.settle).canBuf n b = some y ∧
    y.content = some d ∧
    (d.data.length = 0 ∨ (d.data.length ≤ a.entry.bufLen ∧ c.bufErr = false)) :=
  ⟨st 0x0E04 noInst (can { record := canRec, content := some { ident := 1, dlc := 1, flags := 0, time := 0, data := [7] } } (fun c => c) run), pf0, acc 0x0E04 noInst, 3, 127, { record := canRec, content := some { ident := 1, dlc := 1, flags := 0, time := 0, data := [7] } }, { record := canRec, content := some { ident := 1, dlc := 1, flags := 0, time := 0, data := [7] } }, { ident := 1, dlc := 1, flags := 0, time := 0, data := [7] },
    by decide +kernel⟩

theorem test_meets_fbBufRead_FieldBusCommandsComplete_5 : ∃ (s : State) (c : Cmd) (a : Accepted) (n b : Nat) (x y : CanBuf),
    s.Ready { op := 0x0E04, pf0 := false } c a ∧
    n < 4 ∧
    b < 128 ∧
    s.run.canBuf n b = some x ∧
    (c.fn = 0 ∨ x.record.inst + 1 = c.fn) ∧
    (s.run.modBuf n b CanBuf.settle).canBuf n b = some y ∧
    y.content = none :=
  ⟨st 0x0E04 noInst (can { record := canRec } (fun c => c) run), pf0, acc 0x0E04 noInst, 3, 127, { record := canRec }, { record := canRec },
    by decide +kernel⟩

theorem test_meets_fbRecover_FieldBusCommandsComplete_6 : ∃ (s : State) (c : Cmd) (a : Accepted) (n : Nat),
    s.Ready { op := 0x0E05, pf0 := true } c a ∧
    n < 4 ∧
    (s.run.can n).state = 2 :=
  ⟨st 0x0E05 noInst (can { record := canRec } (fun c => { c with state := 2 }) run), pf0, acc 0x0E05 noInst, 3,
    by decide +kernel⟩

theorem test_meets_errorReport_FaultRowsComplete_0 : ∃ (s : State) (unit kind dt : Nat) (by' : Reader),
    s.Running ∧
    (∀ fid cell, by' = .frame fid cell → ¬ (unit = unitId 10 16 ∧ kind = 0) ∧ ¬ (unit = unitId 1 (cell / 1024 % 64) ∧ kind = 2 ∧ ((s.run.pass dt).held fid).isSome = true)) ∧
    unitExists (rowsOf s.sys.capacity) unit = true ∧
    kindApplies (unitClass unit) kind = true :=
  ⟨up run, unitId 1 0, 1, 0, .nothing,
    by decide +kernel, nofun, by decide +kernel, by decide +kernel⟩

theorem test_meets_errorReport_FaultRowsComplete_1 : ∃ (s : State) (fid cell dt : Nat),
    s.Running :=
  ⟨up run, 0, 0, 0,
    by decide +kernel⟩

theorem test_meets_errorReport_FaultRowsComplete_2 : ∃ (s : State) (fid cell dt : Nat) (h : Held),
    s.Running ∧
    (s.run.pass dt).held fid = some h :=
  ⟨up (run.modSw fun w => { w with frames := [(0, held)] }), 0, 0, 0, held,
    by decide +kernel⟩

theorem test_meets_sramScrub_FaultRowsComplete_3 : ∃ (s : State) (bank found dt : Nat),
    s.Running ∧
    (unitClass bank = 1 ∨ unitClass bank = 2) ∧
    unitExists 0 bank = true ∧
    (found = 1 ∨ found = 2) :=
  ⟨up run, unitId 1 0, 2, 0,
    by decide +kernel⟩

theorem test_meets_selfTestDone_FaultRowsComplete_4 : ∃ (s : State) (unit dt : Nat) (pass : Bool) (t : TestSlot),
    s.Running ∧
    tabGet s.run.flt.slots (unitClass unit) = some t ∧
    t.unit = unit ∧
    t.busy = true ∧
    unitClass unit ≠ 11 ∧
    t.since + testTicks (unitClass unit) ≤ s.run.ticks + dt :=
  ⟨up ({ run with flt := { run.flt with slots := [(2, { unit := unitId 2 15, since := 0 })] } }), unitId 2 15, 250000000, false, { unit := unitId 2 15, since := 0 },
    by decide +kernel⟩

theorem test_meets_islandPllRelock_FaultRowsComplete_5 : ∃ (s : State) (i dt t : Nat),
    s.Running ∧
    tabGet s.run.flt.unlocked i = some t :=
  ⟨up ({ run with flt := { run.flt with unlocked := [(3, 0)] } }), 3, 0, 0,
    by decide +kernel⟩

theorem test_meets_islandRelockTimeout_FaultRowsComplete_6 : ∃ (s : State) (i dt t : Nat),
    s.Running ∧
    tabGet s.run.flt.unlocked i = some t ∧
    t + msTicks 10 ≤ s.run.ticks + dt :=
  ⟨up ({ run with flt := { run.flt with unlocked := [(3, 0)] } }), 3, 2500000, 0,
    by decide +kernel⟩

theorem test_meets_hkpReturn_FaultRowsComplete_7 : ∃ (s : State) (pass : Bool) (dt : Nat) (t : TestSlot),
    s.Running ∧
    tabGet s.run.flt.slots 11 = some t ∧
    s.run.flt.hkpAway = true ∧
    t.since + testTicks 11 ≤ s.run.ticks + dt :=
  ⟨up ({ run with flt := { run.flt with hkpAway := true, slots := [(11, { unit := unitId 11 0, since := 0 })] } }), false, 250000000, { unit := unitId 11 0, since := 0 },
    by decide +kernel⟩

theorem test_meets_admissionRun_FaultRowsComplete_8 : ∃ (s : State) (dt : Nat),
    s.Running ∧
    s.run.flt.admission.isSome = true :=
  ⟨up ({ run with flt := { run.flt with admission := some 0 } }), 0,
    by decide +kernel⟩

theorem test_meets_fltList_FaultRowsComplete_9 : ∃ (s : State) (c : Cmd) (a : Accepted),
    s.Ready { op := 0x0F00, pf0 := true } c a ∧
    let l := s.run.faultRecord.flt.units.filterMap (unitEntry s.run.faultRecord.now)
    24 * l.length ≤ a.entry.bufLen ∧
    c.bufErr = false :=
  ⟨st 0x0F00 noInst run, pf0, acc 0x0F00 noInst,
    by decide +kernel⟩

theorem test_meets_fltUnitRetest_FaultRowsComplete_10 : ∃ (s : State) (c : Cmd) (a : Accepted) (unit : Nat),
    s.Ready { op := 0x0F01, pf0 := true } c a ∧
    unitExists (rowsOf s.sys.capacity) unit = true ∧
    unitClass unit < 10 ∧
    (s.run.faultRecord.unit unit).replaced = false ∧
    s.run.faultRecord.flt.inRecovery (unitClass unit) = false ∧
    ((s.run.faultRecord.unit unit).state = .suspect ∨ (s.run.faultRecord.unit unit).state = .retired) :=
  ⟨st 0x0F01 noInst ({ run with flt := { run.flt with units := [(unitId 2 15, { state := .suspect })] } }), pf0, acc 0x0F01 noInst, unitId 2 15,
    by decide +kernel⟩

theorem test_meets_fltInject_FaultRowsComplete_11 : ∃ (s : State) (c : Cmd) (a : Accepted) (unit kind : Nat),
    s.Ready { op := 0x0F02, pf0 := true } c a ∧
    unitExists (rowsOf s.sys.capacity) unit = true ∧
    kindApplies (unitClass unit) kind = true :=
  ⟨st 0x0F02 noInst run, pf0, acc 0x0F02 noInst, unitId 2 15, 3,
    by decide +kernel⟩

theorem test_meets_coldStart_StartRowsComplete_0 : ∃ (s : State) (k : StartIn) (dt : Nat),
    s.sys.phase = .reset ∧
    s.sys.porstN = false ∧
    s.sys.sysrstN = true ∧
    s.sys.thermal = false :=
  ⟨device (fun x => { x with phase := .reset, porstN := false }) (up run), startIn, 0,
    by decide +kernel⟩

theorem test_meets_coldStart_StartRowsComplete_1 : ∃ (s : State) (k : StartIn) (dt : Nat),
    s.sys.phase ≠ .reset ∧
    s.sys.pwrfailAt = none ∧
    s.sys.restartAsked = some true :=
  ⟨device (fun x => { x with restartAsked := some true }) (up run), startIn, 0,
    by decide +kernel⟩

theorem test_meets_warmStart_StartRowsComplete_2 : ∃ (s : State) (k : StartIn) (dt : Nat),
    s.sys.phase = .reset ∧
    s.sys.porstN = true ∧
    s.sys.sysrstN = false ∧
    s.sys.thermal = false ∧
    s.sys.stuck = false ∧
    s.sys.pwrfailReset = false :=
  ⟨device (fun x => { x with phase := .reset, sysrstN := false }) (up run), startIn, 0,
    by decide +kernel⟩

theorem test_meets_warmStart_StartRowsComplete_3 : ∃ (s : State) (k : StartIn) (dt : Nat),
    s.sys.phase ≠ .reset ∧
    s.sys.pwrfailAt = none ∧
    s.sys.restartAsked = some false :=
  ⟨device (fun x => { x with restartAsked := some false }) (up run), startIn, 0,
    by decide +kernel⟩

theorem test_meets_protectionStart_StartRowsComplete_4 : ∃ (s : State) (dt : Nat),
    s.sys.phase = .ready ∧
    s.run.srm.mayRun = true :=
  ⟨device (fun x => { x with phase := .ready }) (up run), 0,
    by decide +kernel⟩

theorem test_meets_trialBootTimeout_StartRowsComplete_5 : ∃ (s : State) (k : StartIn) (dt : Nat),
    (s.sys.phase = .ready ∨ s.sys.stuck = true) ∧
    s.sys.boot.trial = true ∧
    s.sys.boot.startedAt + msTicks 1500 ≤ s.run.ticks + dt :=
  ⟨device (fun x => { x with phase := .ready, boot := { trial := true } }) (up run), startIn, 375000000,
    by decide +kernel⟩

theorem test_meets_autoConfirmExpiry_StartRowsComplete_6 : ∃ (s : State) (dt : Nat),
    s.sys.phase = .running ∧
    s.sys.boot.trial = true ∧
    s.run.flt.healthy = true ∧
    s.sys.autoConfirm ≠ 0 ∧
    s.sys.healthySince + msTicks (1000 * s.sys.autoConfirm) ≤ s.run.ticks + dt :=
  ⟨device (fun x => { x with boot := { trial := true }, autoConfirm := 1 }) (up { run with flt := { run.flt with healthy := true } }), 250000000,
    by decide +kernel⟩

theorem test_meets_sysrstNFall_ResetAndPowerRowsComplete_0 : ∃ (s : State) (dt : Nat),
    s.sys.phase ≠ .reset :=
  ⟨up run, 0,
    by decide +kernel⟩

theorem test_meets_pwrfailNFall_ResetAndPowerRowsComplete_2 : ∃ (s : State) (lowNs dt : Nat),
    s.sys.phase ≠ .reset ∧
    s.sys.pwrfailAt = none ∧
    10000 ≤ lowNs :=
  ⟨up run, 10000, 0,
    by decide +kernel⟩

theorem test_meets_powerFailReset_ResetAndPowerRowsComplete_3 : ∃ (s : State) (dt t : Nat),
    s.sys.pwrfailAt = some t ∧
    t + msTicks 2 ≤ s.run.ticks + dt :=
  ⟨device (fun x => { x with pwrfailAt := some 0 }) (up run), 500000, 0,
    by decide +kernel⟩

theorem test_meets_pwrfailNRise_ResetAndPowerRowsComplete_4 : ∃ (s : State) (k : StartIn) (dt : Nat),
    s.sys.phase = .reset ∧
    s.sys.porstN = true ∧
    s.sys.sysrstN = true ∧
    s.sys.thermal = false ∧
    s.sys.stuck = false ∧
    s.sys.pwrfailReset = true :=
  ⟨device (fun x => { x with phase := .reset, pwrfailReset := true }) (up run), startIn, 0,
    by decide +kernel⟩

theorem test_meets_aonFeedChange_ResetAndPowerRowsComplete_5 : ∃ (s : State) (a b : Bool) (dt : Nat),
    s.sys.phase ≠ .reset ∧
    ¬ (a = s.sys.vaonA ∧ b = s.sys.vaonB) :=
  ⟨up run, true, false, 0,
    by decide +kernel⟩

theorem test_meets_thermalTrip_ResetAndPowerRowsComplete_7 : ∃ (s : State) (tj : Int) (dt : Nat),
    2000 ≤ tj ∧
    s.sys.corePower = true ∧
    s.sys.thermal = false :=
  ⟨up run, 2000, 0,
    by decide +kernel⟩

theorem test_meets_thermalRecover_ResetAndPowerRowsComplete_8 : ∃ (s : State) (k : StartIn) (dt : Nat),
    s.sys.thermal = true ∧
    k.tj < 1600 ∧
    s.sys.porstN = true ∧
    s.sys.sysrstN = true :=
  ⟨device (fun x => { x with thermal := true }) (up run), startIn, 0,
    by decide +kernel⟩

theorem test_meets_devRestart_BootCommandsComplete_0 : ∃ (s : State) (c : Cmd) (a : Accepted) (cold : Bool),
    s.Ready { op := 0x0140, pf0 := true, recovery := true } c a :=
  ⟨st 0x0140 noInst run, pf0, acc 0x0140 noInst, false,
    by decide +kernel⟩

theorem test_meets_devImageWrite_BootCommandsComplete_1 : ∃ (s : State) (c : Cmd) (a : Accepted) (offset len erased : Nat) (content : Image),
    s.Ready { op := 0x0141, pf0 := true, buf := true, need := some len, recovery := true } c a ∧
    len ≤ 2 ^ 20 ∧
    offset + len ≤ 2 ^ 25 ∧
    s.sys.bcb.active = s.sys.boot.imageB ∧
    s.sys.bcb.trial ≠ some (!s.sys.boot.imageB) :=
  ⟨st 0x0141 noInst run, pf0, acc 0x0141 noInst, 2 ^ 25 - 2 ^ 20, 2 ^ 20, 0, {},
    by decide +kernel⟩

theorem test_meets_devImageCommit_BootCommandsComplete_2 : ∃ (s : State) (c : Cmd) (a : Accepted) (tries : Nat),
    s.Ready { op := 0x0142, pf0 := true, recovery := true } c a ∧
    1 ≤ tries ∧
    tries ≤ 7 ∧
    let b := !s.sys.boot.imageB
    (s.sys.image b).good = true ∧
    s.sys.svnMin ≤ (s.sys.image b).svn :=
  ⟨device (fun x => { x with imageB := { good := true } }) (st 0x0142 noInst run), pf0, acc 0x0142 noInst, 7,
    by decide +kernel⟩

theorem test_meets_devImageConfirm_BootCommandsComplete_3 : ∃ (s : State) (c : Cmd) (a : Accepted),
    s.Ready { op := 0x0143, pf0 := true } c a ∧
    s.sys.boot.trial = true :=
  ⟨device (fun x => { x with boot := { trial := true } }) (st 0x0143 noInst run), pf0, acc 0x0143 noInst,
    by decide +kernel⟩

theorem test_meets_devBootQuery_BootCommandsComplete_4 : ∃ (s : State) (c : Cmd) (a : Accepted),
    s.Ready { op := 0x0144, pf0 := false, recovery := true } c a :=
  ⟨st 0x0144 noInst run, pf0, acc 0x0144 noInst,
    by decide +kernel⟩

theorem test_meets_commandFetch_WrongCseqStallsTheRing_0 : ∃ (s : State) (fn : Nat) (octets : List Nat),
    s.Up ∧
    fn < 33 ∧
    s.run.mayFetch s.sys fn = true ∧
    fn < s.run.fns.length ∧
    let e := entryOf octets
    e.cseq ≠ (s.run.fn fn).cseqAccepted + 1 :=
  ⟨up ((vnic 1 run)), 0, [],
    by decide +kernel⟩

theorem test_meets_commandFetch_WrongCseqStallsTheRing_1 : ∃ (s : State) (fn : Nat) (octets : List Nat) (poisoned : Bool),
    (s.run.fn fn).seqStall = true :=
  ⟨up (run.modFn 0 fun f => { f with seqStall := true }), 0, [], false,
    by decide +kernel⟩

theorem test_meets_cmdEnableFall_WrongCseqStallsTheRing_2 : ∃ (s : State) (fn : Nat),
    s.Up ∧
    fn < 33 ∧
    fn < s.run.fns.length :=
  ⟨up run, 0,
    by decide +kernel⟩

theorem test_meets_commandFetch_WrongCseqStallsTheRing_3 : ∃ (s : State) (fn : Nat) (octets : List Nat) (poisoned : Bool),
    (s.run.fn fn).cmdEn = false :=
  ⟨up run, 0, [], false,
    by decide +kernel⟩

theorem test_meets_cmdEnableRise_WrongCseqStallsTheRing_4 : ∃ (s : State) (fn : Nat),
    s.Hosts fn ∧
    fn < 33 ∧
    fn < s.run.fns.length ∧
    (s.run.fn fn).cmdEn = false ∧
    (s.run.fn fn).seqStall = false :=
  ⟨up run, 0,
    by decide +kernel⟩

theorem test_meets_ringHostWrite_InvalidDoorbellIsIgnored_0 : ∃ (s : State) (fn ring : Nat) (count : Word),
    s.Hosts fn ∧
    fn < 33 ∧
    fn < s.run.fns.length ∧
    ring < 4 ∧
    let g := (s.run.fn fn).ring ring
    (if ring = 1 then (g.dev - g.host).toNat < (count - g.host).toNat else 2 ^ g.log2 < (count - g.dev).toNat) :=
  ⟨up run, 32, 3, 17,
    by decide +kernel⟩

theorem test_meets_instSetShare_SharesTakeEffectAtThePeriodBoundary_0 : ∃ (s : State) (c : Cmd) (a : Accepted) (n resource share : Nat),
    s.Ready { op := 0x0206, pf0 := true } c a ∧
    a.target = some n ∧
    (s.run.inst n).phase ≠ .free ∧
    resource ≤ 2 ∧
    share ≤ 1024 ∧
    n < s.run.insts.length ∧
    s.run.sharesFit n ((s.run.inst n).granted.put resource share) = true :=
  ⟨st 0x0206 0 (inst .idle run), pf0, acc 0x0206 0, 0, 2, 1024,
    by decide +kernel⟩

theorem test_meets_instSetShare_SharesTakeEffectAtThePeriodBoundary_1 : ∃ (s : State) (c : Cmd) (a : Accepted) (n resource share : Nat),
    s.Ready { op := 0x0206, pf0 := true } c a ∧
    a.target = some n ∧
    (s.run.inst n).phase ≠ .free ∧
    resource ≤ 2 ∧
    share ≤ 1024 ∧
    s.run.sharesFit n ((s.run.inst n).granted.put resource share) = false :=
  ⟨st 0x0206 0 ((inst .idle run).modInst 1 fun i => { i with phase := .idle, granted := { ingest := 1 } }), pf0, acc 0x0206 0, 0, 2, 1024,
    by decide +kernel⟩

theorem test_meets_accountingPeriod_SharesTakeEffectAtThePeriodBoundary_2 : ∃ (s : State) (n dt : Nat),
    s.Running ∧
    (s.run.pass dt).passed 1000000 0 = true :=
  ⟨up run, 0, 0,
    by decide +kernel⟩

theorem test_meets_snapTake_SnapshotTakeFixesItsInstant_0 : ∃ (s : State),
    s.Up ∧
    s.run.sw.snapAt = none :=
  ⟨up run,
    by decide +kernel⟩

theorem test_meets_snapTake_SnapshotTakeFixesItsInstant_1 : ∃ (s : State) (T : Instant),
    s.run.sw.snapAt = some T :=
  ⟨up (run.modSw fun w => { w with snapAt := some 0 }), 0,
    by decide +kernel⟩

theorem test_meets_stageLossRecord_FullStageDropsTheRecord_1 : ∃ (s : State) (dt : Nat),
    s.Up ∧
    s.run.cel.lostNow ≠ 0 ∧
    s.run.stageFull = false ∧
    s.run.cel.powerFail = false ∧
    s.run.flt.lasting.contains 26 = false ∧
    s.run.cel.lostNow < 2 ^ 32 :=
  ⟨up (run.modCel fun k => { k with lostNow := 1 }), 0,
    by decide +kernel⟩

theorem test_meets_cleVarWrite_VariableWriteStoresItsOctets_0 : ∃ (s : State) (c : Cmd) (a : Accepted) (n index addr : Nat) (octets : List Byte) (t : TaskSt),
    s.Ready { op := 0x0806, pf0 := false, buf := true, need := some octets.length } c a ∧
    a.target = some n ∧
    (s.run.inst n).phase ≠ .free ∧
    s.run.task n index = some t ∧
    (t.mode = .stop ∨ (t.mode = .hold ∧ t.task.supervisory = true)) ∧
    t.image = none ∧
    spanOk t.task addr octets.length = true ∧
    (∀ k < octets.length, (t.task.vars.any fun v => decide (v.addr ≤ addr + k) && decide (addr + k < v.addr + v.size)) = true) :=
  ⟨st 0x0806 0 (tasks (task .hold [0x04000000]) (inst .idle run)), pf0, acc 0x0806 0, 0, 0, 0, [1], (task .hold [0x04000000]),
    by decide +kernel⟩


/-! ### Witnesses of the statements over every command -/

/-- A state and a row that meet the hypotheses of OnlyDeviceRowsChangeTheDevice, ReadingCommandsOnlyRead among them. -/
theorem test_meets_frames_reading : ∃ (i : Instr) (s t : State), changesDevice i = false ∧ onlyReads i = true ∧ exec i s = .next t :=
  ⟨.devNop pf0, st 0x0100 noInst run, _, rfl, rfl, rfl⟩

theorem test_meets_frames_staging : ∃ (i : Instr) (s t : State), onlyStages i = true ∧ exec i s = .next t :=
  ⟨.cleProgUnload pf0, st 0x0801 0 (inst .idle run), _, rfl, rfl⟩

theorem test_meets_frames_rings : ∃ (i : Instr) (s t : State), onlyHostInterface i = true ∧ exec i s = .next t :=
  ⟨.cmdEnableRise 32, up run, _, rfl, rfl⟩

theorem test_meets_StepKeepsBlockInvariant : ∃ s t : State, Sys.Inv s.sys ∧ step s = .next t :=
  ⟨State.reset, _, by constructor <;> decide +kernel, rfl⟩

theorem test_meets_VfIsDenied : ∃ (i : Instr) (s : State) (c : Cmd) (a : Accepted) (op : Nat), pf0Command i = some (op, c) ∧ c.fn ≠ 0 ∧
    s.sys.phase ≠ .recovery ∧ s.commandFor { op := op, pf0 := true } c = some a :=
  let e : CmdEntry := { cseq := 1, opcode := 0x0200, bufLen := 0 }
  let a : Accepted := { entry := e, target := some 31, gen := 0 }
  ⟨.instCreate { fn := 32, cseq := 1 } 0 0 0 0, up (run.modFn 32 fun f => { f with accepted := [a], cseqAccepted := 1 }), { fn := 32, cseq := 1 }, a,
    0x0200, by decide +kernel⟩

def celRec : CelRec := { seq := 1, micros := 0, type := 1, source := 0, inst := 0, epoch := 0, tq := 0, severity := 1, logEpoch := 0, data := [] }

theorem test_meets_FullStage : ∃ r : Run, r.cel.powerFail = false ∧ r.flt.lasting.contains 26 = false ∧ 4096 ≤ r.cel.stage.length :=
  ⟨run.modCel fun k => { k with stage := List.replicate 4096 celRec }, by decide +kernel⟩

theorem test_meets_Ledger_saturation : ∃ (r : Run) (k n : Nat), r.lgr.value k < 2 ^ 64 ∧ 2 ^ 64 ≤ r.lgr.value k + n ∧ r.lgr.saturated.contains k = false :=
  ⟨{ run with lgr := { run.lgr with counters := [(300, 2 ^ 64 - 1)] } }, 300, 1, by decide +kernel⟩

theorem test_meets_Ledger_saturated : ∃ (r : Run) (k n : Nat), r.lgr.value k < 2 ^ 64 ∧ r.lgr.value k + n < 2 ^ 64 ∧ r.lgr.saturated.contains k = true :=
  ⟨{ run with lgr := { run.lgr with counters := [(300, 5)], saturated := [300] } }, 300, 0, by decide +kernel⟩

/-! Both cases of the clauses that tell two apart. -/

theorem test_meets_census_both : ∃ s : State, (∃ sum : Nat, sum = s.run.censusTotal) ∧ ∃ sum : Nat, sum ≠ s.run.censusTotal :=
  ⟨st 0x030A noInst run, ⟨_, rfl⟩, (st 0x030A noInst run).run.censusTotal + 1, by decide +kernel⟩

theorem test_meets_pubDelete_sv : ∃ (s : State) (a : Accepted), s.Ready { op := 0x0A02, pf0 := false } pf0 a ∧
    ((s.run.svView 0).any fun e => e.1 == 63) = true :=
  ⟨st 0x0A02 0 ((inst .idle run).modTrip fun t => { t with svStaged := [(63, some svPub)] }), acc 0x0A02 0, by decide +kernel⟩

theorem test_meets_pubDelete_goose : ∃ (s : State) (a : Accepted), s.Ready { op := 0x0A02, pf0 := false } pf0 a ∧
    ((s.run.gooseView 0).any fun e => e.1 == 511) = true :=
  ⟨st 0x0A02 0 ((inst .idle run).modTrip fun t => { t with gooseStaged := [(511, some gpub)] }), acc 0x0A02 0, by decide +kernel⟩

/-- VI_0 with one publication of either kind. -/
def publishing (r : Run) : Run := (inst .idle r).modTrip fun t => { t with
  gooses := [(0, { inst := 0, index := 0, record := gpub, values := [0] })], svs := [(0, { inst := 0, index := 0, record := svPub, values := [(0, false)] })] }

theorem test_meets_pubRead_sv : ∃ (s : State) (a : Accepted) (x : SvSt), s.Ready { op := 0x0A03, pf0 := false } pf0 a ∧
    s.run.svDev 0 0 = some 0 ∧ s.run.svPub 0 = some x :=
  ⟨st 0x0A03 0 (publishing run), acc 0x0A03 0, { inst := 0, index := 0, record := svPub, values := [(0, false)] }, by decide +kernel⟩

theorem test_meets_pubRead_goose : ∃ (s : State) (a : Accepted) (x : GooseSt), s.Ready { op := 0x0A03, pf0 := false } pf0 a ∧
    s.run.gooseDev 0 0 = some 0 ∧ s.run.goosePub 0 = some x :=
  ⟨st 0x0A03 0 (publishing run), acc 0x0A03 0, { inst := 0, index := 0, record := gpub, values := [0] }, by decide +kernel⟩

theorem test_meets_celFlush_empty : ∃ (s : State) (a : Accepted), s.Ready { op := 0x0C01, pf0 := true } pf0 a ∧ s.run.cel.stage = [] ∧
    s.run.cel.flushing = false := ⟨st 0x0C01 noInst run, acc 0x0C01 noInst, by decide +kernel⟩

theorem test_meets_celFlush_waits : ∃ (s : State) (a : Accepted), s.Ready { op := 0x0C01, pf0 := true } pf0 a ∧
    (s.run.cel.stage ≠ [] ∨ s.run.cel.flushing = true) :=
  ⟨st 0x0C01 noInst (run.modCel fun k => { k with flushing := true }), acc 0x0C01 noInst, by decide +kernel⟩

/-! ### Hand-computed values -/

/-- CRC-32 of IEEE 802.3: the check value of the octets "123456789" is 0xCBF43926, its bits in the opposite order here. -/
theorem test_crc32 : reverse32 (crc32 [0x31, 0x32, 0x33, 0x34, 0x35, 0x36, 0x37, 0x38, 0x39]) = 0xCBF43926 := by decide +kernel

/-- Words of IEEE 754 binary32. -/
theorem test_rat32 : rat32 (1 / 2) = 0x3F000000 ∧ rat32 (1 / 3) = 0x3EAAAAAB ∧ rat32 (-2) = 0xC0000000 ∧ rat32 (2 ^ 128) = 0x7F800000 := by
  decide +kernel

/-- A tie rounds to even: 1 + 2^-24 is 1. -/
theorem test_add32_tie : add32 0x3F800000 0x33800000 = 0x3F800000 := by decide +kernel

/-- R198: with INC at its reset value the counter adds 4 ns per 250 MHz cycle. -/
theorem test_pass_adds_inc : (run.pass 250).now = 1000 := by decide +kernel

/-- Table 5.1, row 1: 10,920 cells lie below 43,696 / 4; 10,926 do not lie below 43,684 / 4. -/
theorem test_admission : ({} : Switch).refuses 43696 6 0 10920 = none ∧ ({} : Switch).refuses 43684 6 0 10926 = some 0 := by decide +kernel

/-- After Table 5.1: at F = 515 a frame of 6 cells in class 0 meets the headroom (R176); one cell in class 7 does not. -/
theorem test_admission_headroom : ({} : Switch).refuses 515 6 0 0 = some 1 ∧ ({} : Switch).refuses 515 1 7 0 = none := by decide +kernel

/-- Table 3.4: 64 units of the Cistern are 4,096 cells. -/
theorem test_cistern_quota : ({ inEffect := { cistern := 64 } } : InstState).cellQuota = 4096 := by decide +kernel

/-- Table 9.12: C of PHS, IMP, DIS and TRC in ns. -/
theorem test_node_cost : nodeCost { node 1 1 with budget := 2000 } = 2028 ∧ nodeCost { node 0 1 with budget := 8000 } = 4041 ∧
    nodeCost { node 0 1 with budget := 20000 } = 10041 ∧ nodeCost { node 0 1 with budget := 2000 } = 1041 := by decide +kernel

/-- Lengths of ISO 11898-1 (Table 18.2): DLC 9 and DLC 15 of an FD frame, DLC 9 of a classical one. -/
theorem test_dlc : dlcLength true 9 = 12 ∧ dlcLength true 15 = 64 ∧ dlcLength false 9 = 8 := by decide +kernel

/-- R65: a CSEQ other than the expected one stalls the ring. -/
theorem test_fetch_stalls : (match exec (.commandFetch 0 (octets64 0 5 0x100) false) (up (vnic 1 run)) with
    | .next t => (t.run.fn 0).seqStall && (t.run.fn 0).cseqAccepted == 0 | _ => false) = true := by decide +kernel

/-- R53: 17 entries cannot wait in a ring of 16. -/
theorem test_doorbell_invalid : (match exec (.ringHostWrite 0 0 17) (up run) with
    | .next t => (t.run.fn 0).ring0.err && (t.run.fn 0).ring0.host == 0 | _ => false) = true := by decide +kernel

/-- R53: 16 can. -/
theorem test_doorbell_full : (match exec (.ringHostWrite 0 0 16) (up run) with
    | .next t => !(t.run.fn 0).ring0.err && (t.run.fn 0).ring0.host == 16 | _ => false) = true := by decide +kernel

/-- R76: DEV_NOP completes with ST_OK and no result. -/
theorem test_nop : (match exec (.devNop pf0) (st 0x0100 noInst run) with
    | .next t => (t.run.fn 0).accepted == [] && (t.run.fn 0).completed.map (fun c => (c.status, c.cseq, c.result)) == [(.ok, 1, [])]
    | _ => false) = true := by decide +kernel

/-- Table 3.1: INST_CREATE takes a FREE instance to IDLE. -/
theorem test_create : (match exec (.instCreate pf0 8 64 8 3) (st 0x0200 0 run) with
    | .next t => (t.run.inst 0).phase == .idle && (t.run.inst 0).granted == { sluice := 8, cistern := 64, ingest := 8 } && (t.run.inst 0).rank == 3
    | _ => false) = true := by decide +kernel

/-- R223: an inserted second takes UTC_OFFSET from 37 to 38 at the end of the UTC day. -/
theorem test_leap : (match exec (.leapSecond 0) (up (time 38000000000 (run.modTsuRegs fun g => { g with leapPending := true }))) with
    | .next t => t.run.tsu.regs.utcOffset == 38 && !t.run.tsu.regs.leapPending | _ => false) = true := by decide +kernel

/-- R499: an output that is off and reads back high faults, goes to its safe level, and says why. -/
theorem test_sofb : (match exec (.sofbMismatch 3 true 1 0) (up (run.modSo 3 fun z => { z with enabled := true })) with
    | .next t => (t.run.so 3).fault && !(t.run.so 3).drive && (t.run.so 3).cause == 1 | _ => false) = true := by decide +kernel

/-- R507: five failures lock SIO_UNLOCK out for 60 s, and every further one doubles it up to an hour. -/
theorem test_lockout : lockoutOf 4 = 0 ∧ lockoutOf 5 = 60 ∧ lockoutOf 6 = 120 ∧ lockoutOf 12 = 3600 := by decide +kernel

/-- R548: a counter that would pass 2^64 − 1 stays there. -/
theorem test_ledger_saturates : (({ run with lgr := { run.lgr with counters := [(300, 2 ^ 64 - 2)] } } : Run).ledgerAdd 300 5).lgr.value 300 = 2 ^ 64 - 1 := by
  decide +kernel

/-- Table 17.2: PROVISIONED follows BLANK; nothing leads from PROVISIONED to RETURNED. -/
theorem test_life_cycle : Lc.allows .blank .provisioned = true ∧ Lc.allows .provisioned .returned = false ∧ Lc.allows .scrapped .blank = false := by
  decide +kernel

/-- R680: 125 °C (2,000 sixteenths) resets the block; 124.9375 °C does not. -/
theorem test_thermal : (match exec (.thermalTrip 2000 0) (up run), exec (.thermalTrip 1999 0) (up run) with
    | .next t, .next u => t.sys.phase == .reset && t.sys.thermal && u.sys.phase == .running | _, _ => false) = true := by decide +kernel

/-- R633: a cold start from the state after reset reaches READY with EPOCH 1. -/
theorem test_cold_start : (match exec (.coldStart startIn 0) { State.reset with sys := { State.reset.sys with porstN := false } } with
    | .next t => t.run.ready && t.run.epoch == 1 && t.sys.phase == .ready | _ => false) = true := by decide +kernel

/-- An empty queue: the block idles for one tick (assumption 3). -/
theorem test_idle : (match step State.reset with | .next t => t.run.ticks == 1 && t.run.now == 4 && t.sys == State.reset.sys | _ => false) = true := by
  decide +kernel


theorem test_boot_block_factory : State.reset.sys.bcb0.ok = true ∧ State.reset.sys.bcb1.ok = false := by decide +kernel

theorem test_boot_block_written : (State.reset.sys.putBcb fun b => { b with tries := 3 }).bcb1.block = { seq := 1, tries := 3 } ∧
    (State.reset.sys.putBcb fun b => { b with tries := 3 }).bcb = { seq := 1, tries := 3 } := by decide +kernel

end Sys2Proof.Tests
end

section
/-! The state after reset, and the registers that the host reads and writes (chapters 1 and 2, R135, R145, R155, R201, R226). -/

namespace Sys2Proof.Machine

/-! ### The state after reset -/

/-- Every function is as at reset: the 33 that exist, and by default any other number. -/
theorem Run.fn_default (fn : Nat) : ({} : Run).fn fn = {} := by
  change (List.replicate 33 ({} : FnState)).getD fn {} = {}
  rw [List.getD_eq_getElem?_getD, List.getElem?_replicate]
  split <;> rfl

/-- Every VI is as at reset: the 32 that exist, and by default any other number. -/
theorem Run.inst_default (n : Nat) : ({} : Run).inst n = {} := by
  change (List.replicate 32 ({} : InstState)).getD n {} = {}
  rw [List.getD_eq_getElem?_getD, List.getElem?_replicate]
  split <;> rfl

/-- Settles O4: every value is the default of its field, and so is every function and every VI, whatever its number. -/
theorem resetState : Obligations.ResetState :=
  ⟨rfl, rfl, rfl, rfl, Run.fn_default, fun n => congrArg InstState.phase (Run.inst_default n), rfl, rfl, rfl, rfl, rfl⟩

/-! ### What a read of BAR0 does (R7, R11, R201, R226) -/

/-- An access to PF0 says nothing of the VFs. -/
@[simp] theorem Run.hostAccess_pf0 (r : Run) : r.hostAccess 0 = r := rfl

/-- An access of the host takes no time. -/
@[simp] theorem Run.hostAccess_now (r : Run) (fn : Nat) : (r.hostAccess fn).now = r.now := by
  simp only [Run.now, Run.hostAccess_tsu]

/-- A VF has no 64-bit register behind its first page: the device window is PF0's (Table 2.2). -/
theorem Run.reg64_vf (r : Run) {fn off : Nat} (hvf : fn ≠ 0) (hoff : 0x1000 ≤ off) : r.reg64 fn off = none := by
  rw [Run.reg64, if_neg (Nat.not_lt.mpr hoff), if_neg fun h => hvf h.1]

/-- TSU_NOW_SEC as PF0 reads it: the seconds that a read of TSU_NOW_NS has latched, or those of now (R201). -/
theorem Run.reg64_nowSec (r : Run) :
    r.reg64 0 0x180010 = some ((tabGet r.tsu.secLatch 0).getD (secOf r.now) % 2 ^ 48) := by
  simp [Run.reg64, Run.device64, Run.tsu64]

/-- A read of a low word latches the high word, and does no more unless the register is TSU_NOW_SEC. -/
theorem Run.readLow_other (r : Run) (fn v : Nat) {off : Nat} (h : off ≠ 0x180010) :
    r.readLow fn off v = r.modFn fn fun f => { f with latch := tabSet f.latch off (v / 2 ^ 32 % 2 ^ 32) } :=
  if_neg h

/-- The register is TSU_NOW_NS or a TSU_TXQ_POP, whose reads go past `Run.reg64` and `reg32`. -/
def readsTsu (fn off : Nat) : Prop :=
  (fn = 0 ∧ off = 0x180008) ∨ (fn = 0 ∧ 0x181000 ≤ off ∧ off < 0x181200 ∧ off % 0x20 = 0)

/-- Outside the TSU's registers no read goes past `Run.reg64` and `reg32`. -/
theorem not_readsTsu_of_window {fn off : Nat} (h : ¬ (fn = 0 ∧ 0x180000 ≤ off ∧ off < 0x1A0000)) : ¬ readsTsu fn off := by
  unfold readsTsu
  omega

/-- Nor does that of the upper half of 8 octets, wherever it lies. -/
theorem not_readsTsu_upper {fn off : Nat} (h : off % 8 = 0) : ¬ readsTsu fn (off + 4) := by
  unfold readsTsu
  omega

/-- The low word of a 64-bit register. -/
theorem readBar_low (sys : Sys) (r : Run) {fn off v : Nat} (ht : ¬ readsTsu fn off) (h : r.reg64 fn off = some v) :
    readBar sys r fn off = (r.readLow fn off v, v % 2 ^ 32) := by
  obtain ⟨hns, hpop⟩ := not_or.mp ht
  rw [readBar, if_neg hns, if_neg hpop, h]

/-- The high word of a 64-bit register once it is latched: the latch is used up. -/
theorem readBar_latched (sys : Sys) (r : Run) {fn off v : Nat} (ht : ¬ readsTsu fn (off + 4))
    (h : r.reg64 fn (off + 4) = none) (h8 : off % 8 = 0) (hl : tabGet (r.fn fn).latch off = some v) :
    readBar sys r fn (off + 4) = (r.modFn fn fun f => { f with latch := tabDel f.latch off }, v) := by
  obtain ⟨hns, hpop⟩ := not_or.mp ht
  have h4 : (off + 4) % 8 = 4 := by omega
  rw [readBar, if_neg hns, if_neg hpop, h, if_pos h4, Nat.add_sub_cancel, hl]

/-- A 32-bit register in the lower half of its 8 octets: the read does nothing. -/
theorem readBar_live (sys : Sys) (r : Run) {fn off : Nat} (ht : ¬ readsTsu fn off) (h : r.reg64 fn off = none)
    (h8 : off % 8 = 0) : readBar sys r fn off = (r, reg32 sys r fn off) := by
  obtain ⟨hns, hpop⟩ := not_or.mp ht
  have h4 : ¬ off % 8 = 4 := by omega
  rw [readBar, if_neg hns, if_neg hpop, h, if_neg h4]

/-- The head entry of a transmit timestamp queue leaves, and its time is latched (R226). -/
theorem Run.readTxqPop_cons (r : Run) {q : Nat} {e : TxStamp} {rest : List TxStamp}
    (h : (tabGetD r.tsu.txq q {}).entries = e :: rest) :
    r.readTxqPop q = (r.modTsu fun t =>
      { t with txq := tabSet t.txq q { tabGetD r.tsu.txq q {} with entries := rest, latched := e.time } }, e.popWord) := by
  simp only [Run.readTxqPop, h]

/-! ### The rows of the host's registers -/

/-- The row of a read is the read itself, after the access of its function. -/
theorem exec_reg64LowRead (s : State) {fn off v : Nat} {r : Run} (h : s.Hosts fn)
    (hr : readBar s.sys (s.run.hostAccess fn) fn off = (r, v)) :
    exec (.reg64LowRead fn off) s = .next (s.ran (r.emit (.readData fn off v))) := by
  change execReg64LowRead fn off s = _
  rw [execReg64LowRead, whenHost_hosted fn s _ h]
  simp only [hr]

theorem exec_imaskWrite (s : State) {fn index : Nat} (value : Word) (h : s.Hosts fn) (hfn : fn < 33) (hi : index < 32) :
    exec (.imaskWrite fn index value) s =
      .next (s.ran ((List.range 32).foldl (fun (r : Run) j =>
        if s.run.routedTo s.run.ownSources fn (32 * index + j) then r.maskBit fn (32 * index + j) (value.getLsbD j) else r)
        (s.run.hostAccess fn))) := by
  have hin : ¬ (33 ≤ fn ∨ 32 ≤ index) := by omega
  change execImaskWrite fn index value s = _
  rw [execImaskWrite, whenHost_hosted fn s _ h]
  simp only [if_neg hin, Run.hostAccess_ownSources, Run.hostAccess_routedTo]

/-- The link and the function let a register write through. -/
theorem State.Hosts.writes {s : State} {fn : Nat} (h : s.Hosts fn) :
    ¬ (s.sys.phase = .reset ∨ s.run.flt.lasting.contains 28 ∨ (s.sys.phase = .recovery ∧ fn ≠ 0)) := by
  obtain ⟨⟨hup, hlink⟩, hfn⟩ := h
  rintro (hr | hl | ⟨hrec, hne⟩)
  · exact hup hr
  · exact absurd (hlink.symm.trans hl) Bool.false_ne_true
  · exact hne (hfn hrec)

theorem exec_registerWrite (s : State) {fn off : Nat} (value : Nat) (h : s.Hosts fn) (ht : ¬ (fn = 0 ∧ off = 0x100008)) :
    exec (.registerWrite fn off value) s = .next (s.ran (s.run.writeReg s.sys.locked fn off value)) := by
  change execRegisterWrite fn off value s = _
  rw [execRegisterWrite, if_neg h.writes, if_neg ht]
  rfl

/-- HKP_TEMP is the one register that lies outside what runs: TRIPPED is cleared by a 1. -/
theorem exec_registerWrite_hkpTemp (s : State) (value : Nat) (h : s.Linked) :
    exec (.registerWrite 0 0x100008 value) s =
      .next { s with sys := { s.sys with tripped := s.sys.tripped && !value.testBit 31 } } := by
  have hh : s.Hosts 0 := ⟨h, fun _ => rfl⟩
  change execRegisterWrite 0 0x100008 value s = _
  rw [execRegisterWrite, if_neg hh.writes, if_pos ⟨rfl, rfl⟩]

/-! ### The rows of the MAC and the time unit -/

/-- A write of MAC_CFG that R135 takes, at a port that exists. -/
theorem macCfg_taken {n v : Nat} (hn : n < 64) (hb : macCfgBad n v = false) : ¬ (decide (64 ≤ n) || macCfgBad n v) = true := by
  simp only [hb, Bool.or_false, decide_eq_true_eq]
  omega

theorem exec_macCfgWrite_unlocked (s : State) {n : Nat} {value : Word} (h : s.Up) (hn : n < 64)
    (hb : macCfgBad n value.toNat = false) (hl : s.sys.locked = false) :
    let r := (s.run.modPort n fun p => { p with
          maxFrame := field value.toNat 27 16, fec := if 60 ≤ n then field value.toNat 11 10 else 0, mode := field value.toNat 7 4 }).modPort n
        fun p => { p with tsEn := value.toNat.testBit 3, loopback := value.toNat.testBit 2 }
    exec (.macCfgWrite n value) s =
      .next (s.ran (if value.toNat.testBit 31 then r.modPort n fun p => { p with enable := true }
        else if (s.run.port n).enable then r.portDisable n else r)) := by
  change execMacCfgWrite n value s = _
  rw [execMacCfgWrite, whenUp_up s _ h]
  simp only [if_neg (macCfg_taken hn hb), hl, Bool.false_and, Bool.false_eq_true, if_false]

/-- Of a locked configuration MAX_FRAME, FEC and MODE stay, and a write that would change them is noted (R80). -/
theorem exec_macCfgWrite_locked (s : State) {n : Nat} {value : Word} (h : s.Up) (hn : n < 64)
    (hb : macCfgBad n value.toNat = false) (hl : s.sys.locked = true) :
    let same := decide ((s.run.port n).maxFrame = field value.toNat 27 16 ∧
      (s.run.port n).fec = (if 60 ≤ n then field value.toNat 11 10 else 0) ∧ (s.run.port n).mode = field value.toNat 7 4)
    let r := (if same then s.run else s.run.lockedWrite 0 (0x00160000 + 0x400 * n)).modPort n
        fun p => { p with tsEn := value.toNat.testBit 3, loopback := value.toNat.testBit 2 }
    exec (.macCfgWrite n value) s =
      .next (s.ran (if value.toNat.testBit 31 then r.modPort n fun p => { p with enable := true }
        else if (s.run.port n).enable then r.portDisable n else r)) := by
  intro same r
  change execMacCfgWrite n value s = _
  rw [execMacCfgWrite, whenUp_up s _ h]
  simp only [if_neg (macCfg_taken hn hb), hl, Bool.true_and, if_true, Bool.not_eq_true', ← Bool.not_eq_true, ite_not]
  rfl

theorem exec_txThreshBaseWrite (s : State) (n : Nat) {base : Nat} (h : s.Up) (hb : threshOk base = true) :
    exec (.txThreshBaseWrite n base) s = .next (s.ran (s.run.modPort n fun p => { p with base := base, cur := base })) := by
  change execTxThreshBaseWrite n base s = _
  rw [execTxThreshBaseWrite, whenUp_up s _ h]
  simp only [if_pos hb]

theorem exec_txThreshRestore (s : State) (n : Nat) (h : s.Up) :
    exec (.txThreshRestore n) s = .next (s.ran (s.run.modPort n fun p => { p with cur := p.base })) := by
  change execTxThreshRestore n s = _
  rw [execTxThreshRestore, whenUp_up s _ h]

theorem exec_snapTake (s : State) (h : s.Up) (hidle : s.run.sw.snapAt = none) :
    exec .snapTake s = .next (s.ran (s.run.modSw fun w => { w with snapAt := some (s.run.now + 2000) })) := by
  change execSnapTake s = _
  rw [execSnapTake, whenUp_up s _ h]
  simp only [hidle, Option.isSome_none, Bool.false_eq_true, if_false, Run.takeSnap]

/-- The seconds that the read latches are those of the tick at which it reads the nanoseconds. -/
theorem exec_tsuNowNsRead (s : State) {fn : Nat} (dt : Nat) (h : s.Up) (hfn : s.sys.phase = .recovery → fn = 0) :
    exec (.tsuNowNsRead fn dt) s =
      .next (s.ran ((((s.run.pass dt).hostAccess fn).modTsu fun t =>
        { t with secLatch := tabSet t.secLatch fn (secOf (s.run.pass dt).now % 2 ^ 48) }).emit
          (.readData fn 0x180008 (nsOf (s.run.pass dt).now)))) := by
  have hpf : ¬ (s.sys.phase = .recovery ∧ fn ≠ 0) := fun ⟨hrec, hne⟩ => hne (hfn hrec)
  change execTsuNowNsRead fn dt s = _
  rw [execTsuNowNsRead, whenUp_up s _ h]
  simp only [if_neg hpf, Run.readNowNs, Run.hostAccess_now]

theorem exec_tsuTxqPopRead (s : State) {q : Nat} {e : TxStamp} {rest : List TxStamp} (h : s.Up)
    (hq : (tabGetD s.run.tsu.txq q {}).entries = e :: rest) :
    exec (.tsuTxqPopRead q) s =
      .next (s.ran ((s.run.modTsu fun t =>
        { t with txq := tabSet t.txq q { tabGetD s.run.tsu.txq q {} with entries := rest, latched := e.time } }).emit
          (.readData 0 (0x181000 + 0x20 * q) e.popWord))) := by
  change execTsuTxqPopRead q s = _
  rw [execTsuTxqPopRead, whenUp_up s _ h]
  simp only [Run.readTxqPop_cons _ hq]

/-- Settles O9, row by row; a read of BAR0 by what the register is (64-bit, latched high word, 32-bit, TSU_NOW_SEC). -/
theorem registerRowsComplete : Obligations.RegisterRowsComplete := by
  refine ⟨fun s _ _ value h hfn hi => exec_imaskWrite s value h hfn hi, fun s _ _ value h ht => exec_registerWrite s value h ht,
    exec_registerWrite_hkpTemp, ?low, ?high, ?live, ?nowSec, fun s _ _ => exec_macCfgWrite_unlocked s,
    fun s _ _ => exec_macCfgWrite_locked s, fun s n _ => exec_txThreshBaseWrite s n, exec_txThreshRestore, exec_snapTake,
    fun s _ dt h hfn => exec_tsuNowNsRead s dt h hfn, fun s _ _ _ h hq => exec_tsuTxqPopRead s h hq⟩
  case low =>
    intro s fn off v h hv hw
    have hne : off ≠ 0x180010 := by
      rintro rfl
      have hvf : fn ≠ 0 := by omega
      exact absurd (hv.symm.trans (Run.reg64_vf _ hvf (by omega))) (Option.some_ne_none v)
    exact exec_reg64LowRead s h ((readBar_low _ _ (not_readsTsu_of_window hw) hv).trans (by rw [Run.readLow_other _ _ _ hne]))
  case high =>
    intro s fn off v h hv _ h8 hl
    exact exec_reg64LowRead s h (readBar_latched _ _ (not_readsTsu_upper h8) hv h8 (by rwa [Run.hostAccess_fn]))
  case live =>
    intro s fn off h hv hw h8
    exact exec_reg64LowRead s h (readBar_live _ _ (not_readsTsu_of_window hw) hv h8)
  case nowSec =>
    intro s h
    have ht : ¬ readsTsu 0 0x180010 := by unfold readsTsu; omega
    exact exec_reg64LowRead s ⟨h, fun _ => rfl⟩ (readBar_low _ _ ht (Run.reg64_nowSec s.run))

end Sys2Proof.Machine
end

section
/-! The rows of chapter 19: reports, scrubbing, self-tests, islands, the HKP, admission and the fault commands (R27, R28, R614 to
R629). -/

namespace Sys2Proof.Machine

/-! ### Error reports (R614, R618) and the scrubber (R27, R28) -/

/-- A report against a unit, where it is neither a reserved cell that is not supplied (R178) nor a bad cell of a frame that Cistern
holds (R180). -/
theorem exec_errorReport_unit (s : State) {unit kind : Nat} {by' : Reader} (dt : Nat) (h : s.Running)
    (hcell : ∀ fid cell, by' = .frame fid cell → ¬ (unit = unitId 10 16 ∧ kind = 0) ∧
      ¬ (unit = unitId 1 (cell / 1024 % 64) ∧ kind = 2 ∧ ((s.run.pass dt).held fid).isSome = true))
    (hu : unitExists (rowsOf s.sys.capacity) unit = true) (hk : kindApplies (unitClass unit) kind = true) :
    exec (.errorReport unit kind by' dt) s =
      .next (s.ran ((if kind = 2 then (s.run.pass dt).discardReader by' else s.run.pass dt).errorReport unit kind)) := by
  have hok : (unitExists (rowsOf s.sys.capacity) unit && kindApplies (unitClass unit) kind) = true := Bool.and_eq_true_iff.mpr ⟨hu, hk⟩
  change execErrorReport unit kind by' dt s = _
  rw [execErrorReport, whenRunning_running s _ h]
  cases by' with
  | frame fid cell =>
    obtain ⟨hmissing, hbad⟩ := hcell fid cell rfl
    simp only [if_neg hmissing, if_neg hbad, if_pos hok]
  | _ => simp only [if_pos hok]

theorem exec_errorReport_cellMissing (s : State) (fid cell dt : Nat) (h : s.Running) :
    exec (.errorReport (unitId 10 16) 0 (.frame fid cell) dt) s = .next (s.ran ((s.run.pass dt).cellMissing fid)) := by
  change execErrorReport (unitId 10 16) 0 (.frame fid cell) dt s = _
  rw [execErrorReport, whenRunning_running s _ h]
  rfl

theorem exec_errorReport_badCell (s : State) {fid : Nat} (cell dt : Nat) {x : Held} (h : s.Running)
    (hx : (s.run.pass dt).held fid = some x) :
    exec (.errorReport (unitId 1 (cell / 1024 % 64)) 2 (.frame fid cell) dt) s =
      .next (s.ran (Run.eccDrop Run.cellFault (s.run.pass dt) fid cell)) := by
  have hmissing : ¬ (unitId 1 (cell / 1024 % 64) = unitId 10 16 ∧ 2 = 0) := fun ⟨_, h0⟩ => absurd h0 (by decide)
  change execErrorReport (unitId 1 (cell / 1024 % 64)) 2 (.frame fid cell) dt s = _
  rw [execErrorReport, whenRunning_running s _ h]
  simp only [if_neg hmissing, hx, Option.isSome_some, and_self, if_true]

theorem exec_sramScrub (s : State) {bank found : Nat} (dt : Nat) (h : s.Running) (hc : unitClass bank = 1 ∨ unitClass bank = 2)
    (hu : unitExists 0 bank = true) (hf : found = 1 ∨ found = 2) :
    exec (.sramScrub bank found dt) s = .next (s.ran ((s.run.pass dt).errorReport bank found)) := by
  change execSramScrub bank found dt s = _
  rw [execSramScrub, whenRunning_running s _ h]
  simp only [hc, hu, hf, and_self, if_true]

/-! ### Self-tests (R615), island locks (R619), the HKP (R622) and admission (R624) -/

theorem exec_selfTestDone (s : State) {unit dt : Nat} (pass : Bool) {t : TestSlot} (h : s.Running)
    (ht : tabGet s.run.flt.slots (unitClass unit) = some t) (hunit : t.unit = unit) (hb : t.busy = true) (hc : unitClass unit ≠ 11)
    (hlong : t.since + testTicks (unitClass unit) ≤ s.run.ticks + dt) :
    exec (.selfTestDone unit pass dt) s = .next (s.ran ((s.run.pass dt).endTest t pass)) := by
  change execSelfTestDone unit pass dt s = _
  rw [execSelfTestDone, whenRunning_running s _ h]
  simp only [Run.pass_flt, Run.pass_ticks, ht, hunit, hb, ne_eq, hc, hlong, not_false_eq_true, and_self, if_true]

theorem exec_islandPllRelock (s : State) {i dt t : Nat} (h : s.Running) (ht : tabGet s.run.flt.unlocked i = some t) :
    let r := (s.run.pass dt).modFlt fun x => { x with unlocked := tabDel x.unlocked i }
    exec (.islandPllRelock i dt) s =
      .next (s.ran (if t + msTicks 10 < s.run.ticks + dt then (s.run.pass dt).islandDown i
        else if s.run.ticks + dt ≤ t + msTicks 1 then r.islandTransient i else r)) := by
  change execIslandPllRelock i dt s = _
  rw [execIslandPllRelock, whenRunning_running s _ h]
  simp only [Run.pass_flt, ht]
  rfl

theorem exec_islandRelockTimeout (s : State) {i dt t : Nat} (h : s.Running) (ht : tabGet s.run.flt.unlocked i = some t)
    (hlate : t + msTicks 10 ≤ s.run.ticks + dt) :
    exec (.islandRelockTimeout i dt) s = .next (s.ran ((s.run.pass dt).islandDown i)) := by
  change execIslandRelockTimeout i dt s = _
  rw [execIslandRelockTimeout, whenRunning_running s _ h]
  simp only [Run.pass_flt, Run.pass_ticks, ht, hlate, if_true]

theorem exec_hkpReturn (s : State) (pass : Bool) {dt : Nat} {t : TestSlot} (h : s.Running) (ht : tabGet s.run.flt.slots 11 = some t)
    (haway : s.run.flt.hkpAway = true) (hlong : t.since + testTicks 11 ≤ s.run.ticks + dt) :
    exec (.hkpReturn pass dt) s = .next (s.ran ((s.run.pass dt).hkpReturn pass)) := by
  change execHkpReturn pass dt s = _
  rw [execHkpReturn, whenRunning_running s _ h]
  simp only [Run.pass_flt, Run.pass_ticks, ht, haway, hlong, and_self, if_true]

theorem exec_admissionRun (s : State) (dt : Nat) (h : s.Running) (ha : s.run.flt.admission.isSome = true) :
    exec (.admissionRun dt) s = .next (s.ran (s.run.pass dt).admissionDone) := by
  change execAdmissionRun dt s = _
  rw [execAdmissionRun, whenRunning_running s _ h]
  simp only [Run.pass_flt, ha, if_true]

/-! ### The fault commands (R621, R629) -/

theorem exec_fltList (s : State) {c : Cmd} {a : Accepted} (h : s.Ready { op := 0x0F00, pf0 := true } c a) :
    let l := s.run.faultRecord.flt.units.filterMap (unitEntry s.run.faultRecord.now)
    24 * l.length ≤ a.entry.bufLen → c.bufErr = false →
    exec (.fltList c) s = .next (s.done c s.run.faultRecord { buffer := l.flatten, bufLen := 24 * l.length }) := by
  intro l hlen hbuf
  change execFltList c s = _
  exact runCmd_done _ c s _ a _ { buffer := l.flatten, bufLen := 24 * l.length } h rfl (.inr ⟨hlen, hbuf⟩)

/-- The record of the command in the Cellar comes first: what a retest asks of the unit it asks after it. -/
theorem exec_fltUnitRetest (s : State) {c : Cmd} {a : Accepted} {unit : Nat} (h : s.Ready { op := 0x0F01, pf0 := true } c a)
    (hu : unitExists (rowsOf s.sys.capacity) unit = true) (hc : unitClass unit < 10) (hr : (s.run.faultRecord.unit unit).replaced = false)
    (hrec : s.run.faultRecord.flt.inRecovery (unitClass unit) = false)
    (hst : (s.run.faultRecord.unit unit).state = .suspect ∨ (s.run.faultRecord.unit unit).state = .retired) :
    exec (.fltUnitRetest c unit) s = .next (s.waits c (s.run.faultRecord.startTest unit (some (c.fn, c.cseq)))) := by
  have hin : ¬ ((s.run.faultRecord.unit unit).state ≠ .suspect ∧ (s.run.faultRecord.unit unit).state ≠ .retired) :=
    fun ⟨hsuspect, hretired⟩ => hst.elim hsuspect hretired
  change execFltUnitRetest c unit s = _
  refine runCommand_wait _ c s _ a s.sys _ h ?_
  simp only [hu, decide_eq_false (Nat.not_le.mpr hc), hr, hrec, if_neg hin, Bool.not_true, Bool.or_self, Bool.false_eq_true, if_false]

theorem exec_fltInject (s : State) {c : Cmd} {a : Accepted} {unit kind : Nat} (h : s.Ready { op := 0x0F02, pf0 := true } c a)
    (hu : unitExists (rowsOf s.sys.capacity) unit = true) (hk : kindApplies (unitClass unit) kind = true) :
    exec (.fltInject c unit kind) s =
      .next (s.done c (if unitClass unit = 10 then s.run.faultRecord.islandEvent (unitIndex unit) kind
        else s.run.faultRecord.errorReport unit kind) {}) := by
  change execFltInject c unit kind s = _
  refine runCommand_done _ c s _ a s.sys _ {} h ?_ (.inl rfl)
  simp only [hu, hk, Bool.not_true, Bool.or_self, Bool.false_eq_true, if_false]
  split <;> rfl

/-- Settles O44, row by row; a report by what it meets: a unit, a reserved cell that is not supplied, a bad cell of a frame. -/
theorem faultRowsComplete : Obligations.FaultRowsComplete :=
  ⟨fun s _ _ dt _ => exec_errorReport_unit s dt, exec_errorReport_cellMissing, fun s _ cell dt _ => exec_errorReport_badCell s cell dt,
    fun s _ _ dt => exec_sramScrub s dt, fun s _ _ pass _ => exec_selfTestDone s pass, fun s _ _ _ => exec_islandPllRelock s,
    fun s _ _ _ => exec_islandRelockTimeout s, fun s pass _ _ => exec_hkpReturn s pass, exec_admissionRun,
    fun s _ _ => exec_fltList s, fun s _ _ _ => exec_fltUnitRetest s, fun s _ _ _ _ => exec_fltInject s⟩

end Sys2Proof.Machine
end

section
/-! Every row answers a next state and leaves the queue to the step. -/

namespace Sys2Proof.Machine

/-! ### What the forms of a row answer -/

/-- The outcome of a row over `s` is a next state, and the commands that wait behind it still wait. -/
def AnswersBeside (s : State) (o : Host.Outcome State Fault Refusal) : Prop := ∃ t, o = .next t ∧ t.pending = s.pending

/-- A state that differs from `s` beside the queue. -/
theorem answersBeside_next {s t : State} (h : t.pending = s.pending) : AnswersBeside s (.next t) := ⟨t, rfl, h⟩

/-- An event that changes only what runs leaves the queue. -/
theorem answersBeside_of_ran {s : State} {o : Host.Outcome State Fault Refusal} (h : ∃ r, o = .next (s.ran r)) :
    AnswersBeside s o := by
  obtain ⟨r, rfl⟩ := h
  exact answersBeside_next rfl

theorem answersBeside_whenUp (s : State) (f : Sys → Run → Run) : AnswersBeside s (whenUp s f) :=
  answersBeside_of_ran (whenUp_next s f)

theorem answersBeside_whenHost (fn : Nat) (s : State) (f : Sys → Run → Run) : AnswersBeside s (whenHost fn s f) :=
  answersBeside_of_ran (whenHost_next fn s f)

theorem answersBeside_whenRunning (s : State) (f : Sys → Run → Run) : AnswersBeside s (whenRunning s f) :=
  answersBeside_of_ran (whenRunning_next s f)

theorem answersBeside_onBlock (s : State) (f : Sys → Run → Sys × Run) : AnswersBeside s (onBlock s f) :=
  answersBeside_next rfl

theorem answersBeside_runCommand (k : CmdSpec) (c : Cmd) (s : State) (body : Accepted → Sys → Run → Sys × Run × Answer) :
    AnswersBeside s (runCommand k c s body) :=
  runCommand_next k c s body

theorem answersBeside_runCmd (k : CmdSpec) (c : Cmd) (s : State) (body : Accepted → Run → Run × Answer) :
    AnswersBeside s (runCmd k c s body) :=
  answersBeside_of_ran (runCmd_next k c s body)

theorem answersBeside_runQuery (k : CmdSpec) (c : Cmd) (s : State) (body : Accepted → Sys → Run → Answer) :
    AnswersBeside s (runQuery k c s body) :=
  answersBeside_of_ran (runQuery_next k c s body)

/-! ### The rows with a judgement of their own before their form -/

theorem answersBeside_tempBinMinute (tj : Int) (dt : Nat) (s : State) : AnswersBeside s (execTempBinMinute tj dt s) := by
  unfold execTempBinMinute
  split
  · exact answersBeside_next rfl
  · exact answersBeside_next rfl

theorem answersBeside_registerWrite (fn off value : Nat) (s : State) : AnswersBeside s (execRegisterWrite fn off value s) := by
  unfold execRegisterWrite
  split
  · exact answersBeside_next rfl
  · split
    · exact answersBeside_next rfl
    · exact answersBeside_next rfl

/-- A commit before its turn (R125) has no effect. -/
theorem answersBeside_instCommit (c : Cmd) (s : State) : AnswersBeside s (execInstCommit c s) := by
  unfold execInstCommit
  split
  · exact answersBeside_next rfl
  · exact answersBeside_runCommand _ _ _ _

/-- A replacement under way goes on as an event; a new one is a command (R579). -/
theorem answersBeside_srmKeyReplace (c : Cmd) (slot source kekSlot : Nat) (check : Option Nat) (keyId : Nat) (blob : Blob)
    (cipher : Nat) (testOk : Bool) (reach : Nat) (s : State) :
    AnswersBeside s (execSrmKeyReplace c slot source kekSlot check keyId blob cipher testOk reach s) := by
  unfold execSrmKeyReplace
  split
  · exact answersBeside_whenUp _ _
  · exact answersBeside_runCommand _ _ _ _

/-- Settles O3: every row has one of the forms of a row, or is one of the four above, which judge before they take it. -/
theorem everyCommandAnswersAndKeepsTheQueue : Obligations.EveryCommandAnswersAndKeepsTheQueue := by
  intro i s
  change AnswersBeside s (exec i s)
  unfold exec
  cases i with dsimp only
  | eventRingPost | cmdEnableFall | evtEnableFall | vnicEnableFall | vnicTxFrame | functionLevelReset | pcieLinkLoss | d3hotEntry
  | perstNFall | macCfgWrite | txThreshBaseWrite | txThreshRestore | snapTake | snapshotLatch | ptpSyncReceive | ptpAnnounceReceive
  | ppsInEdge | irigFrame | referenceLoss | holdTimerExpiry | leapSecond | ppsOutEdge | servoEnFall | servoEnRise | tsuNowNsRead
  | tsuTxqPopRead | sofbMismatch | offPulseStart | offPulseEnd | biChange | latchReset | sioSessionExpiry | cellarFlushSecond
  | cellarFlushDone | stageLossRecord | operatingHour | serviceDay | ledgerWrite | ledgerWearCheck | keyRemask | ppsOutPulseEnd =>
    exact answersBeside_whenUp _ _
  | ringHostWrite | cmdEnableRise | evtEnableRise | vnicEnableRise | imaskWrite | reg64LowRead =>
    exact answersBeside_whenHost _ _ _
  | instResetDone | accountingPeriod | macFrameReceive | macFrameTransmit | linkDown | linkUp | linkHoldExpiry | portEnableFall
  | frameForward | fdbEntryAge | nodeEntryForget | cisternCensus | cisternWalkDone | supervisionSend | supervisionSilence
  | ptpSyncSend | pdelayReqReceive | pdelayMeasure | ingestFrame | subSupervisionExpiry | tickProcess | decSyncEdge | nodeDispatch
  | jobFinish | budgetAbort | graphExchange | exchangeTimeout | cleCycle | cleEmptyJob | cleCycleFault | retainCheckpoint
  | loopEvaluation | gooseRetransmit | tribSend | tribReceive | twinJoinEnd | tribTimeout | drRowWrite | xtrigInEdge | drAutoTrigger
  | drRearmExpiry | xtrigOutPulseEnd | trngHealthFail | canFrameReceive | canFrameEnd | canSlotInstant | canSlotWindowExpiry
  | canSupervisionExpiry | canRecoveryDone | errorReport | selfTestDone | islandRelockTimeout | hkpReturn | admissionRun | sramScrub
  | islandPllRelock =>
    exact answersBeside_whenRunning _ _
  | coldStart | warmStart | protectionStart | sysrstNFall | porstNFall | trialBootTimeout | autoConfirmExpiry | pwrfailNFall
  | powerFailReset | pwrfailNRise | aonFeedChange | corePowerLoss | thermalTrip | thermalRecover =>
    exact answersBeside_onBlock _ _
  | devReplayCompletions | devReplayEvents | dirtyLogStart | dirtyLogSync | dirtyLogStop | instCreate | instDestroy | instStart
  | instStop | instReset | instSetShare | instSetRank | instResume | portSnapshot | portThreshRestore | swVlanSet | swFdbAdd
  | swFdbDel | swFdbFlush | swHostVlan | swNodeRead | swCensusNow | timeSet | timeReacquire | subSvSet | subGooseSet | subDelete
  | subRead | subKeySet | subList | cflChanSet | cflStreamSet | cflCoefSet | cflProtoLoad | cflBankSelect | cflDcHold | cflDecSync
  | cflChanRead | slcGraphLoad | slcGraphUnload | slcAdmitCheck | slcCancel | slcTrigger | slcNodeRead | slcChainRead | grpForce
  | grpRelease | grpQuery | cleProgLoad | cleProgUnload | cleTaskMode | cleTaskStart | cleTaskStep | cleVarRead | cleVarWrite
  | cleTaskRead | mlrLoopSet | mlrLoopDelete | mlrMode | mlrInject | mlrInjectStop | mlrCapture | mlrCaptureRead | mlrLoopRead
  | pubGooseSet | pubSvSet | pubDelete | pubRead | tribSet | tribQuery | sioUnlock | sioLock | sioPasswordSet | sioCfgSet
  | sioFaultClear | sioQuery | drcSet | drcDelete | drcMaskSet | drcTrigger | drcArm | drcStop | drcList | drcRead | drcRelease
  | celRead | celFlush | lgrAssign | lgrAdd | srmLcChallenge | srmKeyUnload | srmKeyInfo | srmKeyExport | srmCrypt | srmRandom
  | fbBufSet | fbSchedSet | fbTx | fbCancel | fbBufRead | fbRecover | fltList =>
    exact answersBeside_runCmd _ _ _ _
  | devSnapshot | paramGet | paramSet | paramDescribe | devCommit | devUnlock | swRedSet | celChallenge | celClear | srmKeyGenerate
  | srmKeyLoad | srmKeyLoadClear | srmKeyImport | srmKeyDerive | srmKeyAttr | srmAttestKey | srmDebugUnlock | fltUnitRetest
  | fltInject | devRestart | devImageWrite | devImageCommit | devImageConfirm =>
    exact answersBeside_runCommand _ _ _ _
  | devNop | devIdentify | instQuery | swFdbRead | timeQuery | drcExport | lgrRead | srmQuery | srmAttestDevice | srmIdentity
  | devBootQuery =>
    exact answersBeside_runQuery _ _ _ _
  | commandFetch fn octets poisoned =>
    unfold execCommandFetch
    exact answersBeside_whenUp _ _
  | vnicRxFrame fn octets =>
    unfold execVnicRxFrame
    exact answersBeside_whenUp _ _
  | srmLcAdvance c target sig ownerKey fuses =>
    unfold execSrmLcAdvance
    exact answersBeside_runCommand _ _ _ _
  | tempBinMinute tj dt => exact answersBeside_tempBinMinute tj dt s
  | registerWrite fn off value => exact answersBeside_registerWrite fn off value s
  | instCommit c => exact answersBeside_instCommit c s
  | srmKeyReplace c slot source kekSlot check keyId blob cipher testOk reach =>
    exact answersBeside_srmKeyReplace c slot source kekSlot check keyId blob cipher testOk reach s

end Sys2Proof.Machine
end

section
/-! A VF's command that PF0 alone may issue (R76). -/

namespace Sys2Proof.Machine

/-- The judgement of the function comes before those of the buffer and of the command itself. -/
theorem CmdSpec.refuses_vf {k : CmdSpec} {sys : Sys} {c : Cmd} (a : Accepted) (hrec : sys.phase ≠ .recovery) (hpf0 : k.pf0 = true)
    (hvf : c.fn ≠ 0) : k.refuses sys c a = some { status := .denied } := by
  rw [CmdSpec.refuses, if_neg fun h => hrec h.1, if_pos ⟨hpf0, hvf⟩]

/-- A command that is refused completes so, and changes nothing else. -/
theorem runCommand_refused {k : CmdSpec} {c : Cmd} {s : State} {a : Accepted} {rep : Reply}
    (body : Accepted → Sys → Run → Sys × Run × Answer) (hc : s.commandFor k c = some a) (hr : k.refuses s.sys c a = some rep) :
    runCommand k c s body = .next (s.done c s.run rep) := by
  simp only [runCommand, hc, hr]
  rfl

section Denied

variable {s : State} {c : Cmd} {a : Accepted} {op : Nat} {k : CmdSpec} (hvf : c.fn ≠ 0) (hrec : s.sys.phase ≠ .recovery)
  (hc : s.commandFor { op := op, pf0 := true } c = some a) (hop : k.op = op) (hpf0 : k.pf0 = true)

include hvf hrec hc hop hpf0

/-- Which command a row executes is a matter of its opcode, not of what else the tables say of it. -/
theorem runCommand_denied (body : Accepted → Sys → Run → Sys × Run × Answer) :
    runCommand k c s body = .next (s.done c s.run { status := .denied }) :=
  runCommand_refused body (by subst hop; exact hc) (CmdSpec.refuses_vf a hrec hpf0 hvf)

theorem runCmd_denied (body : Accepted → Run → Run × Answer) :
    runCmd k c s body = .next (s.done c s.run { status := .denied }) :=
  runCommand_denied hvf hrec hc hop hpf0 _

theorem runQuery_denied (body : Accepted → Sys → Run → Answer) :
    runQuery k c s body = .next (s.done c s.run { status := .denied }) :=
  runCommand_denied hvf hrec hc hop hpf0 _

end Denied

/-- Settles O58: each row of a PF0 command is a command row whose table says so, with that opcode. -/
theorem vfIsDeniedPf0Commands : Obligations.VfIsDeniedPf0Commands := by
  intro i s c a op hi hvf hrec hc
  unfold exec
  cases i with dsimp only
  | dirtyLogStart | dirtyLogSync | dirtyLogStop | instCreate | instDestroy | instStart | instReset | instSetShare | instSetRank
  | instResume | portSnapshot | portThreshRestore | swVlanSet | swFdbAdd | swFdbDel | swFdbFlush | swHostVlan | swNodeRead
  | swCensusNow | timeSet | timeReacquire | cflProtoLoad | cflDecSync | tribSet | sioPasswordSet | celRead | celFlush | lgrAssign
  | srmLcChallenge | fbBufSet | fbSchedSet | fbRecover | fltList =>
    cases hi
    exact runCmd_denied hvf hrec hc rfl rfl _
  | devCommit | devUnlock | swRedSet | celChallenge | celClear | srmKeyLoadClear | srmDebugUnlock | fltUnitRetest | fltInject
  | devRestart | devImageWrite | devImageCommit | devImageConfirm =>
    cases hi
    exact runCommand_denied hvf hrec hc rfl rfl _
  | swFdbRead =>
    cases hi
    exact runQuery_denied hvf hrec hc rfl rfl _
  | srmLcAdvance =>
    cases hi
    unfold execSrmLcAdvance
    exact runCommand_denied hvf hrec hc rfl rfl _
  | _ => cases hi

end Sys2Proof.Machine
end

section
/-! TRIB_QUERY is no command that only reads: a configuration whose P tick has come is settled first (R511). -/

namespace Sys2Proof.Machine

/-- An event leaves the trip paths as they are. -/
theorem Run.tribState_trip (r : Run) (old : Nat) : (r.tribState old).trip = r.trip := by
  rw [Run.tribState]
  split
  · rfl
  · rw [Run.raise_eq]

/-- Once a configuration is in force, none waits. -/
theorem Run.tribEnter_next (r : Run) (x : TribCfg) : (r.tribEnter x).trip.trib.next = none := by
  rw [Run.tribEnter]
  split
  · rw [Run.tribState_trip]; rfl
  · rfl

theorem Run.settleTrib_due {r : Run} {x : TribCfg} {k : Nat} (hnext : r.trip.trib.next = some (x, k)) (hk : k ≤ r.pTickNow) :
    r.settleTrib.trip.trib.next = none := by
  simp only [Run.settleTrib, hnext, if_pos hk, Run.tribEnter_next]

/-- The trip paths are not of the host interface. -/
theorem Run.OnlyHost.trip {a b : Run} (h : a.OnlyHost b) : b.trip = a.trip := by
  unfold Run.OnlyHost at h
  rw [h]

/-- A TRIB_QUERY leaves the trip paths with that configuration settled: its completion does not touch them. -/
theorem exec_tribQuery_trip {s : State} {c : Cmd} {a : Accepted} (h : s.Ready { op := 0x0A05, pf0 := false } c a) :
    ∃ t, exec (.tribQuery c) s = .next t ∧ t.run.trip = s.run.settleTrib.trip := by
  have hdone : execTribQuery c s = .next (s.done c (s.run.settleTrib.takeFree 32).2 _) :=
    runCmd_done _ c s _ a _ _ h rfl (.inl rfl)
  exact ⟨_, hdone, (Run.onlyHost_finish _ _ _ _).trip⟩

/-! ### The counterexample -/

/-- What TRIB_SET has set for P tick 1. -/
def tribWaiting : TribCfg := { twinId := 1, pairId := 1, portA := 48, portB := none, key := 8, da := 0x010CCD040001 }

/-- PF0's TRIB_QUERY as it was accepted. -/
def tribAsked : Accepted := { entry := { cseq := 1, opcode := 0x0A05 }, target := none, gen := 0 }

/-- A device in service at 1 ms of TAI, in P tick 4, with a configuration set for P tick 1 and a TRIB_QUERY of PF0 accepted. -/
def tribDue : State where
  sys := { phase := .running, porstN := true, corePower := true }
  run := { ({ ready := true, protection := true } : Run).modFn 0 fun f => { f with cseqAccepted := 1, accepted := [tribAsked] } with
    tsu := { counter := 1000000 * 2 ^ 32 }
    trip := { trib := { next := some (tribWaiting, 1) } } }

theorem tribDue_ready : tribDue.Ready { op := 0x0A05, pf0 := false } { fn := 0, cseq := 1 } tribAsked := by decide +kernel

theorem tribDue_pTick : 1 ≤ tribDue.run.pTickNow := by decide +kernel

/-- Refutes O49: the TRIB_QUERY of `tribDue` puts the configuration into force, which is neither of the host interface, nor of the
Cellar, nor a cause bit, output or free value. -/
theorem not_readingCommandsOnlyRead : ¬ Obligations.ReadingCommandsOnlyRead := by
  unfold Obligations.ReadingCommandsOnlyRead
  intro h
  obtain ⟨t, ht, htrip⟩ := exec_tribQuery_trip tribDue_ready
  obtain ⟨-, honly⟩ := h _ tribDue t rfl ht
  have hkept : t.run.trip = tribDue.run.trip := honly.trip
  have hgone : tribDue.run.trip.trib.next = none := by
    rw [← hkept, htrip, Run.settleTrib_due (x := tribWaiting) rfl tribDue_pTick]
  exact absurd hgone (Option.some_ne_none _)

end Sys2Proof.Machine
end

section
/-! The rings of a function: doorbells, enables, command intake and posting (R50 to R56, R65, R66, R70). -/

namespace Sys2Proof.Machine

/-! ### One function among the others -/

theorem Run.fn_modFn_self (r : Run) {fn : Nat} (f : FnState → FnState) (h : fn < r.fns.length) :
    (r.modFn fn f).fn fn = f (r.fn fn) :=
  getD_modAt_self _ _ _ _ h

/-- A function is changed by an update of its own number, and then only where it exists. -/
theorem Run.fn_modFn_cases (r : Run) (n m : Nat) (f : FnState → FnState) :
    (r.modFn n f).fn m = r.fn m ∨ (n = m ∧ (r.modFn n f).fn m = f (r.fn m)) := by
  by_cases hnm : n = m
  · subst hnm
    by_cases hlen : n < r.fns.length
    · exact .inr ⟨rfl, r.fn_modFn_self f hlen⟩
    · left
      simp only [Run.fn, Run.modFn, List.getD_eq_getElem?_getD, getElem?_modAt, if_true,
        List.getElem?_eq_none (Nat.not_lt.mp hlen), Option.map_none]
  · exact .inl (getD_modAt_ne _ _ _ _ _ hnm)

/-! ### What an event leaves of a function (R62, R69, R71) -/

/-- `g` is `f` but for its event window, the entries that wait for its event ring, and its pending bits. -/
def FnState.OnlyEvents (f g : FnState) : Prop :=
  g = { f with eventLoss := g.eventLoss, eseqRaised := g.eseqRaised, post := g.post, events := g.events, msixPending := g.msixPending }

theorem FnState.OnlyEvents.refl (f : FnState) : f.OnlyEvents f := rfl

theorem FnState.OnlyEvents.trans {f g h : FnState} (hfg : f.OnlyEvents g) (hgh : g.OnlyEvents h) : f.OnlyEvents h := by
  unfold FnState.OnlyEvents at *
  rw [hgh, hfg]

theorem FnState.OnlyEvents.ring {f g : FnState} (h : f.OnlyEvents g) (i : Nat) : g.ring i = f.ring i := by
  unfold FnState.OnlyEvents at h
  rw [h]
  rfl

/-- An update of one function that touches only what events touch does so for every function. -/
theorem Run.onlyEvents_modFn (r : Run) {n : Nat} {f : FnState → FnState} (h : (r.fn n).OnlyEvents (f (r.fn n))) (m : Nat) :
    (r.fn m).OnlyEvents ((r.modFn n f).fn m) := by
  rcases r.fn_modFn_cases n m f with he | ⟨rfl, he⟩
  · rw [he]; exact .refl _
  · rw [he]; exact h

theorem FnState.pushEvent_onlyEvents (f : FnState) (e : Event) : f.OnlyEvents (f.pushEvent e).1 := by
  unfold FnState.pushEvent
  dsimp only
  split
  · split
    · rfl
    · split <;> rfl
  · rfl

theorem Run.msix_onlyEvents (r : Run) (n v m : Nat) : (r.fn m).OnlyEvents ((r.msix n v).fn m) := by
  unfold Run.msix
  split
  · rfl
  · exact r.onlyEvents_modFn (f := fun f => { f with msixPending := setIns f.msixPending v }) rfl m

theorem Run.raiseSource_onlyEvents (r : Run) (n x m : Nat) : (r.fn m).OnlyEvents ((r.raiseSource n x).fn m) := by
  unfold Run.raiseSource
  dsimp only
  split
  · rfl
  · split
    · exact Run.msix_onlyEvents _ _ _ _
    · rfl

theorem Run.postEvent_onlyEvents (r : Run) (n : Nat) (x : Raise) (m : Nat) : (r.fn m).OnlyEvents ((r.postEvent n x).fn m) := by
  have hpush := r.onlyEvents_modFn (n := n) (f := fun _ => ((r.fn n).pushEvent
    { ev := x.ev, severity := x.severity, eseq := 0, source := x.source, inst := x.inst, epoch := r.epoch, time := r.now,
      data := x.data }).1) (FnState.pushEvent_onlyEvents _ _) m
  unfold Run.postEvent
  dsimp only
  split
  · exact hpush.trans (Run.raiseSource_onlyEvents (Run.setW1c _ _) _ _ _)
  · exact hpush

/-- The copy of an event changes no function. -/
theorem Run.copyEvent_fn (r : Run) (x : Raise) (m : Nat) : (r.copyEvent x).fn m = r.fn m := by
  rw [Run.copyEvent_eq]
  rfl

/-- An event leaves of every function what is not of its event window, event entries or pending bits. -/
theorem Run.raise_onlyEvents (r : Run) (x : Raise) (m : Nat) : (r.fn m).OnlyEvents ((r.raise x).fn m) := by
  have hraised := (r.postEvent_onlyEvents (r.routeOf x.source x.owner) x m).trans
    (Run.raiseSource_onlyEvents _ (r.routeOf x.source x.owner) x.source m)
  unfold Run.raise
  dsimp only
  rw [Run.copyEvent_fn]
  exact hraised

/-! ### Doorbells (R53) -/

theorem Ring.badCount_iff (g : Ring) (ring : Nat) (new : Word) :
    g.badCount ring new = true ↔
      if ring = 1 then (g.dev - g.host).toNat < (new - g.host).toNat else 2 ^ g.log2 < (new - g.dev).toNat := by
  unfold Ring.badCount Ring.size
  split <;> exact decide_eq_true_iff

theorem FnState.ring_setRing (f : FnState) {i : Nat} (g : Ring) (hi : i < 4) : (f.setRing i g).ring i = g := by
  match i, hi with
  | 0, _ | 1, _ | 2, _ | 3, _ => rfl

section Doorbell

variable (s : State) {fn ring : Nat} {count : Word} (h : s.Hosts fn) (hfn : fn < 33) (hring : ring < 4)

include h hfn hring

theorem exec_ringHostWrite_valid (hc : ((s.run.fn fn).ring ring).badCount ring count = false) :
    exec (.ringHostWrite fn ring count) s =
      .next (s.ran ((s.run.hostAccess fn).modFn fn fun f => f.setRing ring { (s.run.fn fn).ring ring with host := count })) := by
  have hin : ¬ (33 ≤ fn ∨ 4 ≤ ring) := by omega
  change execRingHostWrite fn ring count s = _
  rw [execRingHostWrite, whenHost_hosted fn s _ h]
  simp only [if_neg hin, Run.hostAccess_fn, hc, Bool.false_eq_true, if_false]

/-- A count that would be invalid is not taken: the ring stops with an error, and the error is reported. -/
theorem exec_ringHostWrite_invalid (hc : ((s.run.fn fn).ring ring).badCount ring count = true) :
    exec (.ringHostWrite fn ring count) s =
      .next (s.ran (((s.run.hostAccess fn).modFn fn fun f => f.setRing ring { (s.run.fn fn).ring ring with err := true }).raise
        { ev := .ringError, source := ringSource fn, data := [(ring : Int), count.toNat] })) := by
  have hin : ¬ (33 ≤ fn ∨ 4 ≤ ring) := by omega
  change execRingHostWrite fn ring count s = _
  rw [execRingHostWrite, whenHost_hosted fn s _ h]
  simp only [if_neg hin, Run.hostAccess_fn, hc, if_true]

end Doorbell

/-- Settles O53: the event that reports the error leaves the rings as they are. -/
theorem invalidDoorbellIsIgnored : Obligations.InvalidDoorbellIsIgnored := by
  intro s fn ring count h hfn hlen hring g hbad
  have hlen' : fn < (s.run.hostAccess fn).fns.length := by rwa [Run.hostAccess_eq]
  refine ⟨_, (s.run.hostAccess fn).modFn fn fun f => f.setRing ring { g with err := true },
    exec_ringHostWrite_invalid s h hfn hring ((Ring.badCount_iff _ _ _).mpr hbad), ?_⟩
  rw [State.ran_run, (Run.raise_onlyEvents _ _ fn).ring ring, Run.fn_modFn_self _ _ hlen', FnState.ring_setRing _ _ hring]
  exact ⟨rfl, rfl⟩

/-! ### Enables (R50 to R52, R92) -/

/-- The row of a rising enable changes its function, after the access of the host. -/
theorem exec_cmdEnableRise (s : State) {fn : Nat} (h : s.Hosts fn) :
    exec (.cmdEnableRise fn) s =
      .next (s.ran ((s.run.hostAccess fn).modFn fn fun f => if f.cmdEn then f else { f with cmdEn := true, ring0 := f.ring0.enabled })) := by
  change execCmdEnableRise fn s = _
  exact whenHost_hosted fn s _ h

theorem exec_cmdEnableFall (s : State) (fn : Nat) (h : s.Up) :
    exec (.cmdEnableFall fn) s =
      .next (s.ran (s.run.modFn fn fun f => { f with cmdEn := false, seqStall := false, ring0 := f.ring0.disabled })) := by
  change execCmdEnableFall fn s = _
  exact whenUp_up s _ h

theorem exec_evtEnableRise (s : State) {fn : Nat} (h : s.Hosts fn) :
    exec (.evtEnableRise fn) s =
      .next (s.ran ((s.run.hostAccess fn).modFn fn fun f => if f.evtEn then f else { f with evtEn := true, ring1 := f.ring1.enabled })) := by
  change execEvtEnableRise fn s = _
  exact whenHost_hosted fn s _ h

theorem exec_evtEnableFall (s : State) (fn : Nat) (h : s.Up) :
    exec (.evtEnableFall fn) s = .next (s.ran (s.run.modFn fn fun f => { f with evtEn := false, ring1 := f.ring1.disabled })) := by
  change execEvtEnableFall fn s = _
  exact whenUp_up s _ h

theorem exec_vnicEnableRise (s : State) {fn : Nat} (h : s.Hosts fn) :
    exec (.vnicEnableRise fn) s =
      .next (s.ran ((s.run.hostAccess fn).modFn fn fun f =>
        if f.vnicEn then f else { f with vnicEn := true, ring2 := f.ring2.enabled, ring3 := f.ring3.enabled })) := by
  change execVnicEnableRise fn s = _
  exact whenHost_hosted fn s _ h

theorem exec_vnicEnableFall (s : State) (fn : Nat) (h : s.Up) :
    exec (.vnicEnableFall fn) s =
      .next (s.ran ((s.run.modFn fn fun f =>
        { f with vnicEn := false, ring2 := f.ring2.disabled, ring3 := f.ring3.disabled }).dropHost fn)) := by
  change execVnicEnableFall fn s = _
  exact whenUp_up s _ h

/-- Settles O7, row by row. -/
theorem ringRowsComplete : Obligations.RingRowsComplete :=
  ⟨fun s _ _ _ => exec_ringHostWrite_valid s, fun s _ h _ _ => exec_cmdEnableRise s h, fun s fn h _ => exec_cmdEnableFall s fn h,
    fun s _ h _ _ => exec_evtEnableRise s h, fun s fn h _ => exec_evtEnableFall s fn h, fun s _ h _ _ => exec_vnicEnableRise s h,
    fun s fn h _ => exec_vnicEnableFall s fn h⟩

end Sys2Proof.Machine
end

section
/-! Command intake, a stalled ring, and posting (R52, R56, R65, R66, R70). -/

namespace Sys2Proof.Machine

/-! ### Intake (R65, R66) -/

/-- `r` with the next entry of a function's command ring taken, whatever becomes of it: the round robin of R66 goes on behind the
function, and MBX_RING_DEV[0] counts up. -/
def Run.takeEntry (r : Run) (fn : Nat) : Run :=
  ({ r with lastFetched := fn } : Run).modFn fn fun f => { f with ring0 := { f.ring0 with dev := f.ring0.dev + 1 } }

theorem Run.modFn_taken (r : Run) (fn : Nat) :
    (({ r with lastFetched := fn } : Run).modFn fn fun f => { f with ring0 := { f.ring0 with dev := f.ring0.dev + 1 } }) =
      r.takeEntry fn := rfl

/-- Of a function, taking an entry changes ring 0 at the most. -/
theorem Run.takeEntry_fn (r : Run) (fn m : Nat) :
    (r.takeEntry fn).fn m = { r.fn m with ring0 := ((r.takeEntry fn).fn m).ring0 } := by
  rcases Run.fn_modFn_cases { r with lastFetched := fn } fn m
      fun f => { f with ring0 := { f.ring0 with dev := f.ring0.dev + 1 } } with he | ⟨-, he⟩
  · rw [Run.takeEntry, he]; rfl
  · rw [Run.takeEntry, he]; rfl

theorem Run.takeEntry_cseqAccepted (r : Run) (fn m : Nat) : ((r.takeEntry fn).fn m).cseqAccepted = (r.fn m).cseqAccepted := by
  rw [Run.takeEntry_fn]

theorem Run.takeEntry_accepted (r : Run) (fn m : Nat) : ((r.takeEntry fn).fn m).accepted = (r.fn m).accepted := by
  rw [Run.takeEntry_fn]

theorem Run.takeEntry_post (r : Run) (fn m : Nat) : ((r.takeEntry fn).fn m).post = (r.fn m).post := by
  rw [Run.takeEntry_fn]

/-- `r` with an entry of the wrong CSEQ judged: its ST_SEQ completion waits to be posted, and ring 0 stalls (R65). -/
def Run.rejectEntry (r : Run) (fn : Nat) (e : CmdEntry) : Run :=
  r.modFn fn fun f => { f with
    seqStall := true
    post := f.post ++ [.rejected { status := .seq, cseq := e.cseq, opcode := e.opcode, epoch := r.epoch, quiet := e.quiet }] }

section Fetch

variable (s : State) {fn : Nat} {octets : List Nat} (h : s.Up) (hfn : fn < 33) (hmay : s.run.mayFetch s.sys fn = true)

include h hfn hmay

theorem exec_commandFetch_next (hseq : (entryOf octets).cseq = (s.run.fn fn).cseqAccepted + 1) :
    exec (.commandFetch fn octets false) s =
      .next (s.ran ((({ s.run.takeEntry fn with acceptances := s.run.acceptances + 1 } : Run).modFn fn fun f =>
        { f with cseqAccepted := (entryOf octets).cseq,
                 accepted := f.accepted ++ [Accepted.mk (entryOf octets) (targetOf fn (entryOf octets))
                   (match targetOf fn (entryOf octets) with | some n => (s.run.inst n).gen | none => 0) false
                   s.run.acceptances] }).sweep 256 fn)) := by
  have hgive : ¬ (33 ≤ fn ∨ (!s.run.mayFetch s.sys fn) = true) := by simp [hmay]; omega
  change execCommandFetch fn octets false s = _
  unfold execCommandFetch
  rw [whenUp_up s _ h]
  simp only [if_neg hgive, Bool.false_eq_true, if_false, Run.modFn_taken, Run.takeEntry_cseqAccepted, hseq, ne_eq,
    not_true_eq_false] <;> rfl

/-- An entry of any other CSEQ is taken and not accepted. -/
theorem exec_commandFetch_wrong (hseq : (entryOf octets).cseq ≠ (s.run.fn fn).cseqAccepted + 1) :
    exec (.commandFetch fn octets false) s =
      .next (s.ran (((s.run.takeEntry fn).rejectEntry fn (entryOf octets)).raise
        { ev := .seqStall, source := ringSource fn,
          data := [(entryOf octets).cseq.toNat, ((s.run.fn fn).cseqAccepted + 1).toNat] })) := by
  have hgive : ¬ (33 ≤ fn ∨ (!s.run.mayFetch s.sys fn) = true) := by simp [hmay]; omega
  change execCommandFetch fn octets false s = _
  unfold execCommandFetch
  rw [whenUp_up s _ h]
  simp only [if_neg hgive, Bool.false_eq_true, if_false, Run.modFn_taken, Run.takeEntry_cseqAccepted, if_pos hseq]
  rfl

end Fetch

/-- A ring that may give nothing gives nothing. -/
theorem exec_commandFetch_none (s : State) (fn : Nat) (octets : List Nat) (poisoned : Bool)
    (hmay : s.run.mayFetch s.sys fn = false) : exec (.commandFetch fn octets poisoned) s = .next s := by
  change execCommandFetch fn octets poisoned s = _
  unfold execCommandFetch whenUp
  simp only [hmay, Bool.not_false, or_true, if_true, ite_self]

/-! ### Posting (R56, R70) -/

theorem exec_eventRingPost (s : State) (fn : Nat) (p : Post) (rest : List Post) :
    s.Up → (s.run.fn fn).post = p :: rest → s.run.mayPost fn = true →
    exec (.eventRingPost fn) s =
      .next (s.ran (
        let g := (s.run.fn fn).ring1
        let r := match p with | .completion c false => s.run.writeLate fn c | _ => s.run
        let r := r.modFn fn fun f => { f with
          post := rest, ring1 := { g with dev := g.dev + 1 },
          eseqPosted := match p with | .event e false => e.eseq | _ => f.eseqPosted }
        let r := (r.emit (.ringEntry fn g.slot g.phase p)).dma fn (g.base + 64 * g.slot) 64
        match p with
        | .completion c _ | .rejected c => if c.quiet then r else r.raiseSource fn (compSource fn)
        | _ => r)) := by
  intro h hp hmay
  change execEventRingPost fn s = _
  rw [execEventRingPost, whenUp_up s _ h]
  simp only [hp, hmay, Bool.not_true, Bool.false_eq_true, if_false] <;> rfl

/-- Settles O8, row by row. -/
theorem intakeAndPostingComplete : Obligations.IntakeAndPostingComplete :=
  ⟨fun s _ _ h hfn hmay hseq => exec_commandFetch_next s h hfn hmay hseq, exec_eventRingPost⟩

/-! ### A wrong CSEQ (R65) -/

theorem Run.mayFetch_stalled {r : Run} (sys : Sys) {fn : Nat} (h : (r.fn fn).seqStall = true) : r.mayFetch sys fn = false := by
  simp [Run.mayFetch, Run.canFetch, h]

theorem Run.mayFetch_disabled {r : Run} (sys : Sys) {fn : Nat} (h : (r.fn fn).cmdEn = false) : r.mayFetch sys fn = false := by
  simp [Run.mayFetch, Run.canFetch, h]

theorem Run.rejectEntry_fn (r : Run) {fn : Nat} (e : CmdEntry) (hlen : fn < r.fns.length) :
    (r.rejectEntry fn e).fn fn = { r.fn fn with
      seqStall := true
      post := (r.fn fn).post ++
        [.rejected { status := .seq, cseq := e.cseq, opcode := e.opcode, epoch := r.epoch, quiet := e.quiet }] } :=
  r.fn_modFn_self _ hlen

theorem Run.length_takeEntry_fns (r : Run) (fn : Nat) : (r.takeEntry fn).fns.length = r.fns.length := length_modAt _ _ _

theorem FnState.OnlyEvents.intake {f g : FnState} (h : f.OnlyEvents g) :
    g.accepted = f.accepted ∧ g.cseqAccepted = f.cseqAccepted ∧ g.seqStall = f.seqStall := by
  unfold FnState.OnlyEvents at h
  rw [h]
  exact ⟨rfl, rfl, rfl⟩

/-- Settles O52: the wrong CSEQ, the stalled ring, and the fall and the rise of CMD_ENABLE. -/
theorem wrongCseqStallsTheRing : Obligations.WrongCseqStallsTheRing := by
  refine ⟨?wrong, fun s fn octets poisoned hstall => exec_commandFetch_none s fn octets poisoned (Run.mayFetch_stalled _ hstall), ?fall,
    fun s fn octets poisoned hen => exec_commandFetch_none s fn octets poisoned (Run.mayFetch_disabled _ hen), ?rise⟩
  case wrong =>
    intro s fn octets h hfn hmay hlen e hseq
    have hfn' := (s.run.takeEntry fn).rejectEntry_fn e (by rwa [Run.length_takeEntry_fns])
    rw [Run.takeEntry_post] at hfn'
    obtain ⟨hacc, hcseq, hstall⟩ := (((s.run.takeEntry fn).rejectEntry fn e).raise_onlyEvents
      { ev := .seqStall, source := ringSource fn, data := [e.cseq.toNat, ((s.run.fn fn).cseqAccepted + 1).toNat] } fn).intake
    refine ⟨_, (s.run.takeEntry fn).rejectEntry fn e, exec_commandFetch_wrong s h hfn hmay hseq, ?_⟩
    rw [State.ran_run, hacc, hcseq, hstall, hfn', Run.takeEntry_accepted, Run.takeEntry_cseqAccepted]
    exact ⟨rfl, rfl, rfl, rfl, rfl⟩
  case fall =>
    intro s fn h _ hlen
    refine ⟨_, exec_cmdEnableFall s fn h, ?_⟩
    rw [State.ran_run, Run.fn_modFn_self _ _ hlen]
    exact ⟨rfl, rfl, rfl⟩
  case rise =>
    intro s fn h _ hlen hen hstall
    have hlen' : fn < (s.run.hostAccess fn).fns.length := by rwa [Run.hostAccess_eq]
    refine ⟨_, exec_cmdEnableRise s h, ?_⟩
    rw [State.ran_run, Run.fn_modFn_self _ _ hlen', Run.hostAccess_fn, hen]
    exact ⟨rfl, hstall, rfl⟩

end Sys2Proof.Machine
end

section
/-! The rows of the rings, and reads of BAR0, change nothing but the host interface and what a read of the TSU's registers takes. -/

namespace Sys2Proof.Machine

theorem Run.OnlyInterface.refl (r : Run) : r.OnlyInterface r := rfl

theorem Run.OnlyInterface.ite {r a b : Run} {p : Prop} [Decidable p] (ha : r.OnlyInterface a) (hb : r.OnlyInterface b) :
    r.OnlyInterface (if p then a else b) := by
  split
  · exact ha
  · exact hb

theorem Run.onlyInterface_modFn (r : Run) (n : Nat) (f : FnState → FnState) : r.OnlyInterface (r.modFn n f) := rfl

theorem Run.onlyInterface_takeEntry (r : Run) (fn : Nat) : r.OnlyInterface (r.takeEntry fn) := rfl

/-- An acceptance is counted, and its function updated. -/
theorem Run.onlyInterface_accept (r : Run) (n fn : Nat) (f : FnState → FnState) :
    r.OnlyInterface (({ r with acceptances := n } : Run).modFn fn f) := rfl

theorem Run.onlyHost_writeLate (r : Run) (fn : Nat) (c : Completion) : r.OnlyHost (r.writeLate fn c) := by
  unfold Run.writeLate
  split
  · exact (Run.onlyHost_emit _ _).trans (Run.onlyHost_dma _ _ _ _)
  · exact .refl r

/-- An entry written to the event ring, with the update of its function. -/
theorem Run.onlyHost_posted (r : Run) (fn addr len : Nat) (f : FnState → FnState) (o : Out) :
    r.OnlyHost (((r.modFn fn f).emit o).dma fn addr len) :=
  ((Run.onlyHost_modFn _ _ _).trans (Run.onlyHost_emit _ _)).trans (Run.onlyHost_dma _ _ _ _)

/-- The source of a completion, unless its command is quiet. -/
theorem Run.onlyHost_signalled (r : Run) (quiet : Bool) (fn x : Nat) :
    r.OnlyHost (if quiet = true then r else r.raiseSource fn x) := by
  split
  · exact .refl r
  · exact Run.onlyHost_raiseSource _ _ _

/-- An event that runs only out of reset stays in the interface if what it does there does. -/
theorem whenUp_onlyInterface {s t : State} {f : Sys → Run → Run} (hf : s.run.OnlyInterface (f s.sys s.run))
    (h : whenUp s f = .next t) : t.sys = s.sys ∧ s.run.OnlyInterface t.run := by
  by_cases hup : s.Up
  · cases (whenUp_up s f hup).symm.trans h
    exact ⟨rfl, hf⟩
  · rw [whenUp, if_pos (Decidable.not_not.mp hup)] at h
    cases h
    exact ⟨rfl, .refl _⟩

/-- So does an access of the host, whatever keeps it from the function. -/
theorem whenHost_onlyInterface {fn : Nat} {s t : State} {f : Sys → Run → Run} (hf : s.run.OnlyInterface (f s.sys s.run))
    (h : whenHost fn s f = .next t) : t.sys = s.sys ∧ s.run.OnlyInterface t.run := by
  unfold whenHost whenLinked at h
  exact whenUp_onlyInterface (.ite (.refl _) (.ite (.refl _) hf)) h

/-- The access of the host, and then an update of its function. -/
theorem Run.onlyInterface_accessed (r : Run) (fn : Nat) (f : FnState → FnState) :
    r.OnlyInterface ((r.hostAccess fn).modFn fn f) :=
  (r.onlyInterface_hostAccess fn).trans (Run.onlyInterface_modFn _ _ _)

theorem execCommandFetch_onlyInterface {fn : Nat} {octets : List Nat} {poisoned : Bool} {s t : State}
    (h : execCommandFetch fn octets poisoned s = .next t) : t.sys = s.sys ∧ s.run.OnlyInterface t.run := by
  unfold execCommandFetch at h
  refine whenUp_onlyInterface ?_ h
  have htaken := s.run.onlyInterface_takeEntry fn
  simp only [Run.modFn_taken]
  refine .ite (.refl _) (.ite (htaken.trans ?poisoned) (.ite (htaken.trans ?wrong) (htaken.trans ?next)))
  case poisoned => exact ((Run.onlyHost_modFn _ _ _).trans (Run.onlyHost_emit _ _)).interface
  case wrong => exact ((Run.onlyHost_modFn _ _ _).trans (Run.onlyHost_raise _ _)).interface
  case next => exact (Run.onlyInterface_accept _ _ _ _).trans (Run.onlyHost_sweep _ _ _).interface

theorem execEventRingPost_onlyInterface {fn : Nat} {s t : State} (h : execEventRingPost fn s = .next t) :
    t.sys = s.sys ∧ s.run.OnlyInterface t.run := by
  refine whenUp_onlyInterface (Run.OnlyHost.interface ?_) h
  dsimp only
  split
  · exact .refl _
  · rename_i p rest _
    split
    · exact .refl _
    · match p with
      | .completion c false =>
        have hlate := s.run.onlyHost_writeLate fn c
        exact (hlate.trans (Run.onlyHost_posted _ _ _ _ _ _)).trans (Run.onlyHost_signalled _ _ _ _)
      | .completion c true | .rejected c => exact (Run.onlyHost_posted _ _ _ _ _ _).trans (Run.onlyHost_signalled _ _ _ _)
      | .event e false | .event e true | .loss .. => exact Run.onlyHost_posted _ _ _ _ _ _

/-- A doorbell, valid or not (R53). -/
theorem execRingHostWrite_onlyInterface {fn ring : Nat} {count : Word} {s t : State}
    (h : execRingHostWrite fn ring count s = .next t) : t.sys = s.sys ∧ s.run.OnlyInterface t.run := by
  refine whenHost_onlyInterface ?_ h
  have hwritten := s.run.onlyInterface_accessed fn
  exact .ite (s.run.onlyInterface_hostAccess fn) (.ite ((hwritten _).trans (Run.onlyHost_raise _ _).interface) (hwritten _))

theorem execReg64LowRead_onlyInterface {fn off : Nat} {s t : State} (h : execReg64LowRead fn off s = .next t) :
    t.sys = s.sys ∧ s.run.OnlyInterface t.run :=
  whenHost_onlyInterface (((s.run.onlyInterface_hostAccess fn).trans (readBar_onlyInterface _ _ _ _)).trans
    (Run.onlyHost_emit _ _).interface) h

/-- Settles O51, row by row. -/
theorem ringEventsStayInTheHostInterface : Obligations.RingEventsStayInTheHostInterface := by
  intro i s t hi h
  cases i with
  | commandFetch fn octets poisoned => exact execCommandFetch_onlyInterface h
  | eventRingPost fn => exact execEventRingPost_onlyInterface h
  | ringHostWrite fn ring count => exact execRingHostWrite_onlyInterface h
  | cmdEnableRise fn =>
    change execCmdEnableRise fn s = _ at h
    exact whenHost_onlyInterface (s.run.onlyInterface_accessed fn _) h
  | evtEnableRise fn =>
    change execEvtEnableRise fn s = _ at h
    exact whenHost_onlyInterface (s.run.onlyInterface_accessed fn _) h
  | vnicEnableRise fn =>
    change execVnicEnableRise fn s = _ at h
    exact whenHost_onlyInterface (s.run.onlyInterface_accessed fn _) h
  | cmdEnableFall fn =>
    change execCmdEnableFall fn s = _ at h
    exact whenUp_onlyInterface (s.run.onlyInterface_modFn fn _) h
  | evtEnableFall fn =>
    change execEvtEnableFall fn s = _ at h
    exact whenUp_onlyInterface (s.run.onlyInterface_modFn fn _) h
  | reg64LowRead fn off => exact execReg64LowRead_onlyInterface h
  | _ => cases hi

end Sys2Proof.Machine
end

section
/-! The device commands that change no configuration, and dirty-page logging (R76, R84 to R86, R95 to R99). -/

namespace Sys2Proof.Machine

/-- A reply longer than the host buffer completes with ST_BUF and the length it needs, and changes nothing (Table 2.8). -/
theorem runCommand_tooLong {k : CmdSpec} {c : Cmd} {s : State} {body : Accepted → Sys → Run → Sys × Run × Answer} {a : Accepted}
    {sys : Sys} {r : Run} {rep : Reply} (h : s.Ready k c a) (hb : body a s.sys s.run = (sys, r, .done rep))
    (hlen : a.entry.bufLen < rep.bufLen) :
    runCommand k c s body = .next (s.done c s.run { status := .buf, result := [(rep.bufLen : Int)] }) := by
  obtain ⟨hcommand, hrefuses⟩ := h
  simp only [runCommand, hcommand, hrefuses, hb, if_pos (Or.inl hlen)]
  rfl

/-! ### Commands that answer from the state (R76, R86) -/

theorem exec_devNop (s : State) {c : Cmd} {a : Accepted} (h : s.Ready { op := 0x0100, pf0 := false, recovery := true } c a) :
    exec (.devNop c) s = .next (s.done c s.run {}) := by
  change execDevNop c s = _
  exact runQuery_done _ c s _ a {} h rfl (.inl rfl)

theorem exec_devIdentify (s : State) {c : Cmd} {a : Accepted} (h : s.Ready { op := 0x0101, pf0 := false, recovery := true } c a) :
    exec (.devIdentify c) s = .next (s.done c s.run { result := [partNumber, mbxId c.fn, s.run.epoch.toNat, s.sys.serial] }) := by
  change execDevIdentify c s = _
  exact runQuery_done _ c s _ a _ h rfl (.inl rfl)

/-- The sections of a snapshot are open, and so is whether it fits. -/
theorem exec_devSnapshot (s : State) {c : Cmd} {a : Accepted} (h : s.Ready { op := 0x0104, pf0 := false } c a) (hbuf : c.bufErr = false) :
    let sections := Config.snapshotSections c.fn (s.sys, s.run)
    let total := 64 + (sections.map snapshotBytes).sum
    exec (.devSnapshot c) s =
      .next (if total ≤ a.entry.bufLen then
          s.done c s.run {
            bufLen := total
            buffer := [(1 : Int), c.fn, s.run.epoch.toNat, (s.run.fn c.fn).cseqAccepted.toNat, (s.run.fn c.fn).cseqCompleted.toNat,
              (s.run.fn c.fn).eseqRaised.toNat, sections.length, secOf s.run.now, nsOf s.run.now, total] ++
              sections.flatMap snapshotSection }
        else s.done c s.run { status := .buf, result := [(total : Int)] }) := by
  intro sections total
  change execDevSnapshot c s = _
  by_cases hfit : total ≤ a.entry.bufLen
  · rw [if_pos hfit]
    exact runCommand_done _ c s _ a s.sys s.run _ h rfl (.inr ⟨hfit, hbuf⟩)
  · rw [if_neg hfit]
    refine runCommand_tooLong (rep := { bufLen := total, buffer := _ }) h rfl ?_
    exact Nat.not_le.mp hfit

/-! ### Replays (R84, R85) -/

theorem exec_devReplayCompletions (s : State) {c : Cmd} {a : Accepted} {start : Word} (h : s.Ready { op := 0x0102, pf0 := false } c a)
    (hwin : ((s.run.fn c.fn).cseqAccepted + 1 - start).toNat ≤ 256) :
    let l := (s.run.fn c.fn).replayable start ((s.run.fn c.fn).cseqAccepted + 1 - start).toNat
    exec (.devReplayCompletions c start) s =
      .next (s.done c (s.run.modFn c.fn fun f => { f with post := f.post ++ l.map fun x => Post.completion x true })
        { result := [(l.length : Int)] }) := by
  intro l
  change execDevReplayCompletions c start s = _
  exact runCmd_done _ c s _ a _ _ h (if_neg (Nat.not_lt.mpr hwin)) (.inl rfl)

/-- Where no event is replayed, the last ESEQ replayed is the free value that the command takes in any case. -/
theorem exec_devReplayEvents (s : State) {c : Cmd} {a : Accepted} {start : Word} (h : s.Ready { op := 0x0103, pf0 := false } c a)
    (hwin : ((s.run.fn c.fn).eseqRaised + 1 - start).toNat ≤ 4096) :
    let l := (s.run.fn c.fn).replayEvents start ((s.run.fn c.fn).eseqRaised + 1 - start).toNat
    exec (.devReplayEvents c start) s =
      .next (s.done c ((s.run.takeFree 32).2.modFn c.fn fun f => { f with post := f.post ++ l.map fun x => Post.event x true })
        { result := [(l.length : Int), (match l.getLast? with | some e => e.eseq | none => (s.run.takeFree 32).1).toNat] }) := by
  intro l
  change execDevReplayEvents c start s = _
  exact runCmd_done _ c s _ a _ _ h (if_neg (Nat.not_lt.mpr hwin)) (.inl rfl)

/-- Settles O10, command by command. -/
theorem deviceCommandsComplete : Obligations.DeviceCommandsComplete :=
  ⟨fun s _ _ => exec_devNop s, fun s _ _ => exec_devIdentify s, fun s _ _ _ => exec_devReplayCompletions s,
    fun s _ _ _ => exec_devReplayEvents s, fun s _ _ => exec_devSnapshot s⟩

/-! ### Dirty-page logging (R95 to R99) -/

/-- A switch makes the other bitmap active. -/
theorem DirtyLog.switch_activeB (d : DirtyLog) : d.switch.activeB = !d.activeB := by
  unfold DirtyLog.switch
  cases d.activeB <;> rfl

/-- RESULT of a switch: the number of the bitmap that is active after it. -/
theorem DirtyLog.switch_result (d : DirtyLog) :
    (if d.switch.activeB then (1 : Int) else 0) = if d.activeB then 0 else 1 := by
  rw [DirtyLog.switch_activeB]
  cases d.activeB <;> rfl

theorem exec_dirtyLogStart (s : State) {c : Cmd} {a : Accepted} {m base length bitmapA bitmapB : Nat}
    (h : s.Ready { op := 0x0108, pf0 := true } c a) (hargs : dirtyArgsOk m base length bitmapA bitmapB = true)
    (hidle : (s.run.fn m).dirty = none) :
    exec (.dirtyLogStart c m base length bitmapA bitmapB) s =
      .next (s.done c (s.run.modFn m fun f =>
        { f with dirty := some { base := base, length := length, bitmapA := bitmapA, bitmapB := bitmapB } }) {}) := by
  change execDirtyLogStart c m base length bitmapA bitmapB s = _
  refine runCmd_done _ c s _ a _ {} h ?_ (.inl rfl)
  simp only [hargs, hidle, Bool.not_true, Option.isSome_none, Bool.false_eq_true, if_false]
  rfl

section Logging

variable (s : State) {c : Cmd} {a : Accepted} {m : Nat} {d : DirtyLog} (h1 : 1 ≤ m) (h32 : m ≤ 32) (hd : (s.run.fn m).dirty = some d)

include h1 h32 hd

theorem exec_dirtyLogSync (h : s.Ready { op := 0x0109, pf0 := true } c a) :
    exec (.dirtyLogSync c m) s =
      .next (s.done c ((s.run.modFn m fun f => { f with dirty := some d.switch }).emit d.closed)
        { result := [if d.activeB then 0 else 1, d.outside] }) := by
  have hin : ¬ (m < 1 ∨ 32 < m) := by omega
  change execDirtyLogSync c m s = _
  refine runCmd_done _ c s _ a _ _ h ?_ (.inl rfl)
  simp only [if_neg hin, hd, DirtyLog.switch_result]

/-- With FREEZE the frames that wait for the VF are dropped. -/
theorem exec_dirtyLogStop (freeze : Bool) (h : s.Ready { op := 0x010A, pf0 := true } c a) :
    let r := s.run.modFn m fun f => { f with dirty := none, frozen := f.frozen || freeze }
    exec (.dirtyLogStop c m freeze) s =
      .next (s.done c ((if freeze then r.dropHost m else r).emit d.closed) { result := [if d.activeB then 0 else 1, d.outside] }) := by
  intro r
  have hin : ¬ (m < 1 ∨ 32 < m) := by omega
  change execDirtyLogStop c m freeze s = _
  refine runCmd_done _ c s _ a _ _ h ?_ (.inl rfl)
  simp only [if_neg hin, hd, DirtyLog.switch_result]
  rfl

end Logging

/-- Settles O12, command by command. -/
theorem dirtyLogCommandsComplete : Obligations.DirtyLogCommandsComplete :=
  ⟨fun s _ _ _ _ _ _ _ => exec_dirtyLogStart s, fun s _ _ _ _ h h1 h32 hd => exec_dirtyLogSync s h1 h32 hd h,
    fun s _ _ _ freeze _ h h1 h32 hd => exec_dirtyLogStop s h1 h32 hd freeze h⟩

end Sys2Proof.Machine
end

section
/-! The parameter commands, DEV_COMMIT and DEV_UNLOCK (R77 to R83, R685, R686). -/

namespace Sys2Proof.Machine

/-! ### PARAM_GET (R685) -/

/-- The record of a parameter that the function may read and whose value is known. -/
theorem getRecord_known (sys : Sys) (r : Run) {fn id : Nat} {p : PInfo} {v : Int} (hp : paramOf sys r id = some p)
    (hread : p.readable fn = true) (hv : p.value = some v) :
    getRecord sys r fn id = (r, .ok, [(id : Int), p.ty, 0, putValue p.ty v]) := by
  simp only [getRecord, hp, hread, Bool.not_true, Bool.false_eq_true, if_false, hv]

theorem exec_paramGet_one (s : State) {c : Cmd} {a : Accepted} {id : Nat} {p : PInfo} {v : Int}
    (h : s.Ready { op := 0x0105, pf0 := false } c a) (hp : paramOf s.sys s.run id = some p) (hread : p.readable c.fn = true)
    (hv : p.value = some v) :
    exec (.paramGet c [id]) s = .next (s.done c s.run { result := [(id : Int), p.ty, 0, putValue p.ty v] }) := by
  change execParamGet c [id] s = _
  refine runCommand_done _ c s _ a s.sys s.run _ h ?_ (.inl rfl)
  simp [getRecord_known _ _ hp hread hv, firstBad]

theorem exec_paramGet_many (s : State) {c : Cmd} {a : Accepted} {ids : List Nat} (h : s.Ready { op := 0x0105, pf0 := false } c a)
    (htwo : 2 ≤ ids.length) (hmax : ids.length ≤ 256) (hlen : 16 * ids.length ≤ a.entry.bufLen) (hbuf : c.bufErr = false) :
    let x := ids.foldl (fun (acc : Run × List (Status × List Int)) id =>
      ((getRecord s.sys acc.1 c.fn id).1, acc.2 ++ [(getRecord s.sys acc.1 c.fn id).2])) (s.run, [])
    exec (.paramGet c ids) s =
      .next (s.done c x.1 { status := firstBad (x.2.map (·.1)), buffer := x.2.flatMap (·.2), bufLen := 16 * ids.length }) := by
  intro x
  have hcount : ¬ (ids = [] ∨ 256 < ids.length) := by
    rintro (rfl | hlong)
    · exact absurd htwo (by decide)
    · omega
  have hone : ¬ ids.length = 1 := by omega
  change execParamGet c ids s = _
  refine runCommand_done _ c s _ a s.sys x.1 _ h ?_ (.inr ⟨hlen, hbuf⟩)
  rw [if_neg hcount]
  exact if_neg hone

/-! ### PARAM_SET (R78 to R80) -/

/-- No record fails where each is judged good. -/
theorem firstBad_ok {l : List Status} (h : ∀ x ∈ l, x = .ok) : firstBad l = .ok := by
  have hnone : l.find? (fun s => s != .ok) = none := by
    rw [List.find?_eq_none]
    intro x hx
    simp [h x hx]
  rw [firstBad, hnone]
  rfl

theorem exec_paramSet (s : State) {c : Cmd} {a : Accepted} {records : List ParamRec} (h : s.Ready { op := 0x0106, pf0 := false } c a)
    (hpos : 1 ≤ records.length) (hmax : records.length ≤ 256) (hgood : ∀ x ∈ records, (judgeSet s.sys s.run c.fn x).1 = .ok)
    (hbuf : records.length = 1 ∨ (16 * records.length ≤ a.entry.bufLen ∧ c.bufErr = false)) :
    let x := records.foldl (fun (acc : Sys × Run) x => applySet acc.1 acc.2 x.ident (judgeSet s.sys s.run c.fn x).2.1) (s.sys, s.run)
    exec (.paramSet c records) s =
      .next (({ s with sys := x.1 }).done c x.2 {
        buffer := if records.length = 1 then [] else records.map fun _ => 0
        bufLen := if records.length = 1 then 0 else 16 * records.length }) := by
  intro x
  have hcount : ¬ (records = [] ∨ 256 < records.length) := by
    rintro (rfl | hlong)
    · exact absurd hpos (by decide)
    · omega
  have hstatus : firstBad ((records.map fun x => (x.ident, judgeSet s.sys s.run c.fn x)).map fun e => e.2.1) = .ok := by
    refine firstBad_ok fun st hst => ?_
    simp only [List.map_map, List.mem_map, Function.comp_apply] at hst
    obtain ⟨x, hx, rfl⟩ := hst
    exact hgood x hx
  have hcodes : ((records.map fun x => (x.ident, judgeSet s.sys s.run c.fn x)).map fun e => (e.2.1.code : Int)) =
      records.map fun _ => 0 := by
    rw [List.map_map]
    exact List.map_congr_left fun x hx => congrArg (fun st : Status => (st.code : Int)) (hgood x hx)
  change execParamSet c records s = _
  refine runCommand_done _ c s _ a x.1 x.2 _ h ?body ?fits
  case body =>
    simp only [if_neg hcount, hstatus, hcodes, ne_eq, not_true_eq_false, if_false, List.foldl_map]
    rfl
  case fits =>
    by_cases hone : records.length = 1
    · exact .inl (if_pos hone)
    · obtain ⟨hlen, hwritten⟩ := hbuf.resolve_left hone
      exact .inr ⟨Nat.le_trans (Nat.le_of_eq (if_neg hone)) hlen, hwritten⟩

/-! ### PARAM_DESCRIBE (R686) -/

/-- Minimum, maximum and step as PARAM_DESCRIBE returns them: where the chapter gives none, the next three free values. -/
def Run.describedRange (r : Run) (p : PInfo) : Int × Int × Int :=
  p.range.getD ((Config.freeValue 64 r.free).toNat, (Config.freeValue 64 (r.free + 1)).toNat, (Config.freeValue 64 (r.free + 2)).toNat)

theorem exec_paramDescribe (s : State) {c : Cmd} {a : Accepted} {id : Nat} {p : PInfo}
    (h : s.Ready { op := 0x0107, pf0 := false } c a) (hp : paramOf s.sys s.run id = some p) (hread : p.readable c.fn = true)
    (hlen : 8 ≤ a.entry.bufLen) (hbuf : c.bufErr = false) :
    ∃ (r : Run) (lo hi step : Int) (d : Int),
      exec (.paramDescribe c id) s =
        .next (s.done c r {
          result := [(p.ty : Int), (Config.paramClassCode p.cls).toNat, p.unit, lo, hi, step], buffer := [d], bufLen := 8 }) ∧
      (∀ x, p.range = some x → x = (lo, hi, step)) ∧ (∀ x, p.dflt = some x → d = x) ∧ r = { s.run with free := s.run.free + 4 } := by
  have hbody : execParamDescribe c id s = .next (s.done c { s.run with free := s.run.free + 4 } {
      result := [(p.ty : Int), (Config.paramClassCode p.cls).toNat, p.unit, (s.run.describedRange p).1,
        (s.run.describedRange p).2.1, (s.run.describedRange p).2.2]
      buffer := [p.dflt.getD (Config.freeValue 64 (s.run.free + 3)).toNat]
      bufLen := 8 }) := by
    refine runCommand_done _ c s _ a s.sys _ _ h ?_ (.inr ⟨hlen, hbuf⟩)
    simp only [hp, hread, Bool.not_true, Bool.false_eq_true, if_false]
    rfl
  refine ⟨_, _, _, _, _, hbody, fun x hx => ?_, fun x hx => ?_, rfl⟩
  · simp only [Run.describedRange, hx, Option.getD_some]
  · simp only [hx, Option.getD_some]

/-! ### The device configuration (R80, R81) -/

theorem exec_devCommit (s : State) {c : Cmd} {a : Accepted} (h : s.Ready { op := 0x010B, pf0 := true } c a)
    (hgood : stagedBad s.sys s.run = false) :
    let x := applyStaged s.sys s.run
    exec (.devCommit c) s =
      .next (({ s with sys := { x.1 with locked := true } }).done c
        ((Run.configStore { x.2 with
          fns := x.2.fns.map fun (f : FnState) => ({ f with lockedRaised := false } : FnState)
          store := x.2.store.commit (some (captureConfig x.1 x.2)) }).configEvent 2) {}) := by
  intro x
  have hin : ¬ stagedBad s.sys s.run = true := by simp [hgood]
  change execDevCommit c s = _
  exact runCommand_done _ c s _ a _ _ {} h (if_neg hin) (.inl rfl)

theorem exec_devUnlock (s : State) {c : Cmd} {a : Accepted} (h : s.Ready { op := 0x010C, pf0 := true } c a) :
    exec (.devUnlock c) s = .next (({ s with sys := { s.sys with locked := false } }).done c (s.run.configEvent 1) {}) := by
  change execDevUnlock c s = _
  exact runCommand_done _ c s _ a _ _ {} h rfl (.inl rfl)

/-- Settles O11, command by command. -/
theorem parameterAndConfigCommandsComplete : Obligations.ParameterAndConfigCommandsComplete :=
  ⟨fun s _ _ _ _ _ => exec_paramGet_one s, fun s _ _ _ => exec_paramGet_many s, fun s _ _ _ => exec_paramSet s,
    fun s _ _ _ _ => exec_paramDescribe s, fun s _ _ => exec_devCommit s, fun s _ _ => exec_devUnlock s⟩

end Sys2Proof.Machine
end

section
/-! The virtual NIC, and the resets of the host interface (R44 to R46, R87 to R94, R669). -/

namespace Sys2Proof.Machine

/-! ### Reception (R87 to R90) -/

/-- The head frame of the queue goes to the descriptors named: all that are available, or as many as take it whole. -/
theorem exec_vnicRxFrame (s : State) {fn : Nat} {octets : List (List Nat)} {x : Queued} {rest : List Queued} {held : Held}
    (h : s.Up) (hfn : fn < 33) (hen : (s.run.fn fn).vnicEn = true) (hthaw : (s.run.fn fn).frozen = false)
    (herr : (s.run.fn fn).ring2.err = false) (hsome : octets.map rxDescOf ≠ [])
    (hroom : (octets.map rxDescOf).length ≤ (s.run.fn fn).ring2.waiting) (hq : tabGetD s.run.sw.hostQ fn [] = x :: rest)
    (hheld : s.run.held x.fid = some held) (hwhole : held.complete = true)
    (hfit : (octets.map rxDescOf).length = (s.run.fn fn).ring2.waiting ∨
      egressLen held.frame x ≤ ((octets.map rxDescOf).map (·.len)).sum) :
    exec (.vnicRxFrame fn octets) s = .next (s.ran (s.run.vnicReceive fn x held (octets.map rxDescOf))) := by
  have hopen : ¬ (decide (33 ≤ fn) || !(s.run.fn fn).vnicEn || (s.run.fn fn).frozen || (s.run.fn fn).ring2.err ||
      (octets.map rxDescOf).isEmpty || decide ((s.run.fn fn).ring2.waiting < (octets.map rxDescOf).length)) = true := by
    simp only [hen, hthaw, herr, List.isEmpty_eq_false_iff.mpr hsome, decide_eq_false (Nat.not_le.mpr hfn),
      decide_eq_false (Nat.not_lt.mpr hroom), Bool.not_true, Bool.or_self, Bool.false_eq_true, not_false_eq_true]
  have hgo : (held.complete && ((octets.map rxDescOf).length == (s.run.fn fn).ring2.waiting ||
      decide (egressLen held.frame x ≤ ((octets.map rxDescOf).map (·.len)).sum))) = true := by
    simpa only [hwhole, Bool.true_and, Bool.or_eq_true, beq_iff_eq, decide_eq_true_eq] using hfit
  change execVnicRxFrame fn octets s = _
  unfold execVnicRxFrame
  rw [whenUp_up s _ h]
  simp only [if_neg hopen, hq, hheld, if_pos hgo]

/-! ### Transmission (R93, R94) -/

section Transmit

variable (s : State) {fn : Nat} {octets : List (List Nat)} {frame : Frame} {l : List TxDesc} {dmaErr : Bool}
  {r : Run} (h : s.Up) (hfn : fn < 33)
  (hen : (s.run.fn fn).vnicEn = true) (hthaw : (s.run.fn fn).frozen = false) (herr : (s.run.fn fn).ring3.err = false)
  (hl : frameDescs (octets.map txDescOf) = some l) (hroom : l.length ≤ (s.run.fn fn).ring3.waiting)

include hfn hen hthaw herr hl hroom in
/-- The ring gives the descriptors of a frame: they are one at the least. -/
theorem txDescs_given : ¬ (decide (33 ≤ fn) || !(s.run.fn fn).vnicEn || (s.run.fn fn).frozen || (s.run.fn fn).ring3.err ||
    l.isEmpty || decide ((s.run.fn fn).ring3.waiting < l.length)) = true := by
  have hsome : l ≠ [] := by
    rintro rfl
    obtain ⟨x, hx, -⟩ := frameDescs_last hl
    exact absurd hx (by simp)
  simp only [hen, hthaw, herr, List.isEmpty_eq_false_iff.mpr hsome, decide_eq_false (Nat.not_le.mpr hfn),
    decide_eq_false (Nat.not_lt.mpr hroom), Bool.not_true, Bool.or_self, Bool.false_eq_true, not_false_eq_true]

include h hfn hen hthaw herr hl hroom

theorem exec_vnicTxFrame_sent (hlen : (l.map (·.len)).sum ≤ 1996)
    (hsent : s.run.vnicSend fn { frame with len := (l.map (·.len)).sum } = (r, true)) :
    exec (.vnicTxFrame fn octets frame false) s =
      .next (s.ran (((List.range l.length).foldl (fun (r : Run) _ => r.returnDesc fn 3 fun slot phase => .txDesc fn slot 0 phase)
        (r.modFn fn fun f => { f with vnicTx := (f.vnicTx + 1) % 2 ^ 64 })).raiseSource fn (vnicSource fn))) := by
  have hgiven := txDescs_given s hfn hen hthaw herr hl hroom
  change execVnicTxFrame fn octets frame false s = _
  rw [execVnicTxFrame, whenUp_up s _ h]
  simp only [hl, Option.getD_some, if_neg hgiven, decide_eq_false (Nat.not_lt.mpr hlen), Bool.or_self, Bool.or_true, Bool.false_eq_true,
    if_false, if_true, hsent]
  rfl

/-- A frame that cannot be read, or is too long, is counted and not sent; its descriptors return all the same. -/
theorem exec_vnicTxFrame_bad (hbad : dmaErr = true ∨ 1996 < (l.map (·.len)).sum) :
    exec (.vnicTxFrame fn octets frame dmaErr) s =
      .next (s.ran (((List.range l.length).foldl (fun (r : Run) _ => r.returnDesc fn 3 fun slot phase =>
          .txDesc fn slot (if dmaErr then 2 else 1) phase)
        (s.run.modFn fn fun f => { f with vnicTxErr := (f.vnicTxErr + 1) % 2 ^ 64 })).raiseSource fn (vnicSource fn))) := by
  have hgiven := txDescs_given s hfn hen hthaw herr hl hroom
  have hbad' : (dmaErr || decide (1996 < (l.map (·.len)).sum)) = true := by
    simpa only [Bool.or_eq_true, decide_eq_true_eq] using hbad
  change execVnicTxFrame fn octets frame dmaErr s = _
  rw [execVnicTxFrame, whenUp_up s _ h]
  simp only [hl, Option.getD_some, if_neg hgiven, hbad', Bool.true_or, if_true]

end Transmit

/-- Settles O13, row by row; a transmission by whether its frame is sent. -/
theorem virtualNicRowsComplete : Obligations.VirtualNicRowsComplete :=
  ⟨fun s _ _ _ _ _ h hfn => exec_vnicRxFrame s h hfn, fun s _ _ _ _ _ => exec_vnicTxFrame_sent s,
    fun s _ _ _ _ _ => exec_vnicTxFrame_bad s⟩

/-! ### Resets (R44 to R46, R669) -/

theorem exec_functionLevelReset_vf (s : State) {fn : Nat} (h : s.Up) (h1 : 1 ≤ fn) (hfn : fn < 33) :
    exec (.functionLevelReset fn) s =
      .next (s.ran ((s.run.fnReset s.run.ownSources fn).raise { ev := .vfReset, source := 899, data := [(fn : Int)] })) := by
  change execFunctionLevelReset fn s = _
  rw [execFunctionLevelReset, whenUp_up s _ h]
  simp only [Run.flr, if_neg (Nat.not_le.mpr hfn), if_neg (Nat.ne_of_gt h1)]

/-- The reset of PF0 takes that of every VF's host interface with it. -/
theorem exec_functionLevelReset_pf0 (s : State) (h : s.Up) :
    exec (.functionLevelReset 0) s =
      .next (s.ran (((List.range 32).map (· + 1)).foldl (fun (r : Run) m => r.hostReset s.run.ownSources m)
        (({ s.run with vfEnable := false, numVfs := 0 } : Run).fnReset s.run.ownSources 0))) := by
  change execFunctionLevelReset 0 s = _
  rw [execFunctionLevelReset, whenUp_up s _ h]
  rfl

theorem exec_pcieLinkLoss (s : State) (h : s.Up) : exec .pcieLinkLoss s = .next (s.ran (s.run.flrAll s.run.ownSources)) := by
  change execPcieLinkLoss s = _
  exact whenUp_up s _ h

theorem exec_d3hotEntry (s : State) {fn : Nat} (h : s.Up) (hfn : fn < 33) :
    exec (.d3hotEntry fn) s = .next (s.ran (s.run.hostReset s.run.ownSources fn)) := by
  change execD3hotEntry fn s = _
  rw [execD3hotEntry, whenUp_up s _ h]
  simp only [if_neg (Nat.not_le.mpr hfn)]

theorem exec_perstNFall (s : State) (h : s.Up) : exec .perstNFall s = .next (s.ran (s.run.flrAll s.run.ownSources)) := by
  change execPerstNFall s = _
  exact whenUp_up s _ h

/-- Settles O14, row by row; a function-level reset by whether it is PF0's. -/
theorem hostInterfaceResetsComplete : Obligations.HostInterfaceResetsComplete :=
  ⟨fun s _ => exec_functionLevelReset_vf s, exec_functionLevelReset_pf0, exec_pcieLinkLoss, fun s _ => exec_d3hotEntry s, exec_perstNFall⟩

end Sys2Proof.Machine
end

section
/-! Virtual IED instances (VIs): their commands, the ends of a reset and the accounting period (chapter 3). -/

namespace Sys2Proof.Machine

/-! ### What reads of a VI see -/

/-- What is only of the host interface leaves the VIs. -/
theorem Run.OnlyHost.inst {a b : Run} (h : a.OnlyHost b) (n : Nat) : b.inst n = a.inst n := by
  unfold Run.OnlyHost at h
  rw [h]
  rfl

/-- A completion, whatever its reply, leaves the VIs. -/
@[simp] theorem Run.finish_inst (r : Run) (fn : Nat) (cseq : Word) (rep : Reply) (n : Nat) :
    (r.finish fn cseq rep).inst n = r.inst n :=
  (Run.onlyHost_finish r fn cseq rep).inst n

/-- A VI that the device has, after an update of it. -/
theorem Run.inst_modInst_self (r : Run) {n : Nat} (f : InstState → InstState) (hn : n < r.insts.length) :
    (r.modInst n f).inst n = f (r.inst n) :=
  getD_modAt_self r.insts n f {} hn

/-- What an update of one VI does not touch of it, it does not touch of any. -/
theorem Run.modInst_keeps {α : Type} (r : Run) (n m : Nat) {f : InstState → InstState} {get : InstState → α}
    (hf : ∀ i, get (f i) = get i) : get ((r.modInst n f).inst m) = get (r.inst m) := by
  by_cases hm : n = m
  · subst hm
    by_cases hn : n < r.insts.length
    · rw [Run.inst_modInst_self r f hn, hf]
    · simp only [Run.inst, Run.modInst_insts, List.getD_eq_getElem?_getD, getElem?_modAt,
        List.getElem?_eq_none (Nat.not_lt.mp hn), Option.map_none, ite_self]
  · exact congrArg get (getD_modAt_ne r.insts n m f {} hm)

/-! ### The form of a VI's command -/

/-- A command on a VI whose state allows it (R102). -/
theorem onInst_allowed {a : Accepted} {run : Run} {n : Nat} {ok : InstPhase → Bool} (f : Nat → Run × Answer)
    (ht : a.target = some n) (hok : ok (run.inst n).phase = true) : onInst a run ok f = f n := by
  simp only [onInst, onTarget, ht, if_pos hok]

/-! ### Shares (R111, R113) -/

/-- The resource and the share are ones that the tables have. -/
theorem shareOperands_inRange {resource share : Nat} (hres : resource ≤ 2) (hsh : share ≤ 1024) :
    ¬ (2 < resource ∨ 1024 < share) := by
  omega

/-- INST_SET_SHARE within R111 changes the shares granted. -/
theorem exec_instSetShare (s : State) {c : Cmd} {a : Accepted} {n resource share : Nat}
    (h : s.Ready { op := 0x0206, pf0 := true } c a) (ht : a.target = some n) (hp : (s.run.inst n).phase ≠ .free)
    (hres : resource ≤ 2) (hsh : share ≤ 1024) (hfit : s.run.sharesFit n ((s.run.inst n).granted.put resource share) = true) :
    exec (.instSetShare c resource share) s =
      .next (s.done c (s.run.modInst n fun i => { i with granted := (s.run.inst n).granted.put resource share }) {}) := by
  change execInstSetShare c resource share s = _
  refine runCmd_done _ c s _ a _ {} h ?_ (.inl rfl)
  refine (onInst_allowed _ ht ?_).trans ?_
  · exact bne_iff_ne.mpr hp
  · simp only [if_neg (shareOperands_inRange hres hsh), hfit, Bool.not_true, Bool.false_eq_true, if_false, Answer.ok]

/-- INST_SET_SHARE that would break R111 changes nothing. -/
theorem exec_instSetShare_shareSum (s : State) {c : Cmd} {a : Accepted} {n resource share : Nat}
    (h : s.Ready { op := 0x0206, pf0 := true } c a) (ht : a.target = some n) (hp : (s.run.inst n).phase ≠ .free)
    (hres : resource ≤ 2) (hsh : share ≤ 1024) (hfit : s.run.sharesFit n ((s.run.inst n).granted.put resource share) = false) :
    exec (.instSetShare c resource share) s = .next (s.done c s.run { status := .shareSum }) := by
  change execInstSetShare c resource share s = _
  refine runCmd_done _ c s _ a _ { status := .shareSum } h ?_ (.inl rfl)
  refine (onInst_allowed _ ht ?_).trans ?_
  · exact bne_iff_ne.mpr hp
  · simp only [if_neg (shareOperands_inRange hres hsh), hfit, Bool.not_false, if_true, Answer.status]

/-! ### The accounting period (R108, R113, R314) -/

/-- A node that enters its ready queue takes a place of its VI's in-flight quota, and changes no VI otherwise. -/
theorem Run.enqueueNode_insts (r : Run) (f : Flight) :
    (r.enqueueNode f).insts = modAt r.insts f.inst fun i => { i with inFlight := i.inFlight + 1 } := rfl

theorem Run.enqueueNode_inEffect (r : Run) (f : Flight) (n : Nat) : ((r.enqueueNode f).inst n).inEffect = (r.inst n).inEffect := by
  rw [Run.inst, Run.enqueueNode_insts]
  exact Run.modInst_keeps r f.inst n (get := InstState.inEffect) fun _ => rfl

/-- Nodes that enter their queues leave the shares in effect. -/
theorem Run.admitPending_inEffect (fuel : Nat) (r : Run) (n : Nat) :
    ((Run.admitPending fuel r).inst n).inEffect = (r.inst n).inEffect := by
  induction fuel generalizing r with
  | zero => rfl
  | succ fuel ih =>
    rw [Run.admitPending]
    split
    · rfl
    · rw [ih, Run.enqueueNode_inEffect]

/-- An update of all entries reaches the one read, where it keeps the default. -/
theorem getD_map {α β : Type} (l : List α) (f : α → β) (d : α) (n : Nat) : (l.map f).getD n (f d) = f (l.getD n d) := by
  rw [List.getD_eq_getElem?_getD, List.getD_eq_getElem?_getD, List.getElem?_map, Option.getD_map]

/-- At a period boundary the shares granted come into effect, whatever nodes they give room to (R113). -/
theorem Run.newPeriod_inEffect (r : Run) (n : Nat) : (r.newPeriod.inst n).inEffect = (r.inst n).granted := by
  rw [Run.newPeriod, Run.admitPending_inEffect]
  exact congrArg InstState.inEffect (getD_map r.insts _ {} n)

theorem exec_accountingPeriod (s : State) (dt : Nat) (h : s.Running) (hp : (s.run.pass dt).passed 1000000 0 = true) :
    exec (.accountingPeriod dt) s = .next (s.ran (s.run.pass dt).newPeriod) := by
  change execAccountingPeriod dt s = _
  rw [execAccountingPeriod, whenRunning_running s _ h]
  simp only [if_pos hp]

/-- Settles O54: INST_SET_SHARE by whether the shares fit R111, then the boundary. -/
theorem sharesTakeEffectAtThePeriodBoundary : Obligations.SharesTakeEffectAtThePeriodBoundary := by
  refine ⟨?granted, fun s _ _ _ _ _ => exec_instSetShare_shareSum s, ?boundary⟩
  case granted =>
    intro s c a n resource share h ht hp hres hsh hn hfit
    refine ⟨_, exec_instSetShare s h ht hp hres hsh hfit, ?_, ?_⟩
    · rw [State.done_run, Run.finish_inst, Run.inst_modInst_self _ _ hn]
    · rw [State.done_run, Run.finish_inst, Run.inst_modInst_self _ _ hn]
  case boundary =>
    intro s n dt h hp
    exact ⟨_, exec_accountingPeriod s dt h hp, (s.run.pass dt).newPeriod_inEffect n⟩

/-! ### Stop, reset and their end (R116, R120) -/

theorem exec_instStop (s : State) {c : Cmd} {a : Accepted} {n : Nat} (h : s.Ready { op := 0x0204, pf0 := false } c a)
    (ht : a.target = some n) (hp : (s.run.inst n).phase = .active) :
    exec (.instStop c) s = .next (s.waits c (s.run.resetInst c n true).1) := by
  change execInstStop c s = _
  exact runCmd_wait _ c s _ a _ h (onInst_allowed _ ht (beq_iff_eq.mpr hp))

theorem exec_instReset (s : State) {c : Cmd} {a : Accepted} {n : Nat} (warm : Bool)
    (h : s.Ready { op := 0x0205, pf0 := true } c a) (ht : a.target = some n)
    (hp : (s.run.inst n).phase = .ready ∨ (s.run.inst n).phase = .active ∨ (s.run.inst n).phase = .shed) :
    exec (.instReset c warm) s = .next (s.waits c (s.run.resetInst c n warm).1) := by
  change execInstReset c warm s = _
  refine runCmd_wait _ c s _ a _ h (onInst_allowed _ ht ?_)
  obtain hp | hp | hp := hp <;> rw [hp] <;> rfl

/-- A reset ends only where no work of the old GEN remains; its command completes where it still waits. -/
theorem exec_instResetDone (s : State) {n : Nat} (dt : Nat) (h : s.Running) (hp : (s.run.inst n).phase = .resetting)
    (hq : s.run.instQuiet n = true) :
    exec (.instResetDone n dt) s =
      .next (s.ran (match (s.run.inst n).reset with
        | some w => (((s.run.pass dt).resetEnds n w).instState n .ready).finish w.fn w.cseq {}
        | none => (s.run.pass dt).instState n .ready)) := by
  have hends : ((s.run.pass dt).inst n).phase = .resetting ∧ (s.run.pass dt).instQuiet n = true := ⟨hp, hq⟩
  change execInstResetDone n dt s = _
  rw [execInstResetDone, whenRunning_running s _ h]
  simp only [if_pos hends]
  rfl

/-- Settles O16, row by row. -/
theorem instanceResetRowsComplete : Obligations.InstanceResetRowsComplete :=
  ⟨fun s _ _ _ => exec_instStop s, fun s _ _ _ warm => exec_instReset s warm, fun s _ dt => exec_instResetDone s dt,
    exec_accountingPeriod⟩

/-! ### INST_RESUME where protection may not run (R115, R561)

O15 asks INST_RESUME for a VI that is SHED and for an admission that passes, and nothing of the life-cycle state; the row also
refuses what INST_START refuses. -/

/-- Where no VI may start, none resumes, whatever admission would say. -/
theorem exec_instResume_startRefused (s : State) {c : Cmd} {a : Accepted} {n : Nat} (h : s.Ready { op := 0x0208, pf0 := true } c a)
    (ht : a.target = some n) (hp : (s.run.inst n).phase = .shed) (hr : s.run.srm.startRefused = true) :
    exec (.instResume c) s = .next (s.done c s.run { status := .srmState }) := by
  change execInstResume c s = _
  refine runCmd_done _ c s _ a _ { status := .srmState } h ?_ (.inl rfl)
  refine (onInst_allowed _ ht ?_).trans ?_
  · exact beq_iff_eq.mpr hp
  · simp only [if_pos hr, Answer.status]

/-- PF0's INST_RESUME of VI_0 as it was accepted. -/
def resumeAsked : Accepted := { entry := { cseq := 1, opcode := 0x0208, inst := 0 }, target := some 0, gen := 0 }

/-- A device in service that is RETURNED (Table 17.1), with VI_0 SHED, nothing committed, and that command accepted. -/
def shedAndReturned : State where
  sys := { phase := .running, porstN := true, corePower := true }
  run := (({ ready := true, protection := true, srm := { fuses := [3, 3, 3, 0] } } : Run).modFn 0 fun f =>
    { f with cseqAccepted := 1, accepted := [resumeAsked] }).modInst 0 fun i => { i with phase := .shed }

theorem shedAndReturned_ready : shedAndReturned.Ready { op := 0x0208, pf0 := true } { fn := 0, cseq := 1 } resumeAsked := by
  decide +kernel

theorem shedAndReturned_phase : (shedAndReturned.run.inst 0).phase = .shed := rfl

theorem shedAndReturned_startRefused : shedAndReturned.run.srm.startRefused = true := by decide +kernel

/-- What admission finds with VI_0 counted as ACTIVE: it has no graph. -/
def shedAndReturnedAdmission : Admission := shedAndReturned.run.admission (some (0, (shedAndReturned.run.slcOf 0).graph))

theorem shedAndReturned_admitted : shedAndReturnedAdmission.refusals = [] := by decide +kernel

theorem shedAndReturned_activate_phase :
    (((shedAndReturned.run.storeBounds shedAndReturnedAdmission.bounds shedAndReturnedAdmission.needs).activate 0 true).inst 0).phase =
      .active := by
  decide +kernel

/-- Refutes O15, by its row INST_RESUME: in `shedAndReturned` the command completes with ST_SRM_STATE and VI_0 stays SHED, where the
statement has it ACTIVE. -/
theorem not_instanceCommandsComplete : ¬ Obligations.InstanceCommandsComplete := by
  unfold Obligations.InstanceCommandsComplete
  rintro ⟨-, -, -, -, -, -, -, hresume, -⟩
  have hstated := hresume shedAndReturned _ _ 0 shedAndReturned_ready rfl shedAndReturned_phase shedAndReturned_admitted
  have hrefused := exec_instResume_startRefused shedAndReturned shedAndReturned_ready rfl shedAndReturned_phase
    shedAndReturned_startRefused
  have hsame := Host.Outcome.next.inj (hrefused.symm.trans hstated)
  have hphase := congrArg (fun t : State => (t.run.inst 0).phase) hsame
  simp only [State.done_run, Run.finish_inst] at hphase
  exact absurd (shedAndReturned_phase.symm.trans (hphase.trans shedAndReturned_activate_phase)) (by decide)

end Sys2Proof.Machine
end

section
/-! Starts: cold, warm, of protection, and the timers of a trial image (R105, R633, R635, R641). -/

namespace Sys2Proof.Machine

/-! ### Cold and warm starts (R633) -/

/-- PORST_N rises, and neither SYSRST_N nor the thermal reset holds. -/
theorem exec_coldStart_porst (s : State) (k : StartIn) (dt : Nat) (hp : s.sys.phase = .reset) (hlow : s.sys.porstN = false)
    (hsys : s.sys.sysrstN = true) (hth : s.sys.thermal = false) :
    exec (.coldStart k dt) s =
      .next { s with sys := (coldStart s.sys (s.run.pass dt) k).1, run := (coldStart s.sys (s.run.pass dt) k).2 } := by
  have hasked : ¬ (s.sys.phase ≠ .reset ∧ s.sys.pwrfailAt.isNone = true ∧ s.sys.restartAsked = some true) := fun ⟨hup, _⟩ => hup hp
  change execColdStart k dt s = _
  rw [execColdStart, onBlock_next]
  simp only [if_neg hasked, hlow, hsys, hth, Bool.not_false, Bool.and_true, Bool.false_eq_true, if_false, if_true]

/-- The cold restart that DEV_RESTART asked for. -/
theorem exec_coldStart_asked (s : State) (k : StartIn) (dt : Nat) (hup : s.Up) (hpf : s.sys.pwrfailAt = none)
    (hr : s.sys.restartAsked = some true) :
    exec (.coldStart k dt) s =
      .next { s with sys := (coldStart s.sys (s.run.pass dt) k).1, run := (coldStart s.sys (s.run.pass dt) k).2 } := by
  have hasked : s.sys.phase ≠ .reset ∧ s.sys.pwrfailAt.isNone = true ∧ s.sys.restartAsked = some true :=
    ⟨hup, Option.isNone_iff_eq_none.mpr hpf, hr⟩
  change execColdStart k dt s = _
  rw [execColdStart, onBlock_next]
  simp only [if_pos hasked]

/-- SYSRST_N low is what holds the device in reset. -/
theorem Sys.warmDue_sysrst {sys : Sys} (hp : sys.phase = .reset) (hpor : sys.porstN = true) (hlow : sys.sysrstN = false)
    (hth : sys.thermal = false) (hst : sys.stuck = false) (hpf : sys.pwrfailReset = false) : sys.warmDue = true := by
  simp only [Sys.warmDue, hp, hpor, hlow, hth, hst, hpf, beq_self_eq_true, Bool.not_false, Bool.and_true, Bool.true_or]

/-- SYSRST_N rises. -/
theorem exec_warmStart_sysrst (s : State) (k : StartIn) (dt : Nat) (hp : s.sys.phase = .reset) (hdue : s.sys.warmDue = true) :
    let x := warmStart { s.sys with sysrstN := true } (s.run.pass dt) k
    exec (.warmStart k dt) s = .next { s with sys := x.1, run := x.2 } := by
  have hasked : ¬ (s.sys.phase ≠ .reset ∧ s.sys.pwrfailAt.isNone = true ∧ s.sys.restartAsked = some false) := fun ⟨hup, _⟩ => hup hp
  change execWarmStart k dt s = _
  rw [execWarmStart, onBlock_next]
  simp only [if_neg hasked, if_pos hdue]

/-- The warm restart that DEV_RESTART asked for: the memory goes into self-refresh first (R634). -/
theorem exec_warmStart_asked (s : State) (k : StartIn) (dt : Nat) (hup : s.Up) (hpf : s.sys.pwrfailAt = none)
    (hr : s.sys.restartAsked = some false) :
    let x := warmStart { s.sys with selfRefresh := true } (s.run.pass dt) k
    exec (.warmStart k dt) s = .next { s with sys := x.1, run := x.2 } := by
  have hasked : s.sys.phase ≠ .reset ∧ s.sys.pwrfailAt.isNone = true ∧ s.sys.restartAsked = some false :=
    ⟨hup, Option.isNone_iff_eq_none.mpr hpf, hr⟩
  change execWarmStart k dt s = _
  rw [execWarmStart, onBlock_next]
  simp only [if_pos hasked]

/-! ### The start of protection (R105) and the timers of a trial image (R641) -/

theorem exec_protectionStart (s : State) (dt : Nat) (hp : s.sys.phase = .ready) (hm : s.run.srm.mayRun = true) :
    let x := startProtection s.sys (s.run.pass dt)
    exec (.protectionStart dt) s = .next { s with sys := x.1, run := x.2 } := by
  change execProtectionStart dt s = _
  rw [execProtectionStart, onBlock_next]
  simp only [Run.pass_srm, hp, hm, and_self, if_true]

/-- A start on a trial image that is late restarts cold. -/
theorem exec_trialBootTimeout (s : State) (k : StartIn) (dt : Nat) (hp : s.sys.phase = .ready ∨ s.sys.stuck = true)
    (htr : s.sys.boot.trial = true) (hlate : s.sys.boot.startedAt + msTicks 1500 ≤ s.run.ticks + dt) :
    let x := coldStart s.sys (s.run.pass dt) k
    exec (.trialBootTimeout k dt) s = .next { s with sys := x.1, run := x.2 } := by
  change execTrialBootTimeout k dt s = _
  rw [execTrialBootTimeout, onBlock_next]
  simp only [Run.pass_ticks, hp, htr, hlate, and_self, if_true]

/-- A trial image that has stayed healthy for AUTO_CONFIRM becomes ACTIVE. -/
theorem exec_autoConfirmExpiry (s : State) (dt : Nat) (hp : s.sys.phase = .running) (htr : s.sys.boot.trial = true)
    (hh : s.run.flt.healthy = true) (hauto : s.sys.autoConfirm ≠ 0)
    (hlong : s.sys.healthySince + msTicks (1000 * s.sys.autoConfirm) ≤ s.run.ticks + dt) :
    let x := confirmTrial s.sys (s.run.pass dt)
    exec (.autoConfirmExpiry dt) s = .next { s with sys := x.1, run := x.2 } := by
  have hdue : s.sys.phase = .running ∧ s.sys.boot.trial = true ∧ (s.run.pass dt).flt.healthy = true ∧ s.sys.autoConfirm ≠ 0 ∧
      s.sys.healthySince + msTicks (1000 * s.sys.autoConfirm) ≤ (s.run.pass dt).ticks := ⟨hp, htr, hh, hauto, hlong⟩
  change execAutoConfirmExpiry dt s = _
  rw [execAutoConfirmExpiry, onBlock_next]
  simp only [if_pos hdue]

/-- Settles O45, row by row; a start by what brings it, a reset input or DEV_RESTART. -/
theorem startRowsComplete : Obligations.StartRowsComplete :=
  ⟨exec_coldStart_porst, exec_coldStart_asked,
    fun s k dt hp hpor hlow hth hst hpf => exec_warmStart_sysrst s k dt hp (Sys.warmDue_sysrst hp hpor hlow hth hst hpf),
    exec_warmStart_asked, exec_protectionStart, exec_trialBootTimeout, exec_autoConfirmExpiry⟩

end Sys2Proof.Machine
end

section
/-! The rows of the ports: frames, links, the fall of ENABLE, and the snapshots of the counters (chapter 4). -/

namespace Sys2Proof.Machine

/-! ### Frames at a port (R138 to R142, R146) -/

/-- Time that passes leaves the ports as they are. -/
@[simp] theorem Run.pass_port (r : Run) (dt n : Nat) : (r.pass dt).port n = r.port n := rfl

theorem exec_macFrameReceive (s : State) {n : Nat} (fid : Nat) (f : Frame) (v : RxVerdict) (dt : Nat) (h : s.Running)
    (he : (s.run.port n).enable = true) (hl : (s.run.port n).link = true) :
    exec (.macFrameReceive n fid f v dt) s = .next (s.ran ((s.run.pass dt).receive n fid f v)) := by
  change execMacFrameReceive n fid f v dt s = _
  rw [execMacFrameReceive, whenRunning_running s _ h]
  simp only [Run.pass_port, he, hl, Bool.and_self, if_true]

/-- A frame is in transmission: it meets a bad cell, or underruns, or goes on. -/
theorem exec_macFrameTransmit_sending (s : State) {n q : Nat} {x : Queued} (t : TxStep) (dt : Nat) {r : Run} (h : s.Running)
    (hr : ((s.run.pass dt).settlePort n).takeCells t.present = r) (hl : (r.port n).link = true) (he : (r.port n).enable = true)
    (hs : (r.port n).sending = some (q, x)) :
    exec (.macFrameTransmit n t dt) s =
      .next (s.ran (match t.eccCell with
        | some cell => Run.eccDrop Run.cellFault r x.fid cell
        | none => if t.underrun then r.underrun n q x else r)) := by
  change execMacFrameTransmit n t dt s = _
  rw [execMacFrameTransmit, whenRunning_running s _ h]
  cases t.eccCell <;>
    simp only [hr, hl, he, hs, Bool.and_self, Bool.not_true, Bool.false_eq_true, if_false]

/-- None is in transmission: once the heads that are too long are dropped, the queue picked is served. -/
theorem exec_macFrameTransmit_idle (s : State) {n q : Nat} (t : TxStep) (dt : Nat) {r r' : Run} (h : s.Running)
    (hr : ((s.run.pass dt).settlePort n).takeCells t.present = r)
    (hr' : (List.range 8).foldl (fun (r : Run) (q : Nat) => r.dropLong ((r.port n).queue q).length n q) r = r')
    (hl : (r.port n).link = true) (he : (r.port n).enable = true) (hs : (r.port n).sending = none)
    (hq : r'.pickQueue n t.present = some q) :
    exec (.macFrameTransmit n t dt) s = .next (s.ran (Run.serve Run.cellFault r' n q t)) := by
  change execMacFrameTransmit n t dt s = _
  rw [execMacFrameTransmit, whenRunning_running s _ h]
  simp only [hr, hl, he, hs, hr', hq, Bool.and_self, Bool.not_true, Bool.false_eq_true, if_false]

/-! ### Links and the enable of a port (R131, R132, R136, R150 to R152) -/

theorem exec_linkDown (s : State) {n : Nat} (rx : Option (Nat × Frame)) (dt : Nat) (h : s.Running)
    (hl : (s.run.port n).link = true) :
    exec (.linkDown n rx dt) s =
      .next (s.ran (((((s.run.pass dt).endReception n rx).dropIncoming n).linkDown n).raisePair (n / 2) 1)) := by
  change execLinkDown n rx dt s = _
  rw [execLinkDown, whenRunning_running s _ h]
  simp only [Run.pass_port, hl, if_true]

/-- The speed of a link that comes up: MODE's own where it has one, else the one that the partner reports (R131). -/
def speedUp (mode speed : Nat) : Nat :=
  match mode with
  | 1 => 2
  | 3 => 5
  | 4 => 6
  | _ => speed

/-- R132 refuses no listed speed in full duplex, nor one in a mode whose partner reports no duplex. -/
theorem speedRefused_eq_false {mode speed : Nat} {half : Bool} (hs : (speedsOf mode).contains speed = true)
    (hd : half = false ∨ mode = 3 ∨ mode = 4) : speedRefused mode speed (half && mode != 3 && mode != 4) = false := by
  have hfull : (half && mode != 3 && mode != 4) = false := by
    obtain rfl | rfl | rfl := hd
    · rfl
    · rw [bne_self_eq_false, Bool.and_false, Bool.false_and]
    · rw [bne_self_eq_false, Bool.and_false]
  rw [speedRefused, hfull, hs]
  rfl

/-- A port that exists and is enabled, and that no fault holds, takes a link that R132 does not refuse; a hold that is over by then
expires first. -/
theorem exec_linkUp (s : State) {n speed : Nat} {half : Bool} (dt : Nat) {r : Run} (h : s.Running) (hn : n < 64)
    (hr : (if (s.run.pass dt).holdOver n then (s.run.pass dt).holdExpires n else s.run.pass dt) = r)
    (he : (r.port n).enable = true) (hl : (r.port n).link = false) (hh : r.portHeld n = false)
    (hs : (speedsOf (r.port n).mode).contains (speedUp (r.port n).mode speed) = true)
    (hd : half = false ∨ (r.port n).mode = 3 ∨ (r.port n).mode = 4) :
    exec (.linkUp n speed half dt) s =
      .next (s.ran ((((r.settlePort n).modPort n fun p =>
        { p with link := true, speed := speedUp (r.port n).mode speed, speedUnsup := false, pcsSync := true,
                 fecLock := decide (p.fec ≠ 0), holding := false, cur := p.base }).raisePortLink n).raisePair (n / 2) 1)) := by
  have hnot : ¬ 64 ≤ n := Nat.not_le.mpr hn
  have htaken := ne_true_of_eq_false (speedRefused_eq_false hs hd)
  change execLinkUp n speed half dt s = _
  rw [execLinkUp, whenRunning_running s _ h]
  simp only [hr, hnot, he, hl, hh, decide_false, Bool.not_true, Bool.or_self, Bool.false_eq_true, if_false]
  exact congrArg (fun r => Host.Outcome.next (s.ran r)) (if_neg htaken)

/-- The hold of a port whose link is still down is over once its time has passed (R151). -/
theorem Run.holdOver_eq_true {r : Run} {n : Nat} (hh : (r.port n).holding = true) (hl : (r.port n).link = false)
    (hlate : ((r.port n).holdSince + usTicks (100 * (r.port n).hold)) * 400 / islandPeriod n ≤ r.cyclesOf n) :
    r.holdOver n = true := by
  simp only [Run.holdOver, hh, hl, hlate, Bool.not_false, decide_true, Bool.and_self]

theorem exec_linkHoldExpiry (s : State) {n dt : Nat} (h : s.Running) (ho : (s.run.pass dt).holdOver n = true) :
    exec (.linkHoldExpiry n dt) s = .next (s.ran ((s.run.pass dt).holdExpires n)) := by
  change execLinkHoldExpiry n dt s = _
  rw [execLinkHoldExpiry, whenRunning_running s _ h]
  simp only [ho, if_true]

theorem exec_portEnableFall (s : State) {n : Nat} (dt : Nat) (h : s.Running) (he : (s.run.port n).enable = true) :
    exec (.portEnableFall n dt) s = .next (s.ran ((s.run.pass dt).portDisable n)) := by
  change execPortEnableFall n dt s = _
  rw [execPortEnableFall, whenRunning_running s _ h]
  simp only [Run.pass_port, he, if_true]

/-- Settles O17, row by row; a transmission by whether a frame is being sent. -/
theorem portRowsComplete : Obligations.PortRowsComplete :=
  ⟨fun s _ fid f v dt => exec_macFrameReceive s fid f v dt, fun s _ _ t dt h => exec_macFrameTransmit_idle s t dt h rfl rfl,
    fun s _ _ _ t dt h => exec_macFrameTransmit_sending s t dt h rfl, fun s _ rx dt => exec_linkDown s rx dt,
    fun s _ _ _ dt h hn => exec_linkUp s dt h hn rfl,
    fun s _ _ h hh hl hlate => exec_linkHoldExpiry s h (Run.holdOver_eq_true hh hl hlate),
    fun s _ dt => exec_portEnableFall s dt⟩

/-! ### Snapshots and the thresholds of a mask (R145, R155 to R159) -/

/-- At T every port copies its counters, BUSY falls, and the commands that wait for the snapshot complete. -/
theorem exec_snapshotLatch (s : State) {dt : Nat} {t : Instant} (h : s.Up) (ht : s.run.sw.snapAt = some t)
    (hdue : t ≤ (s.run.pass dt).now) :
    exec (.snapshotLatch dt) s =
      .next (s.ran (s.run.sw.snapWait.foldl (fun (r : Run) (w : Nat × Word × List Nat) => r.finish w.1 w.2.1 (r.snapReply w.2.2))
        (((s.run.pass dt).mapPorts fun p => { p with snap := p.stat }).modSw fun w =>
          { w with snapAt := none, snapT := t, snapWait := [] }))) := by
  have hnot : ¬ (s.run.pass dt).now < t := Nat.not_lt.mpr hdue
  change execSnapshotLatch dt s = _
  rw [execSnapshotLatch, whenUp_up s _ h]
  simp only [Run.pass_sw, ht, if_neg hnot]

/-- No snapshot is under way and the buffer holds the reply: the command waits for the latch. -/
theorem exec_portSnapshot (s : State) {c : Cmd} {a : Accepted} {mask : Nat} (h : s.Ready { op := 0x0300, pf0 := true } c a)
    (hidle : s.run.sw.snapAt = none) (hlen : 16 + 256 * (bitsOf 64 mask).length ≤ a.entry.bufLen) (hbuf : c.bufErr = false) :
    exec (.portSnapshot c mask) s =
      .next (s.waits c (s.run.takeSnap.modSw fun w => { w with snapWait := w.snapWait ++ [(c.fn, c.cseq, bitsOf 64 mask)] })) := by
  have hnot : ¬ a.entry.bufLen < 16 + 256 * (bitsOf 64 mask).length := Nat.not_lt.mpr hlen
  change execPortSnapshot c mask s = _
  refine runCmd_wait _ c s _ a _ h ?_
  simp only [hidle, hnot, hbuf, Option.isSome_none, Bool.false_eq_true, or_self, if_false]

theorem exec_portThreshRestore (s : State) {c : Cmd} {a : Accepted} (mask : Nat) (h : s.Ready { op := 0x0301, pf0 := true } c a) :
    exec (.portThreshRestore c mask) s =
      .next (s.done c ((bitsOf 64 mask).foldl (fun (r : Run) (n : Nat) => r.modPort n fun p => { p with cur := p.base }) s.run) {}) := by
  change execPortThreshRestore c mask s = _
  exact runCmd_done _ c s _ a _ {} h rfl (.inl rfl)

/-- Settles O18, row by row. -/
theorem snapshotRowsComplete : Obligations.SnapshotRowsComplete :=
  ⟨fun s _ _ => exec_snapshotLatch s, fun s _ _ _ => exec_portSnapshot s, fun s _ _ mask => exec_portThreshRestore s mask⟩

/-- While BUSY is 1 a write of TAKE changes nothing, in reset or out of it. -/
theorem exec_snapTake_busy (s : State) {t : Instant} (ht : s.run.sw.snapAt = some t) : exec .snapTake s = .next s := by
  change execSnapTake s = _
  rw [execSnapTake, whenUp]
  simp only [ht, Option.isSome_some, if_true, ite_self]

/-- Settles O55, by whether BUSY is set. -/
theorem snapshotTakeFixesItsInstant : Obligations.SnapshotTakeFixesItsInstant :=
  ⟨fun s h hidle => ⟨_, exec_snapTake s h hidle, rfl⟩, fun s _ => exec_snapTake_busy s⟩

end Sys2Proof.Machine
end

section
/-! The rows of the switch: forwarding, ageing, the census, supervision, and the switch commands (chapter 5). -/

namespace Sys2Proof.Machine

/-! ### Forwarding and ageing (R164, R169, R189) -/

theorem exec_frameForward_external (s : State) {inp : Nat} (fid : Nat) (f : Frame) (dt : Nat) (h : s.Running) (hext : inp < 64) :
    exec (.frameForward inp fid f dt) s = .next (s.ran ((s.run.pass dt).forwardExternal inp fid f)) := by
  change execFrameForward inp fid f dt s = _
  rw [execFrameForward, whenRunning_running s _ h]
  simp only [if_pos hext]

theorem exec_frameForward_internal (s : State) {inp : Nat} (fid : Nat) (f : Frame) (dt : Nat) (h : s.Running) (hint : 64 ≤ inp)
    (hlast : inp ≤ 67) : exec (.frameForward inp fid f dt) s = .next (s.ran ((s.run.pass dt).forwardInternal inp fid)) := by
  change execFrameForward inp fid f dt s = _
  rw [execFrameForward, whenRunning_running s _ h]
  simp only [if_neg (Nat.not_lt.mpr hint), if_pos hlast]

theorem exec_fdbEntryAge (s : State) {mac vid dt : Nat} {e : FdbEntry} (h : s.Running)
    (hfind : s.run.sw.fdb.find? (fun e => e.mac == mac && e.vid == vid) = some e)
    (hold : s.run.sw.live (s.run.pass dt).now e = false) :
    exec (.fdbEntryAge mac vid dt) s = .next (s.ran ((s.run.pass dt).modSw fun w => { w with fdb := w.fdbDrop mac vid })) := by
  change execFdbEntryAge mac vid dt s = _
  rw [execFdbEntryAge, whenRunning_running s _ h]
  simp only [Run.pass_sw, hfind, hold, Bool.false_eq_true, if_false]

theorem exec_nodeEntryForget (s : State) (pair mac dt : Nat) (h : s.Running) :
    exec (.nodeEntryForget pair mac dt) s =
      .next (s.ran ((s.run.pass dt).modSw fun w => { w with nodes := w.nodes.filter fun n =>
        !(n.pair == pair && n.mac == mac && decide (n.refreshed + w.nodeForget * 1000000000 ≤ (s.run.pass dt).now)) })) := by
  change execNodeEntryForget pair mac dt s = _
  rw [execNodeEntryForget, whenRunning_running s _ h]

/-! ### The census (R179) -/

/-- The free list as the next census finds it, when an undetected error has changed it by `skew`. -/
def Switch.skewed (w : Switch) (skew : Int) : Switch := { w with free := ((w.free : Int) + skew).toNat }

/-- No walk runs: the census notes its sum, and a wrong one starts a walk. -/
theorem Run.census_idle (r : Run) (skew : Int) (hidle : r.sw.walking = false) :
    r.census skew = r.modSw fun w =>
      { w.skewed skew with
        censusSum := (r.sw.skewed skew).cellSum, walking := decide ((r.sw.skewed skew).cellSum ≠ r.censusTotal) } :=
  if_neg (ne_true_of_eq_false hidle)

/-- A census that falls in a walk is skipped. -/
theorem Run.census_walking (r : Run) (skew : Int) (hwalk : r.sw.walking = true) :
    r.census skew = r.modSw fun w => { w.skewed skew with skipped := (w.skipped + 1) % 65536 } :=
  if_pos hwalk

/-- Once per 100 ms the row notes the instant and takes the census. -/
theorem exec_cisternCensus (s : State) (skew : Int) {dt : Nat} (h : s.Running)
    (hdue : (s.run.pass dt).now / 100000000 ≠ s.run.sw.censusAt) :
    exec (.cisternCensus skew dt) s =
      .next (s.ran (((s.run.pass dt).modSw fun w => { w with censusAt := (s.run.pass dt).now / 100000000 }).census skew)) := by
  change execCisternCensus skew dt s = _
  rw [execCisternCensus, whenRunning_running s _ h]
  exact congrArg (fun r => Host.Outcome.next (s.ran r)) (if_neg hdue)

theorem exec_cisternCensus_idle (s : State) (skew : Int) {dt : Nat} (h : s.Running) (hidle : s.run.sw.walking = false)
    (hdue : (s.run.pass dt).now / 100000000 ≠ s.run.sw.censusAt) :
    let sum := (s.run.sw.skewed skew).cellSum
    exec (.cisternCensus skew dt) s =
      .next (s.ran ((s.run.pass dt).modSw fun w => { w.skewed skew with
        censusAt := (s.run.pass dt).now / 100000000, censusSum := sum, walking := decide (sum ≠ s.run.censusTotal) })) := by
  intro sum
  rw [exec_cisternCensus s skew h hdue, Run.census_idle]
  · rfl
  · exact hidle

theorem exec_cisternCensus_walking (s : State) (skew : Int) {dt : Nat} (h : s.Running) (hwalk : s.run.sw.walking = true)
    (hdue : (s.run.pass dt).now / 100000000 ≠ s.run.sw.censusAt) :
    exec (.cisternCensus skew dt) s =
      .next (s.ran ((s.run.pass dt).modSw fun w => { w.skewed skew with
        censusAt := (s.run.pass dt).now / 100000000, skipped := (w.skipped + 1) % 65536 })) := by
  rw [exec_cisternCensus s skew h hdue, Run.census_walking]
  · rfl
  · exact hwalk

/-- The walk ends: the free list is put right, what it found is reported, and the commands that wait for it complete. -/
theorem exec_cisternWalkDone (s : State) (orphans : Nat) (doubles : List (Nat × Nat)) (dt : Nat) (h : s.Running)
    (hwalk : s.run.sw.walking = true) :
    let r := (s.run.pass dt).modSw fun w =>
      { w with walking := false, walkWait := [], reclaimed := (w.reclaimed + orphans) % 2 ^ 64, free := w.free + orphans - doubles.length }
    let r' := if orphans = 0 then r
      else r.raise { ev := .cisternLeak, source := 128, data := [((orphans % 2 ^ 32 : Nat) : Int), s.run.sw.censusSum] }
    exec (.cisternWalkDone orphans doubles dt) s =
      .next (s.ran (s.run.sw.walkWait.foldl (fun (r : Run) (w : Nat × Word) =>
          r.finish w.1 w.2 { result := [(s.run.sw.censusSum : Int), orphans, r.sw.double] })
        (doubles.foldl (fun (r : Run) (e : Nat × Nat) =>
          ((r.modSw fun w => { w with double := (w.double + 1) % 65536 }).raise
            { ev := .cisternDouble, source := 129, data := [(e.1 : Int), e.2] }).islandOther 16) r'))) := by
  intro r r'
  change execCisternWalkDone orphans doubles dt s = _
  rw [execCisternWalkDone, whenRunning_running s _ h]
  simp only [Run.pass_sw, hwalk, Bool.not_true, Bool.false_eq_true, if_false]
  rfl

/-! ### Supervision (R190 to R192) -/

theorem exec_supervisionSend (s : State) {pair dt : Nat} (h : s.Running) (hmode : s.run.sw.mode pair ≠ 0)
    (hdue : ∀ t, tabGet s.run.sw.supSentAt pair = some t → t + s.run.sw.lifeCheck * 1000000 ≤ (s.run.pass dt).now) :
    let r := ((s.run.pass dt).sendSupervision pair Config.deviceMac).modSw fun w =>
      { w with supSentAt := tabSet w.supSentAt pair (s.run.pass dt).now }
    exec (.supervisionSend pair dt) s =
      .next (s.ran (if s.run.sw.mode pair = 2 ∨ s.run.sw.mode pair = 4 ∨ s.run.sw.mode pair = 5 then
        (r.sw.proxies.filter fun x => x.pair == pair).foldl (fun (r : Run) (x : Proxy) =>
          r.sendSupervision pair x.mac (some Config.deviceMac)) r else r)) := by
  intro r
  change execSupervisionSend pair dt s = _
  rw [execSupervisionSend, whenRunning_running s _ h]
  refine congrArg (fun r => Host.Outcome.next (s.ran r)) (if_neg ?_)
  rintro (hoff | hearly)
  · exact hmode hoff
  · cases hsent : tabGet s.run.sw.supSentAt pair with
    | none => simp [hsent] at hearly
    | some t => simp [hsent, hdue t hsent] at hearly

/-- Side `b` has been silent for 3 × LIFE_CHECK while the other side hears the node. -/
theorem exec_supervisionSilence (s : State) {pair mac dt : Nat} {b : Bool} {n : Node} {t : Instant} (h : s.Running)
    (hnode : s.run.sw.node pair mac = some n)
    (hsilent : (if b then n.supB else n.supA).getD n.since + 3 * s.run.sw.lifeCheck * 1000000 ≤ (s.run.pass dt).now)
    (hthere : (if b then n.supA else n.supB) = some t) (hheard : (s.run.pass dt).now < t + 3 * s.run.sw.lifeCheck * 1000000) :
    exec (.supervisionSilence pair mac b dt) s = .next (s.ran ((s.run.pass dt).raisePair pair 2 [(mac : Int)])) := by
  change execSupervisionSilence pair mac b dt s = _
  rw [execSupervisionSilence, whenRunning_running s _ h]
  simp only [Run.pass_sw, hnode, hsilent, hthere, hheard, decide_true, Bool.and_self, if_true]

/-- Settles O19, row by row; a frame by its port, a census by whether a walk runs. -/
theorem switchEventsComplete : Obligations.SwitchEventsComplete :=
  ⟨fun s _ => exec_frameForward_external s, fun s _ => exec_frameForward_internal s, fun s _ _ _ _ => exec_fdbEntryAge s,
    exec_nodeEntryForget, fun s skew _ => exec_cisternCensus_idle s skew, fun s skew _ => exec_cisternCensus_walking s skew,
    exec_cisternWalkDone, fun s _ _ => exec_supervisionSend s, fun s _ _ _ _ _ _ => exec_supervisionSilence s⟩

/-! ### VLANs (R163, R168) -/

theorem exec_swVlanSet (s : State) {c : Cmd} {a : Accepted} {vid : Nat} (members untagged : Nat)
    (h : s.Ready { op := 0x0302, pf0 := true } c a) (hvid : vidOk vid = true) :
    exec (.swVlanSet c vid members untagged) s =
      .next (s.done c (s.run.modSw fun w =>
        { w with vlans := tabSet w.vlans vid { members := bitsOf 68 members, untagged := bitsOf 68 untagged } }) {}) := by
  change execSwVlanSet c vid members untagged s = _
  refine runCmd_done _ c s _ a _ {} h ?_ (.inl rfl)
  simp only [hvid, Bool.not_true, Bool.false_eq_true, if_false, Answer.ok]

theorem exec_swHostVlan (s : State) {c : Cmd} {a : Accepted} {m maxPcp defVid : Nat} {vids : List Nat}
    (h : s.Ready { op := 0x0307, pf0 := true, buf := true, need := some (2 * vids.length) } c a) (hm : m ≤ 32) (hpcp : maxPcp ≤ 7)
    (hdef : vidOk defVid = true) (hlen : vids.length ≤ 64) (hvids : vids.all vidOk = true) :
    exec (.swHostVlan c m maxPcp defVid vids) s =
      .next (s.done c (s.run.modSw fun w =>
        { w with hostVlans := tabSet w.hostVlans m { maxPcp := maxPcp, defVid := defVid, vids := vids } }) {}) := by
  have hm' : ¬ 33 ≤ m := by omega
  have hpcp' : ¬ 8 ≤ maxPcp := by omega
  have hlen' : ¬ 64 < vids.length := Nat.not_lt.mpr hlen
  change execSwHostVlan c m maxPcp defVid vids s = _
  refine runCmd_done _ c s _ a _ {} h ?_ (.inl rfl)
  simp only [hm', hpcp', hdef, hlen', hvids, Bool.not_true, Bool.false_eq_true, or_self, if_false, Answer.ok]

/-! ### The forwarding database (R163, R194) -/

/-- The entry of an address and a VID as SW_FDB_ADD makes it at `now`. -/
def staticEntry (now : Instant) (mac vid ports fns : Nat) : FdbEntry :=
  { mac := mac, vid := vid, static := true, ports := bitsOf 68 ports, fns := bitsOf 33 fns, refreshed := now }

/-- The address has its entry already, or its bucket has room. -/
theorem exec_swFdbAdd_room (s : State) {c : Cmd} {a : Accepted} {mac vid : Nat} (ports fns : Nat)
    (h : s.Ready { op := 0x0303, pf0 := true } c a) (hvid : vidOk vid = true)
    (hroom : (s.run.sw.fdb.any fun x => x.mac == mac && x.vid == vid) = true ∨ (s.run.sw.bucket mac vid).length < 8) :
    exec (.swFdbAdd c mac vid ports fns) s =
      .next (s.done c (s.run.modSw fun w => { w with fdb := w.fdbDrop mac vid ++ [staticEntry s.run.now mac vid ports fns] }) {}) := by
  change execSwFdbAdd c mac vid ports fns s = _
  refine runCmd_done _ c s _ a _ {} h ?_ (.inl rfl)
  simp only [hvid, Bool.not_true, Bool.false_eq_true, if_false, if_pos hroom, Answer.ok, staticEntry]

/-- A full bucket gives up the learned entry that was refreshed least recently. -/
theorem exec_swFdbAdd_full (s : State) {c : Cmd} {a : Accepted} {mac vid : Nat} (ports fns : Nat) {old : FdbEntry}
    (h : s.Ready { op := 0x0303, pf0 := true } c a) (hvid : vidOk vid = true)
    (hnew : (s.run.sw.fdb.any fun x => x.mac == mac && x.vid == vid) = false) (hfull : 8 ≤ (s.run.sw.bucket mac vid).length)
    (hold : oldestLearned (s.run.sw.bucket mac vid) = some old) :
    exec (.swFdbAdd c mac vid ports fns) s =
      .next (s.done c (s.run.modSw fun w =>
        { w with fdb := w.fdbDrop old.mac old.vid ++ [staticEntry s.run.now mac vid ports fns] }) {}) := by
  change execSwFdbAdd c mac vid ports fns s = _
  refine runCmd_done _ c s _ a _ {} h ?_ (.inl rfl)
  simp only [hvid, hnew, Nat.not_lt.mpr hfull, hold, Bool.not_true, Bool.false_eq_true, or_self, if_false, Answer.ok, staticEntry]

theorem exec_swFdbDel (s : State) {c : Cmd} {a : Accepted} {mac vid : Nat} (h : s.Ready { op := 0x0304, pf0 := true } c a)
    (hlive : (s.run.sw.fdb.any fun x => x.mac == mac && x.vid == vid && s.run.sw.live s.run.now x) = true) :
    exec (.swFdbDel c mac vid) s = .next (s.done c (s.run.modSw fun w => { w with fdb := w.fdbDrop mac vid }) {}) := by
  change execSwFdbDel c mac vid s = _
  exact runCmd_done _ c s _ a _ {} h (if_pos hlive) (.inl rfl)

theorem exec_swFdbFlush (s : State) {c : Cmd} {a : Accepted} {vid : Nat} (static : Bool)
    (h : s.Ready { op := 0x0305, pf0 := true } c a) (hvid : vid < 4095) :
    let goes (e : FdbEntry) : Bool := (vid == 0 || e.vid == vid) && (static || !e.static)
    exec (.swFdbFlush c vid static) s =
      .next (s.done c (s.run.modSw fun w => { w with fdb := w.fdb.filter fun e => !goes e })
        { result := [((s.run.sw.fdb.filter goes).length : Int)] }) := by
  intro goes
  change execSwFdbFlush c vid static s = _
  exact runCmd_done _ c s _ a _ _ h (if_neg (Nat.not_le.mpr hvid)) (.inl rfl)

theorem exec_swFdbRead (s : State) {c : Cmd} {a : Accepted} (h : s.Ready { op := 0x0306, pf0 := true } c a) :
    let l := s.run.sw.fdb.filter (s.run.sw.live s.run.now)
    24 * l.length ≤ a.entry.bufLen → c.bufErr = false →
    exec (.swFdbRead c) s =
      .next (s.done c s.run { bufLen := 24 * l.length, buffer := l.flatMap fun e =>
        [(e.mac : Int), e.vid, maskOfSet e.ports, maskOfSet e.fns, ((s.run.now - e.refreshed) / 1000000000 : Nat)] }) := by
  intro l hlen hbuf
  change execSwFdbRead c s = _
  exact runQuery_done _ c s _ a _ h rfl (.inr ⟨hlen, hbuf⟩)

/-! ### Redundancy (R182, R194) -/

/-- The two ports of the pair agree, neither is a Tributary's, quad connection has its other half, and a locked MODE stays. -/
theorem exec_swRedSet (s : State) {c : Cmd} {a : Accepted} {j mode : Nat} (h : s.Ready { op := 0x0308, pf0 := true } c a)
    (hj : j < 32) (hmode : mode ≤ 5) (hlock : s.sys.locked = false ∨ mode = s.run.sw.mode j)
    (hspeed : (s.run.port (2 * j)).mode = (s.run.port (2 * j + 1)).mode)
    (hframe : (s.run.port (2 * j)).maxFrame = (s.run.port (2 * j + 1)).maxFrame) (hquad : mode = 5 → s.run.sw.mode (j ^^^ 1) = 5)
    (htrib : (s.run.sw.port (2 * j)).trib = false) (htrib' : (s.run.sw.port (2 * j + 1)).trib = false) :
    exec (.swRedSet c j mode) s = .next (s.done c (s.run.modSw fun w => w.setMode j mode) {}) := by
  have hin : ¬ (32 ≤ j ∨ 6 ≤ mode) := by omega
  have hfree : ¬ (s.sys.locked = true ∧ mode ≠ s.run.sw.mode j) := by
    rintro ⟨hl, hne⟩
    exact hlock.elim (ne_false_of_eq_true hl) hne
  have hpair : ¬ (mode = 5 ∧ s.run.sw.mode (j ^^^ 1) ≠ 5) := fun ⟨h5, hne⟩ => hne (hquad h5)
  change execSwRedSet c j mode s = _
  refine runCommand_done _ c s _ a s.sys _ {} h ?_ (.inl rfl)
  simp only [if_neg hin, if_neg hfree, hspeed, hframe, if_neg hpair, htrib, htrib', ne_eq, not_true_eq_false, Bool.or_self,
    Bool.false_eq_true, or_self, if_false, Answer.ok]

theorem exec_swNodeRead (s : State) {c : Cmd} {a : Accepted} {j : Nat} (h : s.Ready { op := 0x0309, pf0 := true } c a) (hj : j < 32) :
    let l := s.run.sw.nodes.filter fun n => n.pair == j
    32 * l.length ≤ a.entry.bufLen → c.bufErr = false →
    exec (.swNodeRead c j) s =
      .next (s.done c (s.run.takeFree 32).2 { bufLen := 32 * l.length, buffer := l.flatMap fun n =>
        [(n.mac : Int), n.newest, n.a.last, n.b.last, (s.run.takeFree 32).1.toNat, ((s.run.now - n.refreshed) / 1000000 : Nat)] }) := by
  intro l hlen hbuf
  change execSwNodeRead c j s = _
  exact runCmd_done _ c s _ a _ _ h (if_neg (Nat.not_le.mpr hj)) (.inr ⟨hlen, hbuf⟩)

/-! ### SW_CENSUS_NOW (R179, R194) -/

section CensusNow

variable (s : State) {c : Cmd} {a : Accepted} (skew : Int) (h : s.Ready { op := 0x030A, pf0 := true } c a)
  (hidle : s.run.sw.walking = false)

include h hidle

/-- No cell is lost or held twice: the command completes with the sum. -/
theorem exec_swCensusNow_right (hsum : (s.run.sw.skewed skew).cellSum = s.run.censusTotal) :
    exec (.swCensusNow c skew) s =
      .next (s.done c (s.run.modSw fun w =>
          { w.skewed skew with censusSum := (s.run.sw.skewed skew).cellSum, walking := false })
        { result := [((s.run.sw.skewed skew).cellSum : Int), 0, s.run.sw.double] }) := by
  change execSwCensusNow c skew s = _
  refine runCmd_done _ c s _ a _ _ h ?_ (.inl rfl)
  simp only [hidle, Run.census_idle _ _ hidle, hsum, Run.modSw_sw, ne_eq, not_true_eq_false, decide_false, Bool.false_eq_true, if_false]
  rfl

/-- The sum is wrong: a walk starts, and the command waits for its end. -/
theorem exec_swCensusNow_wrong (hsum : (s.run.sw.skewed skew).cellSum ≠ s.run.censusTotal) :
    exec (.swCensusNow c skew) s =
      .next (s.waits c (s.run.modSw fun w => { w.skewed skew with
        censusSum := (s.run.sw.skewed skew).cellSum, walking := true, walkWait := w.walkWait ++ [(c.fn, c.cseq)] })) := by
  change execSwCensusNow c skew s = _
  refine runCmd_wait _ c s _ a _ h ?_
  simp only [hidle, Run.census_idle _ _ hidle, hsum, Run.modSw_sw, ne_eq, not_false_eq_true, decide_true, Bool.false_eq_true, if_false,
    if_true]
  rfl

end CensusNow

/-- Settles O20, command by command; SW_FDB_ADD by whether the bucket has room, SW_CENSUS_NOW by whether the sum is right. -/
theorem switchCommandsComplete : Obligations.SwitchCommandsComplete :=
  ⟨fun s _ _ _ members untagged => exec_swVlanSet s members untagged, fun s _ _ _ _ ports fns => exec_swFdbAdd_room s ports fns,
    fun s _ _ _ _ ports fns _ => exec_swFdbAdd_full s ports fns, fun s _ _ _ _ => exec_swFdbDel s,
    fun s _ _ _ static => exec_swFdbFlush s static, fun s _ _ => exec_swFdbRead s, fun s _ _ _ _ _ _ => exec_swHostVlan s,
    fun s _ _ _ _ => exec_swRedSet s, fun s _ _ _ => exec_swNodeRead s,
    fun s _ _ skew h hidle => ⟨exec_swCensusNow_right s skew h hidle, exec_swCensusNow_wrong s skew h hidle⟩⟩

end Sys2Proof.Machine
end

section
/-! The time unit: a tick on an empty queue, the messages and edges of its references, its timers and outputs, and the time commands
(R198, R202 to R228). -/

namespace Sys2Proof.Machine

/-! ### The tick on an empty queue (R198, R304, R511) -/

/-- One tick adds INC to the counter, whose seconds wrap at 48 bits; local time goes on by one, and TQ is noted. -/
theorem Run.pass_one (r : Run) :
    r.pass 1 = { r with
      ticks := r.ticks + 1
      tsu := { r.tsu.noteTq r.now with counter := (r.tsu.counter + r.tsu.inc) % (2 ^ 48 * 1000000000 * 2 ^ 32) } } := by
  rw [Run.pass_eq, Tsu.noteTq_eq, Nat.one_mul, counterWrap]

theorem step_empty {s : State} (hempty : s.pending = []) : step s = .next s.idle := by
  simp only [step, hempty]

/-- Settles O2: the step on an empty queue is one tick and what it settles. -/
theorem idleStepIsOneTick : Obligations.IdleStepIsOneTick := by
  intro s hempty
  rw [step_empty hempty, State.idle, Run.pass_one]

/-! ### Messages once per second (R214 to R216) -/

/-- A message that a port sends once per second is due at `now` with sequence number `k`: none was sent yet, or the last one, of number
`k - 1`, a second ago. -/
def SendDue (last : Option (Nat × Instant)) (now : Instant) (k : Nat) : Prop :=
  (last = none ∧ k = 0) ∨ ∃ m t, last = some (m, t) ∧ t + 1000000000 ≤ now ∧ k = (m + 1) % 65536

/-- A master port whose Sync is due sends it, and Announce after it. -/
theorem exec_ptpSyncSend (s : State) {port dt k : Nat} (h : s.Running) (hm : (s.run.pass dt).isMaster port = true)
    (hl : (s.run.port port).link = true) (hdue : SendDue (tabGet s.run.tsu.syncSent port) (s.run.pass dt).now k) :
    let r := (s.run.pass dt).modTsu fun t => { t with syncSent := tabSet t.syncSent port (k, (s.run.pass dt).now) }
    let r' := r.sendPtp port 0x011B19000000 64 (.ptp 0 r.tsu.domainOf k 0)
    exec (.ptpSyncSend port dt) s =
      .next (s.ran (r'.sendPtp port 0x011B19000000 (if r'.tsu.regs.profile = 1 then 104 else 82) (.announce r'.tsu.masterData))) := by
  intro r r'
  change execPtpSyncSend port dt s = _
  rw [execPtpSyncSend, whenRunning_running s _ h]
  obtain ⟨hnone, rfl⟩ | ⟨m, t, hsome, hlate, rfl⟩ := hdue
  · simp only [Run.pass_tsu_syncSent, hnone, hm, Run.pass_port, hl, Bool.not_true, Bool.or_self, Bool.false_eq_true, if_false]
    rfl
  · simp only [Run.pass_tsu_syncSent, hsome, hlate, hm, Run.pass_port, hl, decide_true, Bool.not_true, Bool.or_self,
      Bool.false_eq_true, if_false]
    rfl

theorem exec_pdelayMeasure (s : State) {port dt k : Nat} (x : PdelayTimes) (h : s.Running)
    (hp : (s.run.pass dt).pdelayPort port = true) (hdue : SendDue (tabGet s.run.tsu.pdelayAt port) (s.run.pass dt).now k) :
    let r := (s.run.pass dt).sendPtp port 0x0180C200000E 72 (.ptp 2 (s.run.pass dt).tsu.domainOf k 0)
    exec (.pdelayMeasure port x dt) s =
      .next (s.ran (r.modTsu fun t => { t with
        linkDelay := tabSet t.linkDelay port (r.meanLinkDelay port x), pdelayAt := tabSet t.pdelayAt port (k, r.now) })) := by
  intro r
  change execPdelayMeasure port x dt s = _
  rw [execPdelayMeasure, whenRunning_running s _ h]
  obtain ⟨hnone, rfl⟩ | ⟨m, t, hsome, hlate, rfl⟩ := hdue
  · simp only [Run.pass_tsu_pdelayAt, hnone, hp, Bool.and_self, if_true]
    rfl
  · simp only [Run.pass_tsu_pdelayAt, hsome, hlate, hp, decide_true, Bool.and_self, if_true]
    rfl

theorem exec_pdelayReqReceive (s : State) {port : Nat} (domain seqId : Nat) {dt : Nat} (h : s.Running)
    (hp : (s.run.pass dt).pdelayPort port = true) :
    exec (.pdelayReqReceive port domain seqId dt) s =
      .next (s.ran (((s.run.pass dt).takeFree 64).2.sendPtp port 0x0180C200000E 72
        (.ptp 3 domain seqId ((s.run.pass dt).takeFree 64).1.toInt))) := by
  change execPdelayReqReceive port domain seqId dt s = _
  rw [execPdelayReqReceive, whenRunning_running s _ h]
  simp only [hp, if_true]

/-! ### Messages and edges that the time unit takes (R202, R203, R213, R218 to R221) -/

theorem exec_ptpSyncReceive (s : State) (m : SyncMsg) (dt : Nat) (h : s.Up) :
    exec (.ptpSyncReceive m dt) s = .next (s.ran ((s.run.pass dt).sync m)) := by
  change execPtpSyncReceive m dt s = _
  rw [execPtpSyncReceive, whenUp_up s _ h]

theorem exec_ptpAnnounceReceive (s : State) (m : AnnounceMsg) (dt : Nat) (h : s.Up) :
    exec (.ptpAnnounceReceive m dt) s = .next (s.ran ((s.run.pass dt).announce m)) := by
  change execPtpAnnounceReceive m dt s = _
  rw [execPtpAnnounceReceive, whenUp_up s _ h]

theorem exec_irigFrame (s : State) (m : IrigMsg) (dt : Nat) (h : s.Up) :
    exec (.irigFrame m dt) s = .next (s.ran ((s.run.pass dt).irigFrame m)) := by
  change execIrigFrame m dt s = _
  rw [execIrigFrame, whenUp_up s _ h]

/-- The edge is the one that IN_POL selects. -/
theorem exec_ppsInEdge (s : State) {falling : Bool} (dt : Nat) (h : s.Up) (hactive : falling = s.run.tsu.regs.inPol) :
    exec (.ppsInEdge falling dt) s = .next (s.ran (s.run.pass dt).ppsEdge) := by
  change execPpsInEdge falling dt s = _
  rw [execPpsInEdge, whenUp_up s _ h]
  simp only [Run.pass_tsu_regs, if_pos hactive]

/-- Settles O21, row by row. -/
theorem timeMessagesComplete : Obligations.TimeMessagesComplete :=
  ⟨exec_ptpSyncReceive, exec_ptpAnnounceReceive, fun s _ _ _ => exec_ptpSyncSend s,
    fun s _ domain seqId _ => exec_pdelayReqReceive s domain seqId, fun s _ _ _ x => exec_pdelayMeasure s x,
    fun s _ dt => exec_ppsInEdge s dt, exec_irigFrame⟩

/-! ### Loss of the reference, and HOLDOVER (R208 to R210) -/

theorem exec_referenceLoss (s : State) (dt : Nat) (h : s.Up) :
    exec (.referenceLoss dt) s = .next (s.ran (s.run.pass dt).referenceLoss) := by
  change execReferenceLoss dt s = _
  rw [execReferenceLoss, whenUp_up s _ h]

/-- In HOLD_PENDING, 10 s after the loss, the hold timer has run out (R210). -/
theorem Run.settleHold_due {r : Run} {t : Instant} (hloss : r.tsu.lossAt = some t) (hphase : r.tsu.phase = .holdPending)
    (hlate : t + 10000000000 ≤ r.now) : r.settleHold = r.enter .holdover := by
  simp only [Run.settleHold, hloss, if_pos (And.intro hphase hlate)]

theorem exec_holdTimerExpiry (s : State) {dt : Nat} {t : Instant} (h : s.Up) (hloss : s.run.tsu.lossAt = some t)
    (hphase : s.run.tsu.phase = .holdPending) (hlate : t + 10000000000 ≤ (s.run.pass dt).now) :
    exec (.holdTimerExpiry dt) s = .next (s.ran ((s.run.pass dt).enter .holdover)) := by
  change execHoldTimerExpiry dt s = _
  rw [execHoldTimerExpiry, whenUp_up s _ h,
    Run.settleHold_due ((Run.pass_tsu_lossAt _ _).trans hloss) ((Run.pass_tsu_phase _ _).trans hphase) hlate]

/-! ### Leap seconds, and the PPS output (R222, R223) -/

/-- At the end of the UTC day UTC_OFFSET takes its new value, which the configuration keeps unless the parent gave it. -/
theorem exec_leapSecond (s : State) {dt : Nat} (h : s.Up) (hdue : (s.run.pass dt).leapDue = true) :
    let new := s.run.tsu.regs.utcOffset + s.run.tsu.regs.leapStep
    exec (.leapSecond dt) s =
      .next (s.ran (((s.run.pass dt).modTsu fun t => { t with
        lastLeap := some (secOf (s.run.pass dt).now * 1000000000, t.regs.utcOffset), regs := { t.regs with
          utcOffset := new, leapPending := false, utcConfig := if t.regs.fromPtp then t.regs.utcConfig else new } }).raise
        { ev := .leap, source := 197, data := [new] })) := by
  intro new
  change execLeapSecond dt s = _
  rw [execLeapSecond, whenUp_up s _ h]
  simp only [hdue, if_true, Run.pass_tsu_regs, new]

theorem exec_ppsOutEdge (s : State) {dt : Nat} (h : s.Up) (hrec : s.sys.phase ≠ .recovery) (hsec : (s.run.pass dt).onSecond = true)
    (hopen : (s.run.pass dt).tsu.gated = false) :
    exec (.ppsOutEdge dt) s =
      .next (s.ran (((s.run.pass dt).modTsu fun t =>
        { t with ppsOut := true, ppsOutSince := secOf (s.run.pass dt).now * 1000000000 }).emit (.ball .ppsOut .high))) := by
  change execPpsOutEdge dt s = _
  rw [execPpsOutEdge, whenUp_up s _ h]
  simp only [bne_iff_ne.mpr hrec, hsec, hopen, Bool.not_false, Bool.and_self, if_true]

theorem exec_ppsOutPulseEnd (s : State) {dt : Nat} (h : s.Up) (hout : s.run.tsu.ppsOut = true)
    (hlate : s.run.tsu.ppsOutSince + s.run.tsu.regs.outWidth * 1000000 ≤ (s.run.pass dt).now) :
    exec (.ppsOutPulseEnd dt) s =
      .next (s.ran (((s.run.pass dt).modTsu fun t => { t with ppsOut := false }).emit (.ball .ppsOut .low))) := by
  change execPpsOutPulseEnd dt s = _
  rw [execPpsOutPulseEnd, whenUp_up s _ h]
  simp only [Run.pass_tsu_ppsOut, Run.pass_tsu_ppsOutSince, Run.pass_tsu_regs, hout, hlate, decide_true, Bool.and_self, if_true]

/-! ### The enable of the servo (R207, R209) -/

theorem exec_servoEnFall (s : State) (h : s.Up) (hen : s.run.tsu.regs.servoEn = true) :
    exec .servoEnFall s = .next (s.ran s.run.servoOff) := by
  change execServoEnFall s = _
  rw [execServoEnFall, whenUp_up s _ h, if_pos hen]

theorem exec_servoEnRise (s : State) (h : s.Up) (hen : s.run.tsu.regs.servoEn = false) :
    exec .servoEnRise s = .next (s.ran s.run.servoOn) := by
  change execServoEnRise s = _
  rw [execServoEnRise, whenUp_up s _ h, if_neg (ne_true_of_eq_false hen)]

/-- Settles O22, row by row. -/
theorem timeEventsComplete : Obligations.TimeEventsComplete :=
  ⟨exec_referenceLoss, fun s _ _ => exec_holdTimerExpiry s, fun s _ => exec_leapSecond s, fun s _ => exec_ppsOutEdge s,
    fun s _ => exec_ppsOutPulseEnd s, exec_servoEnFall, exec_servoEnRise⟩

/-! ### The time commands (R228, Tables 6.2 and 6.5) -/

theorem exec_timeQuery (s : State) {c : Cmd} {a : Accepted} (h : s.Ready { op := 0x0400, pf0 := false } c a) :
    exec (.timeQuery c) s =
      .next (s.done c s.run { result := [(secOf s.run.now : Int), nsOf s.run.now, s.run.tsu.phase.code, s.run.tsu.tq,
        roundRat s.run.tsu.servo.theta, roundRat (s.run.tsu.servo.y * 256),
        ((match s.run.tsu.parent with | some p => p.ref.gm | none => 0 : Nat) : Int)] }) := by
  change execTimeQuery c s = _
  exact runQuery_done _ c s _ a _ h rfl (.inl rfl)

/-- Without a reference the counter is set, and FREERUN begins again. -/
theorem exec_timeSet (s : State) {c : Cmd} {a : Accepted} (sec : Nat) {ns : Nat} (h : s.Ready { op := 0x0401, pf0 := true } c a)
    (hns : ns < 1000000000) (hsrc : s.run.tsu.regs.src = 0) :
    let new := sec % 2 ^ 48 * 1000000000 + ns
    exec (.timeSet c sec ns) s = .next (s.done c (s.run.stepTo (new * 2 ^ 32) ((new : Int) - s.run.now)).toFreerun {}) := by
  intro new
  have hset : ¬ s.run.tsu.regs.src ≠ 0 := fun hne => hne hsrc
  change execTimeSet c sec ns s = _
  refine runCmd_done _ c s _ a _ {} h ?_ (.inl rfl)
  simp only [if_neg (Nat.not_le.mpr hns), if_neg hset, Answer.ok, new]

theorem exec_timeReacquire (s : State) {c : Cmd} {a : Accepted} (h : s.Ready { op := 0x0402, pf0 := true } c a)
    (hphase : s.run.tsu.phase = .acquiring ∨ s.run.tsu.phase = .holdover) :
    exec (.timeReacquire c) s = .next (s.done c s.run.toFreerun {}) := by
  change execTimeReacquire c s = _
  exact runCmd_done _ c s _ a _ {} h (if_pos hphase) (.inl rfl)

/-- Settles O23, command by command. -/
theorem timeCommandsComplete : Obligations.TimeCommandsComplete :=
  ⟨fun s _ _ => exec_timeQuery s, fun s _ _ sec _ => exec_timeSet s sec, fun s _ _ => exec_timeReacquire s⟩

end Sys2Proof.Machine
end

section
/-! The rows of ingest: the head frame of IPORT_INGEST, supervision, and the subscription commands (chapter 7). -/

namespace Sys2Proof.Machine

/-! ### Frames and supervision (R239, R254, R258) -/

/-- The head frame of IPORT_INGEST is whole, and the period has room for its judgement. -/
theorem exec_ingestFrame (s : State) {p : IngestPdu} {dt q : Nat} {x : Queued} {f : Held} (h : s.Running)
    (hhead : s.run.sw.ingestHead = some (q, x)) (hheld : tabGet s.run.sw.frames x.fid = some f) (hwhole : f.complete = true)
    (hroom : (s.run.pass dt).ingestRoom f.frame.etype f.frame.da p = true) :
    exec (.ingestFrame p dt) s =
      .next (s.ran ((((s.run.pass dt).ingest f.frame.etype f.frame.da p f.arrival).modSw fun w =>
        { w with ingestQ := tabPut w.ingestQ q ((tabGetD w.ingestQ q []).drop 1) [] }).release x.fid)) := by
  change execIngestFrame p dt s = _
  rw [execIngestFrame, whenRunning_running s _ h]
  simp only [Run.pass_sw, hhead, hheld, hwhole, hroom, Bool.not_true, Bool.or_self, Bool.false_eq_true, if_false]

theorem exec_subSupervisionExpiry (s : State) (goose : Bool) (index dt : Nat) (h : s.Running) :
    exec (.subSupervisionExpiry goose index dt) s = .next (s.ran ((s.run.pass dt).expire goose index (s.run.pass dt).now)) := by
  change execSubSupervisionExpiry goose index dt s = _
  rw [execSubSupervisionExpiry, whenRunning_running s _ h]

/-! ### The form of a subscription command (R259) -/

/-- A subscription command on a VI that exists. -/
theorem onSubs_exists {a : Accepted} {r : Run} {n : Nat} (f : Nat → Run × Answer) (ht : a.target = some n)
    (hp : (r.inst n).phase ≠ .free) : onSubs a r f = f n := by
  simp only [onSubs, onTarget, ht, if_neg hp]

/-- The tables of subscriptions are two: SV and GOOSE. -/
theorem subKind_inRange {kind : Nat} (hkind : kind ≤ 1) : ¬ 1 < kind := Nat.not_lt.mpr hkind

/-! ### Staging a record (R234 to R236) -/

/-- The SLOTs that the reply to a staged record names: an SV record has one for each of its channels, a GOOSE record none. -/
def stagedSlots : SubRec → List Int
  | .sv v => v.chans.map fun c => (c.slot : Int)
  | .goose _ => []

/-- A record at the command's own index, or at a new one (0xFFFF), that `stageSub` takes. -/
theorem Run.subSet_staged {s r : Run} {goose : Bool} {fn n index i : Nat} (len : Nat) {y z : SubRec}
    (hown : index = 0xFFFF ∨ s.ing.notOwn goose fn n index = none) (hstage : s.stageSub goose n index y = .ok (r, i, z)) :
    s.subSet goose fn n index len y = (r.trimStaged n, .done { result := [(i : Int)], buffer := stagedSlots z, bufLen := len }) := by
  have hmay : (if index = 0xFFFF then none else s.ing.notOwn goose fn n index) = none := by
    obtain hnew | hown := hown
    · exact if_pos hnew
    · rw [hown, ite_self]
  simp only [Run.subSet, hmay, hstage]
  rfl

theorem exec_subSvSet (s : State) {c : Cmd} {a : Accepted} {n index i : Nat} {x y : SvRec} {z : SubRec} {r : Run}
    (h : s.Ready { op := 0x0500, pf0 := false, buf := true, need := some 296 } c a) (ht : a.target = some n)
    (hp : (s.run.inst n).phase ≠ .free) (hrec : svRecord x = some y)
    (hown : index = 0xFFFF ∨ s.run.ing.notOwn false c.fn n index = none)
    (hstage : s.run.stageSub false n index (.sv y) = .ok (r, i, z)) (hlen : 296 ≤ a.entry.bufLen) (hbuf : c.bufErr = false) :
    exec (.subSvSet c index x) s =
      .next (s.done c (r.trimStaged n) { result := [(i : Int)], buffer := stagedSlots z, bufLen := 296 }) := by
  change execSubSvSet c index x s = _
  refine runCmd_done _ c s _ a _ _ h ?_ (.inr ⟨hlen, hbuf⟩)
  rw [onSubs_exists _ ht hp]
  simp only [hrec, Run.subSet_staged 296 hown hstage]

/-- The reply has no octets in the buffer that brought the record. -/
theorem exec_subGooseSet (s : State) {c : Cmd} {a : Accepted} {n index i : Nat} {x y : GooseRec} {z : SubRec} {r : Run}
    (h : s.Ready { op := 0x0501, pf0 := false, buf := true, need := some 424 } c a) (ht : a.target = some n)
    (hp : (s.run.inst n).phase ≠ .free) (hrec : gooseRecord x = some y)
    (hown : index = 0xFFFF ∨ s.run.ing.notOwn true c.fn n index = none)
    (hstage : s.run.stageSub true n index (.goose y) = .ok (r, i, z)) :
    exec (.subGooseSet c index x) s =
      .next (s.done c (r.trimStaged n) { result := [(i : Int)], buffer := stagedSlots z }) := by
  change execSubGooseSet c index x s = _
  refine runCmd_done _ c s _ a _ _ h ?_ (.inl rfl)
  rw [onSubs_exists _ ht hp]
  simp only [hrec, Run.subSet_staged 0 hown hstage]

/-! ### The subscriptions that a VI has (R246, R257, R259) -/

/-- A subscription that is committed, or that a commit under way brings, is staged for deletion; one only staged is dropped. -/
theorem exec_subDelete (s : State) {c : Cmd} {a : Accepted} {n kind index : Nat} (h : s.Ready { op := 0x0502, pf0 := false } c a)
    (ht : a.target = some n) (hp : (s.run.inst n).phase ≠ .free) (hkind : kind ≤ 1)
    (hown : s.run.ing.notOwn (kind == 1) c.fn n index = none) :
    let f (t : Tab (Nat × Option SubRec)) :=
      if (s.run.sub (kind == 1) index).isSome || s.run.waitsFor (kind == 1) n index then tabSet t index (n, none) else tabDel t index
    exec (.subDelete c kind index) s =
      .next (s.done c ((s.run.modIng fun x => x.setStaged (kind == 1) (f (x.staged (kind == 1)))).trimStaged n) {}) := by
  intro f
  change execSubDelete c kind index s = _
  refine runCmd_done _ c s _ a _ {} h ?_ (.inl rfl)
  rw [onSubs_exists _ ht hp]
  simp only [if_neg (subKind_inRange hkind), hown, Answer.ok, f]

theorem exec_subRead (s : State) {c : Cmd} {a : Accepted} {n kind index : Nat} {x : Sub}
    (h : s.Ready { op := 0x0503, pf0 := false } c a) (ht : a.target = some n) (hp : (s.run.inst n).phase ≠ .free) (hkind : kind ≤ 1)
    (hown : s.run.ownSub (kind == 1) c.fn n index = .ok x) (hlen : (if kind = 1 then 424 else 296) ≤ a.entry.bufLen)
    (hbuf : c.bufErr = false) :
    exec (.subRead c kind index) s =
      .next (s.done c s.run {
        result := [(x.phase.code : Int), index, x.count, x.sq, secOf (x.arrived.getD 0), nsOf (x.arrived.getD 0)]
        buffer := subFields index x.record, bufLen := if kind = 1 then 424 else 296 }) := by
  change execSubRead c kind index s = _
  refine runCmd_done _ c s _ a _ _ h ?_ (.inr ⟨hlen, hbuf⟩)
  rw [onSubs_exists _ ht hp]
  simp only [if_neg (subKind_inRange hkind), hown]

/-- Both key slots permit the ingest engine for the VI. -/
theorem exec_subKeySet (s : State) {c : Cmd} {a : Accepted} {n kind index keyA keyB : Nat} {x : Sub}
    (h : s.Ready { op := 0x0504, pf0 := false } c a) (ht : a.target = some n) (hp : (s.run.inst n).phase ≠ .free) (hkind : kind ≤ 1)
    (hkeyA : keySlotOk keyA = true) (hkeyB : keySlotOk keyB = true) (hown : s.run.ownSub (kind == 1) c.fn n index = .ok x)
    (hmayA : s.run.srm.ingestMayUse n keyA = true) (hmayB : s.run.srm.ingestMayUse n keyB = true) :
    exec (.subKeySet c kind index keyA keyB) s =
      .next (s.done c (s.run.modSub (kind == 1) index fun x => { x with record := x.record.withKeys keyA keyB }) {}) := by
  change execSubKeySet c kind index keyA keyB s = _
  refine runCmd_done _ c s _ a _ {} h ?_ (.inl rfl)
  rw [onSubs_exists _ ht hp]
  simp only [subKind_inRange hkind, hkeyA, hkeyB, hown, hmayA, hmayB, Bool.not_true, Bool.or_self, Bool.false_eq_true, or_self,
    if_false, Answer.ok]

theorem exec_subList (s : State) {c : Cmd} {a : Accepted} {n kind : Nat} (h : s.Ready { op := 0x0505, pf0 := false } c a)
    (ht : a.target = some n) (hp : (s.run.inst n).phase ≠ .free) (hkind : kind ≤ 1) :
    let own := (s.run.ing.table (kind == 1)).filter fun e => e.2.inst == n
    4 * own.length ≤ a.entry.bufLen → c.bufErr = false →
    exec (.subList c kind) s =
      .next (s.done c s.run { buffer := own.flatMap fun e => [(e.1 : Int), (e.2.phase.code : Int)], bufLen := 4 * own.length }) := by
  intro own hlen hbuf
  change execSubList c kind s = _
  exact runCmd_done _ c s _ a _ _ h ((onSubs_exists _ ht hp).trans (if_neg (subKind_inRange hkind))) (.inr ⟨hlen, hbuf⟩)

/-- Settles O24, row by row. -/
theorem ingestRowsComplete : Obligations.IngestRowsComplete :=
  ⟨fun s _ _ _ _ _ => exec_ingestFrame s, exec_subSupervisionExpiry, fun s _ _ _ _ _ _ _ _ _ => exec_subSvSet s,
    fun s _ _ _ _ _ _ _ _ _ => exec_subGooseSet s, fun s _ _ _ _ _ => exec_subDelete s, fun s _ _ _ _ _ _ => exec_subRead s,
    fun s _ _ _ _ _ _ _ _ => exec_subKeySet s, fun s _ _ _ _ => exec_subList s⟩

end Sys2Proof.Machine
end

section
/-! The rows of Confluence: the edge of DEC_SYNC, and the Confluence commands (chapter 8). -/

namespace Sys2Proof.Machine

/-! ### DEC_SYNC (R288) -/

/-- With the ball enabled, an edge of its polarity asks for a DEC_SYNC at the TSU's time. -/
theorem exec_decSyncEdge (s : State) {falling : Bool} (dt : Nat) (h : s.Running) (hen : s.run.cfl.pinEn = true)
    (hpol : falling = s.run.cfl.pol) :
    exec (.decSyncEdge falling dt) s = .next (s.ran ((s.run.pass dt).decSyncRequest (s.run.pass dt).now).1) := by
  change execDecSyncEdge falling dt s = _
  rw [execDecSyncEdge, whenRunning_running s _ h]
  simp only [Run.pass_cfl, hen, hpol, and_self, if_true]

/-- The request is taken; the reply names its P tick by the second and the number in the second. -/
theorem exec_cflDecSync (s : State) {c : Cmd} {a : Accepted} {sec ns : Nat} {r : Run} (h : s.Ready { op := 0x0606, pf0 := true } c a)
    (hns : ns < 1000000000) (hsec : sec < 2 ^ 48) (hreq : s.run.decSyncRequest (sec * 1000000000 + ns) = (r, true)) :
    exec (.cflDecSync c sec ns) s =
      .next (s.done c r { result := [((r.cfl.dsTick / 4800 : Nat) : Int), ((r.cfl.dsTick % 4800 : Nat) : Int)] }) := by
  have hrange : ¬ (1000000000 ≤ ns ∨ 2 ^ 48 ≤ sec) := not_or.mpr ⟨Nat.not_le.mpr hns, Nat.not_le.mpr hsec⟩
  change execCflDecSync c sec ns s = _
  refine runCmd_done _ c s _ a _ _ h ?_ (.inl rfl)
  rw [if_neg hrange, hreq]

/-! ### What is staged (R292, R301) -/

/-- A slot that is the VI's own, or that its staged changes would make its own. -/
theorem exec_cflChanSet (s : State) {c : Cmd} {a : Accepted} {n slot : Nat} {x : ChanRec}
    (h : s.Ready { op := 0x0600, pf0 := false, buf := true, need := some 32 } c a) (ht : a.target = some n)
    (hp : (s.run.inst n).phase ≠ .free) (hok : x.ok (s.run.slotOnQ n slot) = true)
    (hslot : ((s.run.slotView n).any fun e => e.1 == slot) = true) :
    exec (.cflChanSet c slot x) s =
      .next (s.done c (s.run.modCfl fun y => { y with chanStaged := tabSet y.chanStaged slot (n, x) }) {}) := by
  change execCflChanSet c slot x s = _
  refine runCmd_done _ c s _ a _ {} h ?_ (.inl rfl)
  rw [onSubs_exists _ ht hp]
  simp only [hok, hslot, Bool.not_true, Bool.false_eq_true, if_false, if_true, Answer.ok]

theorem exec_cflStreamSet (s : State) {c : Cmd} {a : Accepted} {n index : Nat} {x : StreamRec}
    (h : s.Ready { op := 0x0601, pf0 := false, buf := true, need := some 24 } c a) (ht : a.target = some n)
    (hp : (s.run.inst n).phase ≠ .free) (hok : x.ok = true) (hown : s.run.ing.notOwn false c.fn n index = none) :
    exec (.cflStreamSet c index x) s =
      .next (s.done c (s.run.modCfl fun y => { y with streamStaged := tabSet y.streamStaged index (n, x) }) {}) := by
  change execCflStreamSet c index x s = _
  refine runCmd_done _ c s _ a _ {} h ?_ (.inl rfl)
  rw [onSubs_exists _ ht hp]
  simp only [hok, hown, Bool.not_true, Bool.false_eq_true, if_false, Answer.ok]

/-! ### What is loaded at once (R290, R294) -/

/-- A set of 1 to 64 coefficients that no channel of the VI uses. -/
theorem exec_cflCoefSet (s : State) {c : Cmd} {a : Accepted} {n set : Nat} (delay : Nat) {taps : List Word}
    (h : s.Ready { op := 0x0602, pf0 := false, buf := true, need := some (4 * taps.length) } c a) (ht : a.target = some n)
    (hp : (s.run.inst n).phase ≠ .free) (hsome : 1 ≤ taps.length) (hmost : taps.length ≤ 64) (hset : set < 32)
    (hunused : ((s.run.cfl.chansOf n).any fun e => e.2.usesSet set) = false) :
    exec (.cflCoefSet c set delay taps) s =
      .next (s.done c (s.run.modCfl fun y =>
        { y with coefs := tabSet y.coefs (32 * n + set) { taps := taps, delay := delay % 2 ^ 32 } }) {}) := by
  have hlength : ¬ (taps.isEmpty = true ∨ 64 < taps.length) := by
    rw [List.isEmpty_iff_length_eq_zero]
    omega
  have hfree : ¬ (32 ≤ set ∨ ((s.run.cfl.chansOf n).any fun e => e.2.usesSet set) = true) :=
    not_or.mpr ⟨Nat.not_le.mpr hset, Bool.not_eq_true _ ▸ hunused⟩
  change execCflCoefSet c set delay taps s = _
  refine runCmd_done _ c s _ a _ {} h ?_ (.inl rfl)
  rw [onSubs_exists _ ht hp, if_neg hlength, if_neg hfree, Answer.ok]

/-- A prototype, 1 to 4, that no channel uses. -/
theorem exec_cflProtoLoad (s : State) {c : Cmd} {a : Accepted} {proto : Nat} {table : List (List Word)}
    (h : s.Ready { op := 0x0603, pf0 := true, buf := true, need := some 32832 } c a) (hfirst : 1 ≤ proto) (hlast : proto ≤ 4)
    (hunused : (s.run.cfl.chans.any fun e => e.2.record.proto == proto) = false) (hok : protoOk table = true) :
    exec (.cflProtoLoad c proto table) s =
      .next (s.done c (s.run.modCfl fun y => { y with protos := tabSet y.protos proto table }) {}) := by
  have hrange : ¬ (proto = 0 ∨ 4 < proto) := by omega
  change execCflProtoLoad c proto table s = _
  refine runCmd_done _ c s _ a _ {} h ?_ (.inl rfl)
  simp only [hrange, hunused, hok, Bool.not_true, Bool.false_eq_true, if_false, Answer.ok]

/-! ### A committed channel (R277, R291) -/

/-- A command on a committed channel of the VI. -/
theorem onChan_own {c : Cmd} {a : Accepted} {r : Run} {n slot : Nat} {ch : Chan} (f : Chan → Run × Answer) (ht : a.target = some n)
    (hp : (r.inst n).phase ≠ .free) (hch : tabGet r.cfl.chans slot = some ch) (hinst : ch.inst = n) : onChan c a slot r f = f ch := by
  rw [onChan, onSubs_exists _ ht hp]
  simp only [hch, if_pos hinst]

/-- The reply tells what `bankRequest` did: 0 taken at once, 1 queued, 2 queued in another's place. -/
theorem exec_cflBankSelect (s : State) {c : Cmd} {a : Accepted} {n slot bank len : Nat} {ch : Chan}
    (h : s.Ready { op := 0x0604, pf0 := false } c a) (ht : a.target = some n) (hp : (s.run.inst n).phase ≠ .free)
    (hch : tabGet s.run.cfl.chans slot = some ch) (hinst : ch.inst = n) (hbank : bank ≤ 1) (hsome : 1 ≤ len) (hmost : len ≤ 4096) :
    exec (.cflBankSelect c slot bank len) s =
      .next (s.done c (s.run.bankRequest slot (bank == 1) len).1
        { result := [((s.run.bankRequest slot (bank == 1) len).2 : Int)] }) := by
  have hrange : ¬ (1 < bank ∨ len = 0 ∨ 4096 < len) := by omega
  change execCflBankSelect c slot bank len s = _
  refine runCmd_done _ c s _ a _ _ h ?_ (.inl rfl)
  rw [onChan_own _ ht hp hch hinst, if_neg hrange]

theorem exec_cflDcHold (s : State) {c : Cmd} {a : Accepted} {n slot : Nat} (hold : Bool) {ch : Chan}
    (h : s.Ready { op := 0x0605, pf0 := false } c a) (ht : a.target = some n) (hp : (s.run.inst n).phase ≠ .free)
    (hch : tabGet s.run.cfl.chans slot = some ch) (hinst : ch.inst = n) :
    exec (.cflDcHold c slot hold) s = .next (s.done c (s.run.modChan slot fun ch => { ch with dcHold := hold }) {}) := by
  change execCflDcHold c slot hold s = _
  exact runCmd_done _ c s _ a _ {} h (onChan_own _ ht hp hch hinst) (.inl rfl)

theorem exec_cflChanRead (s : State) {c : Cmd} {a : Accepted} {n slot : Nat} {ch : Chan}
    (h : s.Ready { op := 0x0607, pf0 := false } c a) (ht : a.target = some n) (hp : (s.run.inst n).phase ≠ .free)
    (hch : tabGet s.run.cfl.chans slot = some ch) (hinst : ch.inst = n) (hlen : 32 ≤ a.entry.bufLen) (hbuf : c.bufErr = false) :
    exec (.cflChanRead c slot) s =
      .next (s.done c s.run { result := [(s.run.cfl.chanState ch : Int), (s.run.cfl.chanDelay ch : Int)],
                              buffer := ch.record.fields slot, bufLen := 32 }) := by
  change execCflChanRead c slot s = _
  exact runCmd_done _ c s _ a _ _ h (onChan_own _ ht hp hch hinst) (.inr ⟨hlen, hbuf⟩)

/-- Settles O25, row by row. -/
theorem confluenceRowsComplete : Obligations.ConfluenceRowsComplete :=
  ⟨fun s _ => exec_decSyncEdge s, fun s _ _ _ _ _ => exec_cflChanSet s, fun s _ _ _ _ _ => exec_cflStreamSet s,
    fun s _ _ _ _ delay _ => exec_cflCoefSet s delay, fun s _ _ _ _ => exec_cflProtoLoad s,
    fun s _ _ _ _ _ _ _ => exec_cflBankSelect s, fun s _ _ _ _ hold _ => exec_cflDcHold s hold,
    fun s _ _ _ _ _ => exec_cflDecSync s, fun s _ _ _ _ _ => exec_cflChanRead s⟩

end Sys2Proof.Machine
end

section
/-! The events of Sluice: ticks, dispatch, the ends of jobs, and exchanges of a graph (R265, R315 to R319, R330). -/

namespace Sys2Proof.Machine

/-! ### Ticks (R265) -/

/-- A tick of an ACTIVE VI whose instant t + H has come. A DEC_SYNC whose instant has come is settled before it, and the bindings
on the tick fire last. -/
theorem exec_tickProcess (s : State) (n dt q : Nat) (hrun : s.Running) :
    let r := (s.run.pass dt).settleDecSync
    let h := r.cfl.h n
    tabGet r.cfl.next n = some q → (r.inst n).phase = .active → dueCounter q h ≤ r.tsu.counter →
    let after := r.nowExact - qInstant q - (h : Rat) * 1000
    let ns := after.floor.toNat
    let slots := ((r.applyDecSync n q).cfl.chansOf n).map (·.1)
    let r₁ := slots.foldl (fun (r : Run) c =>
      match tabGet r.cfl.chans c with | some x => if x.onQ then r.qTick c q h else r | none => r) (r.applyDecSync n q)
    let outs := slots.filter fun c => match tabGet r₁.cfl.chans c with | some x => x.record.drEn && x.drPhase == 0 | none => false
    let r₂ := if q % 3 = 0 then slots.foldl (fun (r : Run) c => r.pTick c (q / 3) h) r₁ else r₁
    let r₃ := (r₂.drTick n q outs.contains).modCfl fun x => { x with next := tabSet x.next n (q + 1), done := tabSet x.done n (q + 1) }
    let r₄ := if decide (20000 < after) = true then r₃.tickLate n (if q % 3 = 0 then q / 3 % 4800 else q % 14400) ns else r₃
    let r₅ := if q % 3 = 0 then r₄.pFlag n (q / 3) ns else r₄
    exec (.tickProcess n dt) s = .next (s.ran (r₅.fire n fun _ b => bindOnTick b q)) := by
  intro r h hnext hactive hdue
  have hgo : ¬ ((r.inst n).phase ≠ .active ∨ r.tsu.counter < dueCounter q h) :=
    not_or.mpr ⟨not_not_intro hactive, Nat.not_lt.mpr hdue⟩
  change execTickProcess n dt s = _
  rw [execTickProcess, whenRunning_running s _ hrun]
  simp only [r, h] at hnext hgo
  simp only [hnext, if_neg hgo]
  rfl

/-! ### Dispatch (R315) -/

theorem exec_nodeDispatch (s : State) (dt : Nat) {u : Nat} {f : Flight} {deferred : Bool} (h : s.Running)
    (hpick : (s.run.pass dt).pick = some (f, u, deferred)) :
    let r := (s.run.pass dt).dispatch f u deferred
    let op := match (s.run.slcOf f.inst).g.nodes[f.node]? with | some g => g.op | none => 0
    exec (.nodeDispatch dt) s =
      .next (s.ran (if f.cls = 2 then (match r.loopDev f.inst op with | some l => r.mlrStart l f.tick | none => r)
        else if f.cls = 3 then r.cleImage f.inst op else r)) := by
  change execNodeDispatch dt s = _
  rw [execNodeDispatch, whenRunning_running s _ h]
  simp only [hpick]
  rfl

/-! ### The end of a job (R316 to R319) -/

/-- A job of class LE, or one whose engine has reported, may end at any time; every other job ends within its budget.
An empty job leaves its node HELD (R443). -/
theorem exec_jobFinish (s : State) {n i gen : Nat} (dt : Nat) {cancelOut : Bool} {f : Flight} {e : JobEnd} (h : s.Running)
    (hfind : (s.run.slc.flights.find? fun f => f.inst == n && f.node == i && f.gen == gen && f.phase == .executing) = some f)
    (hend : (s.run.pass dt).jobEndOf f cancelOut = some e)
    (hin : f.cls = 3 ∨ f.engine.isSome = true ∨ (s.run.pass dt).ticks ≤ (s.run.pass dt).budgetEnd f true) :
    let x := (s.run.pass dt).jobEnds f e
    exec (.jobFinish n i gen cancelOut dt) s =
      .next (s.ran ((if s.run.liveJob f = true ∧ f.engine = some .empty then x.1.modNode n i fun s => { s with held := true }
        else x.1).chainsLate x.2)) := by
  have hintime : ¬ (f.cls ≠ 3 ∧ f.engine.isNone = true ∧ (s.run.pass dt).budgetEnd f true < (s.run.pass dt).ticks) := by
    rintro ⟨hcls, hnone, hlate⟩
    obtain hcle | hengine | hbudget := hin
    · exact hcls hcle
    · rw [Option.isNone_iff_eq_none.mp hnone] at hengine
      exact absurd hengine Bool.false_ne_true
    · exact Nat.not_lt.mpr hbudget hlate
  change execJobFinish n i gen cancelOut dt s = _
  rw [execJobFinish, whenRunning_running s _ h]
  simp only [Run.pass_slc, hfind, hend, if_neg hintime]
  rfl

theorem exec_budgetAbort (s : State) {n i gen : Nat} (dt : Nat) {f : Flight} (h : s.Running)
    (hfind : (s.run.slc.flights.find? fun f => f.inst == n && f.node == i && f.gen == gen && f.phase == .executing) = some f)
    (hcls : f.cls ≠ 3) (hengine : f.engine = none) (hover : (s.run.pass dt).budgetEnd f false ≤ (s.run.pass dt).ticks) :
    let x := (s.run.pass dt).jobEnds f .aborted
    exec (.budgetAbort n i gen dt) s = .next (s.ran (x.1.chainsLate x.2)) := by
  have hspent : ¬ (f.cls = 3 ∨ f.engine.isSome = true ∨ (s.run.pass dt).ticks < (s.run.pass dt).budgetEnd f false) := by
    rw [hengine]
    exact not_or.mpr ⟨hcls, not_or.mpr ⟨Bool.false_ne_true, Nat.not_lt.mpr hover⟩⟩
  change execBudgetAbort n i gen dt s = _
  rw [execBudgetAbort, whenRunning_running s _ h]
  simp only [Run.pass_slc, hfind, if_neg hspent]

/-! ### The exchange of a graph (R330) -/

/-- Within 96 P ticks, a flag at which no job of the old graph is under way is the exchange point. -/
theorem Run.exchangeAt_point {r : Run} {n : Nat} {e : Exchange} (hwaits : (r.slcOf n).exchange = some e) (hticks : e.ticks < 96)
    (hquiet : r.graphQuiet n = true) : r.exchangeAt n = r.exchange n := by
  simp only [Run.exchangeAt, hwaits, if_neg (Nat.not_le.mpr hticks), hquiet, if_true]

theorem exec_graphExchange (s : State) {n : Nat} (dt : Nat) {e : Exchange} (h : s.Running) (hactive : (s.run.inst n).phase = .active)
    (hdue : (s.run.pass dt).flagDue n = true) (hquiet : (s.run.pass dt).graphQuiet n = true)
    (hwaits : (s.run.slcOf n).exchange = some e) (hticks : e.ticks < 96) :
    let r := s.run.pass dt
    let image := match (s.run.cleOf n).exchange with | some i => i | none => (s.run.cleOf n).image
    exec (.graphExchange n dt) s =
      .next (s.ran ((((r.putStaged n e.staged).applyCommit n e.graph e.ranges image e.claims e.bounds e.needs).putStaged n
        ((r.stagedOf n).since e.staged)).finish e.wait.1 e.wait.2 {})) := by
  have hwaits' : ((s.run.pass dt).slcOf n).exchange = some e := hwaits
  have hpoint : ((s.run.pass dt).inst n).phase = .active ∧ (s.run.pass dt).flagDue n = true ∧ (s.run.pass dt).graphQuiet n = true :=
    ⟨hactive, hdue, hquiet⟩
  change execGraphExchange n dt s = _
  rw [execGraphExchange, whenRunning_running s _ h]
  simp only [if_pos hpoint, Run.exchangeAt_point hwaits' hticks hquiet, Run.exchange, hwaits']
  rfl

theorem exec_exchangeTimeout (s : State) {n : Nat} (dt : Nat) {e : Exchange} (h : s.Running)
    (hwaits : (s.run.slcOf n).exchange = some e) (hticks : 96 ≤ e.ticks) :
    exec (.exchangeTimeout n dt) s = .next (s.ran ((s.run.pass dt).exchangeFails n)) := by
  have hwaits' : ((s.run.pass dt).slcOf n).exchange = some e := hwaits
  change execExchangeTimeout n dt s = _
  rw [execExchangeTimeout, whenRunning_running s _ h]
  simp only [hwaits', if_pos hticks]

/-- Settles O26, event by event. -/
theorem sluiceEventsComplete : Obligations.SluiceEventsComplete :=
  ⟨exec_tickProcess, fun s dt _ _ _ => exec_nodeDispatch s dt, fun s _ _ _ dt _ _ _ => exec_jobFinish s dt,
    fun s _ _ _ dt _ => exec_budgetAbort s dt, fun s _ dt _ => exec_graphExchange s dt, fun s _ dt _ => exec_exchangeTimeout s dt⟩

end Sys2Proof.Machine
end

section
/-! The commands that stage configuration change none in effect (R257, R301, R328, R330, R432, R481, R516). -/

namespace Sys2Proof.Machine

/-! ### What counts as staging -/

theorem tabGetD_tabSet {α : Type} (t : Tab α) (k j : Nat) (v d : α) :
    tabGetD (tabSet t k v) j d = if j = k then v else tabGetD t j d := by
  unfold tabGetD
  split
  · next h => rw [h, tabGet_tabSet_self, Option.getD_some]
  · next h => rw [tabGet_tabSet_ne t k j v h]

/-- A change of what Sluice keeps of one instance leaves what it keeps of the others. -/
theorem Run.slcOf_modSlc (r : Run) (n : Nat) (f : SlcInst → SlcInst) (m : Nat) :
    (r.modSlc n f).slcOf m = if m = n then f (r.slcOf n) else r.slcOf m :=
  tabGetD_tabSet r.slc.insts n m (f (r.slcOf n)) {}

/-- A change of what the CLE holds of one instance leaves what it holds of the others. -/
theorem Run.cleOf_modCleInst (r : Run) (n : Nat) (f : CleInst → CleInst) (m : Nat) :
    (r.modCleInst n f).cleOf m = if m = n then f (r.cleOf n) else r.cleOf m :=
  tabGetD_tabSet r.cle.insts n m (f (r.cleOf n)) {}

theorem Run.OnlyStaged.refl (r : Run) : r.OnlyStaged r := ⟨rfl, fun _ => rfl, fun _ => rfl⟩

theorem Run.OnlyStaged.trans {a b c : Run} (h : a.OnlyStaged b) (g : b.OnlyStaged c) : a.OnlyStaged c := by
  obtain ⟨hrun, hslc, hcle⟩ := h
  obtain ⟨grun, gslc, gcle⟩ := g
  refine ⟨?_, fun n => ?_, fun n => ?_⟩
  · rw [hrun] at grun
    exact grun
  · rw [gslc n, hslc n]
  · rw [gcle n, hcle n]

/-- What changes the host functions and the like only changes nothing but what a staging command may. -/
theorem Run.OnlyHost.staged {a b : Run} (h : a.OnlyHost b) : a.OnlyStaged b := by
  unfold Run.OnlyHost at h
  refine ⟨?_, fun n => ?_, fun n => ?_⟩
  · rw [h]
  · rw [h]; rfl
  · rw [h]; rfl

theorem Run.onlyStaged_srmCount (r : Run) (k n : Nat) : r.OnlyStaged (r.srmCount k n) := ⟨rfl, fun _ => rfl, fun _ => rfl⟩

/-- The staged subscriptions of a kind. -/
theorem Run.onlyStaged_setStaged (r : Run) (goose : Bool) (f : Ingest → Tab (Nat × Option SubRec)) :
    r.OnlyStaged (r.modIng fun x => x.setStaged goose (f x)) := by
  cases goose
  · exact ⟨rfl, fun _ => rfl, fun _ => rfl⟩
  · exact ⟨rfl, fun _ => rfl, fun _ => rfl⟩

/-- The staged records of Confluence's channels and streams. -/
theorem Run.onlyStaged_modCfl (r : Run) (f : Confluence → Tab (Nat × ChanRec)) (g : Confluence → Tab (Nat × StreamRec)) :
    r.OnlyStaged (r.modCfl fun x => { x with chanStaged := f x, streamStaged := g x }) :=
  ⟨rfl, fun _ => rfl, fun _ => rfl⟩

/-- The graph that an instance has staged. -/
theorem Run.onlyStaged_modSlc (r : Run) (n : Nat) (y : Option (Option Graph)) :
    r.OnlyStaged (r.modSlc n fun x => { x with staged := y }) := by
  refine ⟨rfl, fun m => ?_, fun _ => rfl⟩
  rw [Run.slcOf_modSlc]
  split
  · next h => rw [h]
  · rfl

/-- The CLE image that an instance has staged. -/
theorem Run.onlyStaged_modCleInst (r : Run) (n : Nat) (y : Option (Option CleImage)) :
    r.OnlyStaged (r.modCleInst n fun x => { x with staged := y }) := by
  refine ⟨rfl, fun _ => rfl, fun m => ?_⟩
  rw [Run.cleOf_modCleInst]
  split
  · next h => rw [h]
  · rfl

theorem Run.onlyStaged_modMlr (r : Run) (f : Millrace → Tab (Option LoopRec)) :
    r.OnlyStaged (r.modMlr fun x => { x with staged := f x }) := ⟨rfl, fun _ => rfl, fun _ => rfl⟩

/-- The staged publications of both kinds. -/
theorem Run.onlyStaged_modTrip (r : Run) (f : Trip → Tab (Option GoosePub)) (g : Trip → Tab (Option SvPub)) :
    r.OnlyStaged (r.modTrip fun x => { x with gooseStaged := f x, svStaged := g x }) := ⟨rfl, fun _ => rfl, fun _ => rfl⟩

/-- The staged recorders and mask tests. -/
theorem Run.onlyStaged_modDr (r : Run) (f : Recorder → Tab (Option DrRec)) (g : Recorder → Tab (Option MaskTest)) :
    r.OnlyStaged (r.modDr fun x => { x with staged := f x, masksStaged := g x }) := ⟨rfl, fun _ => rfl, fun _ => rfl⟩

/-! ### The form of a staging command -/

/-- A command row leaves what runs as it found it, or as its body left it, but for what a completion changes. -/
theorem runCmd_body {k : CmdSpec} {c : Cmd} {s t : State} {body : Accepted → Run → Run × Answer} (h : runCmd k c s body = .next t) :
    t.sys = s.sys ∧ ∃ r, (r = s.run ∨ ∃ a, r = (body a s.run).1) ∧ r.OnlyHost t.run := by
  unfold runCmd at h
  obtain ⟨-, e⟩ | ⟨a, -, ⟨rep, -, e⟩ | ⟨-, ⟨sys, r, hb, e⟩ | ⟨sys, r, rep, hb, ⟨-, e⟩ | ⟨-, e⟩⟩⟩⟩ :=
    runCommand_cases k c s _
  all_goals
    rw [e] at h
    cases h
  · exact ⟨rfl, s.run, .inl rfl, .refl _⟩
  · exact ⟨rfl, s.run, .inl rfl, Run.onlyHost_finish _ _ _ _⟩
  · simp only [Prod.mk.injEq] at hb
    obtain ⟨hsys, hr, -⟩ := hb
    exact ⟨hsys.symm, r, .inr ⟨a, hr.symm⟩, Run.onlyHost_started _ _ _⟩
  · exact ⟨rfl, s.run, .inl rfl, Run.onlyHost_finish _ _ _ _⟩
  · simp only [Prod.mk.injEq] at hb
    obtain ⟨hsys, hr, -⟩ := hb
    exact ⟨hsys.symm, r, .inr ⟨a, hr.symm⟩, Run.onlyHost_finish _ _ _ _⟩

/-- A staging command's row: whatever instance it names, its part for an instance only stages. -/
theorem runCmd_onlyStaged {k : CmdSpec} {c : Cmd} {s t : State} {f : Run → Nat → Run × Answer}
    (hf : ∀ n, s.run.OnlyStaged (f s.run n).1) (h : runCmd k c s (fun a r => onSubs a r (f r)) = .next t) :
    t.sys = s.sys ∧ s.run.OnlyStaged t.run := by
  obtain ⟨hsys, r, rfl | ⟨a, rfl⟩, hhost⟩ := runCmd_body h
  · exact ⟨hsys, hhost.staged⟩
  · refine ⟨hsys, .trans ?_ hhost.staged⟩
    unfold onSubs onTarget
    split
    · dsimp only
      split
      · exact .refl _
      · exact hf _
    · exact .refl _

/-- A part only stages if it leaves a state that does, whatever it answers. -/
theorem Run.OnlyStaged.answers {r r' : Run} {x : Answer} (h : r.OnlyStaged r') : r.OnlyStaged (r', x).1 := h

/-- A part that judges before it acts: a refusal changes nothing. -/
theorem Run.OnlyStaged.unlessRefused {r : Run} {x : Run × Answer} {p : Prop} [Decidable p] (st : Status)
    (h : r.OnlyStaged x.1) : r.OnlyStaged (if p then (r, .status st) else x).1 := by
  split
  · exact .refl r
  · exact h

/-! ### Subscriptions (R257) and Confluence's records (R301) -/

/-- A record that is staged goes into the table of its kind, whatever slots it takes; each refusal before that leaves no state. -/
theorem Run.stageSub_onlyStaged {r r' : Run} {goose : Bool} {n index i : Nat} {x y : SubRec}
    (h : r.stageSub goose n index x = .ok (r', i, y)) : r.OnlyStaged r' := by
  unfold Run.stageSub at h
  dsimp only at h
  iterate 4
    split at h
    · cases h
  split at h
  case' h_2 =>
    split at h
    · cases h
  all_goals
    cases h
    exact Run.onlyStaged_setStaged r goose _

theorem Run.onlyStaged_trimStaged (r : Run) (n : Nat) : r.OnlyStaged (r.trimStaged n) :=
  ⟨rfl, fun _ => rfl, fun _ => rfl⟩

theorem Run.subSet_onlyStaged (r : Run) (goose : Bool) (fn n index len : Nat) (x : SubRec) :
    r.OnlyStaged (r.subSet goose fn n index len x).1 := by
  unfold Run.subSet
  split
  · exact .refl r
  · split
    · exact .refl r
    · next hstage => exact (Run.stageSub_onlyStaged hstage).trans (Run.onlyStaged_trimStaged _ _)

theorem execSubSvSet_onlyStaged {c : Cmd} {index : Nat} {x : SvRec} {s t : State} (h : execSubSvSet c index x s = .next t) :
    t.sys = s.sys ∧ s.run.OnlyStaged t.run := by
  refine runCmd_onlyStaged (fun n => ?_) h
  split
  · exact .refl _
  · exact Run.subSet_onlyStaged _ _ _ _ _ _ _

theorem execSubGooseSet_onlyStaged {c : Cmd} {index : Nat} {x : GooseRec} {s t : State}
    (h : execSubGooseSet c index x s = .next t) : t.sys = s.sys ∧ s.run.OnlyStaged t.run := by
  refine runCmd_onlyStaged (fun n => ?_) h
  split
  · exact .refl _
  · exact Run.subSet_onlyStaged _ _ _ _ _ _ _

theorem execSubDelete_onlyStaged {c : Cmd} {kind index : Nat} {s t : State} (h : execSubDelete c kind index s = .next t) :
    t.sys = s.sys ∧ s.run.OnlyStaged t.run := by
  refine runCmd_onlyStaged (fun n => .unlessRefused _ ?_) h
  dsimp only
  split
  · exact .refl _
  · exact (Run.onlyStaged_setStaged _ _ _).trans (Run.onlyStaged_trimStaged _ _)

theorem execCflChanSet_onlyStaged {c : Cmd} {slot : Nat} {x : ChanRec} {s t : State} (h : execCflChanSet c slot x s = .next t) :
    t.sys = s.sys ∧ s.run.OnlyStaged t.run := by
  refine runCmd_onlyStaged (fun n => .unlessRefused _ ?_) h
  split
  · exact .answers (Run.onlyStaged_modCfl _ _ _)
  · exact .unlessRefused _ (.refl _)

theorem execCflStreamSet_onlyStaged {c : Cmd} {index : Nat} {x : StreamRec} {s t : State}
    (h : execCflStreamSet c index x s = .next t) : t.sys = s.sys ∧ s.run.OnlyStaged t.run := by
  refine runCmd_onlyStaged (fun n => .unlessRefused _ ?_) h
  split
  · exact .refl _
  · exact .answers (Run.onlyStaged_modCfl _ _ _)

/-! ### Images of a graph and of the CLE (R328, R330, R432) -/

/-- A verification counts uses of keys, whether or not the signature verifies. -/
theorem Run.verifyBundle_onlyStaged (r : Run) (n : Nat) (octets : List Nat) (sig : Nat) :
    r.OnlyStaged (r.verifyBundle n octets sig).1 := by
  unfold Run.verifyBundle
  dsimp only
  refine (r.onlyStaged_srmCount 1 (r.srm.signDenied n)).trans ?_
  split
  · exact Run.onlyStaged_srmCount _ _ _
  · split
    · exact .refl _
    · exact Run.onlyStaged_srmCount _ _ _

theorem execSlcGraphLoad_onlyStaged {c : Cmd} {octets : List Nat} {sig : Nat} {data : Graph} {s t : State}
    (h : execSlcGraphLoad c octets sig data s = .next t) : t.sys = s.sys ∧ s.run.OnlyStaged t.run := by
  refine runCmd_onlyStaged (fun n => (s.run.verifyBundle_onlyStaged n octets sig).trans (.unlessRefused _ ?_)) h
  split
  · exact .refl _
  · exact .answers (Run.onlyStaged_modSlc _ _ _)

theorem execSlcGraphUnload_onlyStaged {c : Cmd} {s t : State} (h : execSlcGraphUnload c s = .next t) :
    t.sys = s.sys ∧ s.run.OnlyStaged t.run :=
  runCmd_onlyStaged (fun n => s.run.onlyStaged_modSlc n _) h

theorem execCleProgLoad_onlyStaged {c : Cmd} {octets : List Nat} {sig : Nat} {image : CleImage} {s t : State}
    (h : execCleProgLoad c octets sig image s = .next t) : t.sys = s.sys ∧ s.run.OnlyStaged t.run :=
  runCmd_onlyStaged (fun n => (s.run.verifyBundle_onlyStaged n octets sig).trans
    (.unlessRefused _ (.unlessRefused _ (Run.onlyStaged_modCleInst _ _ _)))) h

theorem execCleProgUnload_onlyStaged {c : Cmd} {s t : State} (h : execCleProgUnload c s = .next t) :
    t.sys = s.sys ∧ s.run.OnlyStaged t.run :=
  runCmd_onlyStaged (fun n => s.run.onlyStaged_modCleInst n _) h

/-! ### Loops (R474, R476), publications (R481, R485, R511) and recorders (R516, R527) -/

theorem execMlrLoopSet_onlyStaged {c : Cmd} {index : Nat} {x : LoopRec} {s t : State} (h : execMlrLoopSet c index x s = .next t) :
    t.sys = s.sys ∧ s.run.OnlyStaged t.run := by
  refine runCmd_onlyStaged (fun n => .unlessRefused _ ?_) h
  split
  · exact .refl _
  · exact .answers (Run.onlyStaged_modMlr _ _)

theorem execMlrLoopDelete_onlyStaged {c : Cmd} {index : Nat} {s t : State} (h : execMlrLoopDelete c index s = .next t) :
    t.sys = s.sys ∧ s.run.OnlyStaged t.run := by
  refine runCmd_onlyStaged (fun n => ?_) h
  split
  · exact .answers (Run.onlyStaged_modMlr _ _)
  · exact .refl _

theorem execPubGooseSet_onlyStaged {c : Cmd} {index : Nat} {x : GoosePub} {s t : State}
    (h : execPubGooseSet c index x s = .next t) : t.sys = s.sys ∧ s.run.OnlyStaged t.run := by
  refine runCmd_onlyStaged (fun n => .unlessRefused _ (.unlessRefused _ ?_)) h
  split
  · exact .refl _
  · exact .answers (Run.onlyStaged_modTrip _ _ _)

theorem execPubSvSet_onlyStaged {c : Cmd} {index : Nat} {x : SvPub} {s t : State} (h : execPubSvSet c index x s = .next t) :
    t.sys = s.sys ∧ s.run.OnlyStaged t.run := by
  refine runCmd_onlyStaged (fun n => .unlessRefused _ (.unlessRefused _ ?_)) h
  split
  · exact .refl _
  · exact .answers (Run.onlyStaged_modTrip _ _ _)

theorem execPubDelete_onlyStaged {c : Cmd} {kind index : Nat} {s t : State} (h : execPubDelete c kind index s = .next t) :
    t.sys = s.sys ∧ s.run.OnlyStaged t.run := by
  refine runCmd_onlyStaged (fun n => ?_) h
  split
  · exact .answers (Run.onlyStaged_modTrip _ _ _)
  · split
    · exact .answers (Run.onlyStaged_modTrip _ _ _)
    · exact .refl _

theorem execDrcSet_onlyStaged {c : Cmd} {index : Nat} {x : DrRec} {s t : State} (h : execDrcSet c index x s = .next t) :
    t.sys = s.sys ∧ s.run.OnlyStaged t.run :=
  runCmd_onlyStaged (fun _ => .unlessRefused _ (.answers (Run.onlyStaged_modDr _ _ _))) h

theorem execDrcDelete_onlyStaged {c : Cmd} {index : Nat} {s t : State} (h : execDrcDelete c index s = .next t) :
    t.sys = s.sys ∧ s.run.OnlyStaged t.run := by
  refine runCmd_onlyStaged (fun n => ?_) h
  split
  · exact .answers (Run.onlyStaged_modDr _ _ _)
  · exact .refl _

theorem execDrcMaskSet_onlyStaged {c : Cmd} {index test chan : Nat} {points : List (Int × Word × Word)} {s t : State}
    (h : execDrcMaskSet c index test chan points s = .next t) : t.sys = s.sys ∧ s.run.OnlyStaged t.run := by
  refine runCmd_onlyStaged (fun n => ?_) h
  dsimp only
  split
  · exact .refl _
  · exact .unlessRefused _ (.answers (Run.onlyStaged_modDr _ _ _))

/-- Settles O50, row by row. -/
theorem stagingCommandsOnlyStage : Obligations.StagingCommandsOnlyStage := by
  intro i s t hi h
  cases i with
  | subSvSet c index x => exact execSubSvSet_onlyStaged h
  | subGooseSet c index x => exact execSubGooseSet_onlyStaged h
  | subDelete c kind index => exact execSubDelete_onlyStaged h
  | cflChanSet c slot x => exact execCflChanSet_onlyStaged h
  | cflStreamSet c index x => exact execCflStreamSet_onlyStaged h
  | slcGraphLoad c octets sig data => exact execSlcGraphLoad_onlyStaged h
  | slcGraphUnload c => exact execSlcGraphUnload_onlyStaged h
  | cleProgLoad c octets sig image => exact execCleProgLoad_onlyStaged h
  | cleProgUnload c => exact execCleProgUnload_onlyStaged h
  | mlrLoopSet c index x => exact execMlrLoopSet_onlyStaged h
  | mlrLoopDelete c index => exact execMlrLoopDelete_onlyStaged h
  | pubGooseSet c index x => exact execPubGooseSet_onlyStaged h
  | pubSvSet c index x => exact execPubSvSet_onlyStaged h
  | pubDelete c kind index => exact execPubDelete_onlyStaged h
  | drcSet c index x => exact execDrcSet_onlyStaged h
  | drcDelete c index => exact execDrcDelete_onlyStaged h
  | drcMaskSet c index test chan points => exact execDrcMaskSet_onlyStaged h
  | _ => cases hi

end Sys2Proof.Machine
end

section
/-! The Sluice and group commands (R311, R316, R323, R328, R332, R410, R416, R688). -/

namespace Sys2Proof.Machine

/-! ### The staged graph (R323, R328, R332) -/

/-- An image without a defect is staged if its signature verifies; the uses of keys count either way. -/
theorem exec_slcGraphLoad (s : State) {c : Cmd} {a : Accepted} {n sig : Nat} {octets : List Nat} {data : Graph}
    (h : s.Ready { op := 0x0700, pf0 := false, buf := true, need := some octets.length } c a) (ht : a.target = some n)
    (hp : (s.run.inst n).phase ≠ .free) :
    let image := readImage octets data
    imageDefect image = none →
    exec (.slcGraphLoad c octets sig data) s =
      .next (match s.run.verifyBundle n octets sig with
        | (r, true) => s.done c (r.modSlc n fun x => { x with staged := some (some image) })
            { result := [(image.nodes.length : Int), (image.edges.length : Int)] }
        | (r, false) => s.done c r { status := .auth }) := by
  intro image hsound
  change execSlcGraphLoad c octets sig data s = _
  cases hverify : s.run.verifyBundle n octets sig with | mk r ok
  cases ok with
  | true =>
    refine runCmd_done _ c s _ a _ _ h ?_ (.inl rfl)
    rw [onSubs_exists _ ht hp]
    simp only [hverify, Bool.not_true, Bool.false_eq_true, if_false]
    rw [hsound]
  | false =>
    refine runCmd_done _ c s _ a _ _ h ?_ (.inl rfl)
    rw [onSubs_exists _ ht hp]
    simp only [hverify, Bool.not_false, if_true, Answer.status]

theorem exec_slcGraphUnload (s : State) {c : Cmd} {a : Accepted} {n : Nat} (h : s.Ready { op := 0x0701, pf0 := false } c a)
    (ht : a.target = some n) (hp : (s.run.inst n).phase ≠ .free) :
    exec (.slcGraphUnload c) s = .next (s.done c (s.run.modSlc n fun x => { x with staged := some none }) {}) := by
  change execSlcGraphUnload c s = _
  exact runCmd_done _ c s _ a _ {} h (onSubs_exists _ ht hp) (.inl rfl)

/-- The admission run of what a commit would leave, and its report. -/
theorem exec_slcAdmitCheck (s : State) {c : Cmd} {a : Accepted} {n : Nat} (h : s.Ready { op := 0x0702, pf0 := false } c a)
    (ht : a.target = some n) (hp : (s.run.inst n).phase ≠ .free) :
    let t := s.run.trialOf n
    let x := t.1.admission (some (n, t.2))
    let bounds : List Nat := x.bounds.flatMap (·.2)
    let ids : List Nat := (t.1.coveredAll (some (n, t.2))).flatMap fun y => y.graph.chains.map fun z => chainObject z.ident
    24 * x.refusals.length + 16 * bounds.length ≤ a.entry.bufLen → c.bufErr = false →
    exec (.slcAdmitCheck c) s =
      .next (s.done c s.run {
        status := x.status
        result := match x.refusals with | y :: _ => y.fields | [] => []
        buffer := x.refusals.flatMap (·.fields) ++ (ids.zip bounds).flatMap fun e => [(e.1 : Int), ((e.2 : Nat) : Int)]
        bufLen := 24 * x.refusals.length + 16 * bounds.length }) := by
  intro t x bounds ids hlen hbuf
  change execSlcAdmitCheck c s = _
  exact runCmd_done _ c s _ a _ _ h (onSubs_exists _ ht hp) (.inr ⟨hlen, hbuf⟩)

/-! ### Nodes, triggers and chains (R311, R316, R332, R688) -/

/-- The reply is the state that the cancel found. -/
theorem exec_slcCancel (s : State) {c : Cmd} {a : Accepted} {n node : Nat} {x : NodeSt} (h : s.Ready { op := 0x0703, pf0 := false } c a)
    (ht : a.target = some n) (hp : (s.run.inst n).phase ≠ .free) (hnode : (s.run.slcOf n).nodes[node]? = some x) :
    exec (.slcCancel c node) s =
      .next (s.done c ((s.run.sluiceCycle [] [(n, node)]).cancelledLoops s.run.slc.flights) { result := [(x.phase.code : Int)] }) := by
  change execSlcCancel c node s = _
  refine runCmd_done _ c s _ a _ _ h ?_ (.inl rfl)
  rw [onSubs_exists _ ht hp]
  simp only [hnode]

/-- A binding of kind 0x05 whose last accepted trigger, if it has one, is at least the declared interval ago. -/
theorem exec_slcTrigger (s : State) {c : Cmd} {a : Accepted} {n bind : Nat} {b : GBind} (h : s.Ready { op := 0x0704, pf0 := false } c a)
    (ht : a.target = some n) (hactive : (s.run.inst n).phase = .active) (hbind : (s.run.slcOf n).g.binds[bind]? = some b)
    (hkind : b.kind = 5) (hsoon : ∀ t, tabGet (s.run.slcOf n).triggers bind = some t → t + b.param * 10000 ≤ s.run.now) :
    exec (.slcTrigger c bind) s =
      .next (s.done c ((s.run.modSlc n fun x => { x with triggers := tabSet x.triggers bind s.run.now }).fire n fun k _ => k == bind)
        {}) := by
  have hp : (s.run.inst n).phase ≠ .free := by rw [hactive]; decide
  change execSlcTrigger c bind s = _
  refine runCmd_done _ c s _ a _ {} h ?_ (.inl rfl)
  rw [onSubs_exists _ ht hp, if_neg (not_not_intro hactive)]
  simp only [hbind, hkind, ne_eq, not_true_eq_false, if_false]
  cases hlast : tabGet (s.run.slcOf n).triggers bind with
  | none => simp only [Bool.false_eq_true, if_false, Answer.ok]
  | some t => simp only [decide_eq_true_eq, if_neg (Nat.not_lt.mpr (hsoon t hlast)), Answer.ok]

theorem exec_slcNodeRead (s : State) {c : Cmd} {a : Accepted} {n node : Nat} {x : NodeSt}
    (h : s.Ready { op := 0x0705, pf0 := false } c a) (ht : a.target = some n) (hp : (s.run.inst n).phase ≠ .free)
    (hnode : (s.run.slcOf n).nodes[node]? = some x) :
    exec (.slcNodeRead c node) s =
      .next (s.done c s.run { result := [(x.status : Int), x.nstat, x.flags.toNat, x.jobs, x.overruns] }) := by
  change execSlcNodeRead c node s = _
  refine runCmd_done _ c s _ a _ _ h ?_ (.inl rfl)
  rw [onSubs_exists _ ht hp]
  simp only [hnode]

theorem exec_slcChainRead (s : State) {c : Cmd} {a : Accepted} {n ident k : Nat} {z : ChainSt}
    (h : s.Ready { op := 0x0706, pf0 := false } c a) (ht : a.target = some n) (hp : (s.run.inst n).phase ≠ .free)
    (hfind : ((s.run.slcOf n).g.chains.findIdx? fun z => z.ident == ident) = some k) (hchain : (s.run.slcOf n).chains[k]? = some z) :
    exec (.slcChainRead c ident) s = .next (s.done c s.run { result := [(z.bound : Int), z.largest, z.measured] }) := by
  change execSlcChainRead c ident s = _
  refine runCmd_done _ c s _ a _ _ h ?_ (.inl rfl)
  rw [onSubs_exists _ ht hp]
  simp only [hfind, hchain]

/-! ### Group selectors (R410, R416) -/

/-- A command on a selector that the instance has. -/
theorem onSelector_has {a : Accepted} {r : Run} {n sel : Nat} {z : Selector} (f : Nat → Selector → Run × Answer)
    (ht : a.target = some n) (hp : (r.inst n).phase ≠ .free) (hsel : (r.slcOf n).sels[sel]? = some z) :
    onSelector a sel r f = f n z := by
  rw [onSelector, onSubs_exists _ ht hp]
  simp only [hsel]

/-- A group that the selector allows. -/
theorem exec_grpForce (s : State) {c : Cmd} {a : Accepted} {n sel group : Nat} {z : Selector}
    (h : s.Ready { op := 0x0707, pf0 := false } c a) (ht : a.target = some n) (hp : (s.run.inst n).phase ≠ .free)
    (hsel : (s.run.slcOf n).sels[sel]? = some z) (hgroup : group < 8)
    (hallowed : ((((s.run.slcOf n).g.sels[sel]?).getD {}).allowed.testBit group) = true) :
    exec (.grpForce c sel group) s =
      .next (s.done c ((s.run.modSlc n fun x =>
        { x with sels := modAt x.sels sel fun z => { z with forced := some group, released := false } }).noteMirror (.groups n)) {}) := by
  change execGrpForce c sel group s = _
  refine runCmd_done _ c s _ a _ {} h ?_ (.inl rfl)
  rw [onSelector_has _ ht hp hsel]
  simp only [Nat.not_le.mpr hgroup, hallowed, Bool.not_true, Bool.false_eq_true, or_self, if_false, Answer.ok]

theorem exec_grpRelease (s : State) {c : Cmd} {a : Accepted} {n sel : Nat} {z : Selector}
    (h : s.Ready { op := 0x0708, pf0 := false } c a) (ht : a.target = some n) (hp : (s.run.inst n).phase ≠ .free)
    (hsel : (s.run.slcOf n).sels[sel]? = some z) :
    exec (.grpRelease c sel) s =
      .next (s.done c ((s.run.modSlc n fun x =>
        { x with sels := modAt x.sels sel fun z => { z with
            forced := none, released := z.forced.isSome && z.request.isSome && z.request != some z.active } }).noteMirror (.groups n))
        {}) := by
  change execGrpRelease c sel s = _
  exact runCmd_done _ c s _ a _ {} h (onSelector_has _ ht hp hsel) (.inl rfl)

/-- The seconds since a change that has not been are a free value. -/
theorem exec_grpQuery (s : State) {c : Cmd} {a : Accepted} {n : Nat} (h : s.Ready { op := 0x0709, pf0 := false } c a)
    (ht : a.target = some n) (hp : (s.run.inst n).phase ≠ .free) :
    exec (.grpQuery c) s =
      .next (s.done c (s.run.takeFree 32).2 { result := (s.run.slcOf n).sels.flatMap fun z =>
        [(z.active : Int), if z.forced.isSome then 1 else 0, ((z.request.getD 0xFF : Nat) : Int),
         match z.changedAt with
         | some t => ((min ((s.run.now - t) / 1000000000) (2 ^ 32 - 1) : Nat) : Int)
         | none => ((s.run.takeFree 32).1.toNat : Int)] }) := by
  change execGrpQuery c s = _
  exact runCmd_done _ c s _ a _ _ h (onSubs_exists _ ht hp) (.inl rfl)

/-- Settles O27, row by row. -/
theorem sluiceCommandsComplete : Obligations.SluiceCommandsComplete :=
  ⟨fun s _ _ _ _ _ _ => exec_slcGraphLoad s, fun s _ _ _ => exec_slcGraphUnload s, fun s _ _ _ => exec_slcAdmitCheck s,
    fun s _ _ _ _ _ => exec_slcCancel s, fun s _ _ _ _ _ => exec_slcTrigger s, fun s _ _ _ _ _ => exec_slcNodeRead s,
    fun s _ _ _ _ _ _ => exec_slcChainRead s, fun s _ _ _ _ _ _ => exec_grpForce s, fun s _ _ _ _ _ => exec_grpRelease s,
    fun s _ _ _ => exec_grpQuery s⟩

end Sys2Proof.Machine
end

section
/-! The cyclic logic engine: its cycles, checkpoints and commands, and the octets that CLE_VAR_WRITE stores (R423, R432, R438 to R447,
R453). -/

namespace Sys2Proof.Machine

/-! ### Tasks among the others -/

/-- What changes the host functions and the like only changes no task. -/
theorem Run.OnlyHost.task {a b : Run} (h : a.OnlyHost b) (n i : Nat) : b.task n i = a.task n i := by
  unfold Run.OnlyHost at h
  rw [h]
  rfl

/-- A command that completes leaves the tasks as its effect left them. -/
theorem State.done_task (s : State) (c : Cmd) (r : Run) (rep : Reply) (n i : Nat) : (s.done c r rep).run.task n i = r.task n i :=
  (Run.onlyHost_finish r c.fn c.cseq rep).task n i

theorem Run.task_modTask_self {r : Run} {n i : Nat} {t : TaskSt} (f : TaskSt → TaskSt) (h : r.task n i = some t) :
    (r.modTask n i f).task n i = some (f t) := by
  simp only [Run.modTask, h]
  rw [Run.task, Run.cleOf_modCleInst, if_pos rfl, tabGet_tabSet_self]

theorem Run.task_modTask_ne (r : Run) {n i m j : Nat} (f : TaskSt → TaskSt) (h : ¬ (m = n ∧ j = i)) :
    (r.modTask n i f).task m j = r.task m j := by
  unfold Run.modTask
  split
  · rw [Run.task, Run.cleOf_modCleInst]
    split
    · next hm =>
      subst hm
      exact tabGet_tabSet_ne _ _ _ _ fun hj => h ⟨rfl, hj⟩
    · rfl
  · rfl

/-- What waits to be mirrored is no part of a task. -/
theorem Run.task_noteMirror (r : Run) (k : MirrorKey) (m j : Nat) : (r.noteMirror k).task m j = r.task m j := by
  unfold Run.noteMirror
  split <;> rfl

/-- A fold whose steps leave a task leaves it. -/
theorem Run.task_foldl {α : Type} (l : List α) {g : Run → α → Run} {m j : Nat}
    (hg : ∀ r x, (g r x).task m j = r.task m j) (r : Run) : (l.foldl g r).task m j = r.task m j :=
  List.foldlRecOn (motive := fun r' => r'.task m j = r.task m j) l g rfl fun r' hr x _ => (hg r' x).trans hr

theorem Run.task_mirrorVars (r : Run) (n i : Nat) (old new : Tab Nat) (m j : Nat) :
    (r.mirrorVars n i old new).task m j = r.task m j := by
  unfold Run.mirrorVars
  split
  · rfl
  · refine Run.task_foldl _ (fun r₁ v => Run.task_foldl _ (fun r₂ p => ?_) r₁) r
    dsimp only
    split
    · rfl
    · exact Run.task_noteMirror _ _ _ _

/-! ### Octets in a VA (R453) -/

theorem tabGet_tabDel {α : Type} (t : Tab α) (k j : Nat) : tabGet (tabDel t k) j = if j = k then none else tabGet t j := by
  induction t with
  | nil => simp [tabDel, tabGet]
  | cons e t ih =>
    obtain ⟨k', v⟩ := e
    unfold tabDel at ih ⊢
    by_cases hk : k' = k
    · subst hk
      simp only [List.filter_cons, bne_self_eq_false, Bool.false_eq_true, if_false, ih, tabGet]
      split <;> rfl
    · simp only [List.filter_cons, bne_iff_ne, ne_eq, hk, not_false_eq_true, if_true, tabGet, ih]
      split
      · next hj => rw [if_neg (hj ▸ hk)]
      · rfl

/-- An entry that equals the default reads the same whether it stands in the table or not. -/
theorem tabGetD_tabPut {α : Type} [DecidableEq α] (t : Tab α) (k j : Nat) (v d : α) :
    tabGetD (tabPut t k v d) j d = if j = k then v else tabGetD t j d := by
  unfold tabPut
  split
  · next hv =>
    rw [tabGetD, tabGet_tabDel]
    split
    · rw [hv, Option.getD_none]
    · rfl
  · exact tabGetD_tabSet t k j v d

/-- A VA into which the first `n` values of `f` have been stored from `addr` on. -/
theorem tabGetD_foldl_tabPut (va : Tab Nat) (addr : Nat) (f : Nat → Nat) (n x : Nat) :
    tabGetD ((List.range n).foldl (fun (v : Tab Nat) k => tabPut v (addr + k) (f k) 0) va) x 0 =
      if addr ≤ x ∧ x < addr + n then f (x - addr) else tabGetD va x 0 := by
  induction n with
  | zero =>
    rw [if_neg (by omega)]
    rfl
  | succ n ih =>
    rw [List.range_succ, List.foldl_append, List.foldl_cons, List.foldl_nil, tabGetD_tabPut, ih]
    by_cases hx : x = addr + n
    · rw [if_pos hx, if_pos (by omega), hx, Nat.add_sub_cancel_left]
    · rw [if_neg hx]
      exact if_congr (by omega) rfl rfl

/-- The VA of a task after `Run.cleStore`. -/
def vaStored (va : Tab Nat) (addr : Nat) (octets : List Byte) : Tab Nat :=
  (List.range octets.length).foldl (fun (v : Tab Nat) k => tabPut v (addr + k) (octets.getD k 0).toNat 0) va

theorem vaStored_inside (va : Tab Nat) (addr : Nat) {octets : List Byte} {k : Nat} (h : k < octets.length) :
    tabGetD (vaStored va addr octets) (addr + k) 0 = (octets[k]).toNat := by
  rw [vaStored, tabGetD_foldl_tabPut va addr fun k => (octets.getD k 0).toNat, if_pos (by omega), Nat.add_sub_cancel_left,
    List.getD_eq_getElem _ _ h]

theorem vaStored_outside (va : Tab Nat) {addr : Nat} {octets : List Byte} {x : Nat} (h : x < addr ∨ addr + octets.length ≤ x) :
    tabGetD (vaStored va addr octets) x 0 = tabGetD va x 0 := by
  rw [vaStored, tabGetD_foldl_tabPut va addr fun k => (octets.getD k 0).toNat, if_neg (by omega)]

theorem Run.task_cleStore_self {r : Run} {n i addr : Nat} {octets : List Byte} {t : TaskSt} (h : r.task n i = some t) :
    (r.cleStore n i addr octets).task n i = some { t with va := vaStored t.va addr octets } := by
  simp only [Run.cleStore, h]
  exact Run.task_modTask_self _ ((Run.task_mirrorVars _ _ _ _ _ _ _).trans h)

theorem Run.task_cleStore_ne (r : Run) {n i m j : Nat} (addr : Nat) (octets : List Byte) (h : ¬ (m = n ∧ j = i)) :
    (r.cleStore n i addr octets).task m j = r.task m j := by
  unfold Run.cleStore
  split
  · rfl
  · exact (Run.task_modTask_ne _ _ h).trans (Run.task_mirrorVars _ _ _ _ _ _ _)

/-! ### Cycles, empty jobs and checkpoints (R423, R438, R440, R443, R447) -/

theorem exec_cleCycle (s : State) {n i : Nat} (dt : Nat) {f : Flight} {x : CycleRes} (h : s.Running)
    (hflight : (s.run.pass dt).taskFlight n i = some f) (hcycle : (s.run.pass dt).cycleOf n i f = some x) (hfate : x.fate = .ended)
    (hdone : (s.run.pass dt).engineDone f x.cost = true) :
    exec (.cleCycle n i dt) s = .next (s.ran ((s.run.pass dt).cycleEnds n i f x)) := by
  change execCleCycle n i dt s = _
  rw [execCleCycle, whenRunning_running s _ h]
  simp only [hflight, hcycle, if_pos (And.intro hfate hdone)]

theorem exec_cleCycleFault (s : State) {n i : Nat} (dt : Nat) {f : Flight} {x : CycleRes} (h : s.Running)
    (hflight : (s.run.pass dt).taskFlight n i = some f) (hcycle : (s.run.pass dt).cycleOf n i f = some x) (hfate : x.fate ≠ .ended)
    (hdone : (s.run.pass dt).engineDone f x.cost = true) :
    exec (.cleCycleFault n i dt) s = .next (s.ran ((s.run.pass dt).cycleFaults n i f x)) := by
  change execCleCycleFault n i dt s = _
  rw [execCleCycleFault, whenRunning_running s _ h]
  simp only [hflight, hcycle, if_pos (And.intro hfate hdone)]

/-- A release that runs no cycle holds no image, and its job ends after 8 engine cycles. -/
theorem exec_cleEmptyJob (s : State) {n i : Nat} (dt : Nat) {f : Flight} {t : TaskSt} (h : s.Running)
    (hflight : (s.run.pass dt).taskFlight n i = some f) (htask : (s.run.pass dt).task n i = some t) (himage : t.image = none)
    (hdone : (s.run.pass dt).engineDone f 8 = true) :
    exec (.cleEmptyJob n i dt) s = .next (s.ran ((s.run.pass dt).emptyJob n i f)) := by
  change execCleEmptyJob n i dt s = _
  rw [execCleEmptyJob, whenRunning_running s _ h]
  simp only [hflight, htask, himage, hdone, Option.isNone_none, and_self, if_true]

theorem exec_retainCheckpoint (s : State) (dt : Nat) (h : s.Running) (hsecond : (s.run.pass dt).passed 1000000000 0 = true)
    (haway : s.run.flt.hkpAway = false) (hdead : s.run.flt.hkpDead = false) :
    exec (.retainCheckpoint dt) s = .next (s.ran (s.run.pass dt).checkpoints) := by
  change execRetainCheckpoint dt s = _
  rw [execRetainCheckpoint, whenRunning_running s _ h]
  simp only [hsecond, Run.pass_flt, haway, hdead, Bool.not_false, and_self, if_true]

/-- Settles O28, event by event. -/
theorem cleEventsComplete : Obligations.CleEventsComplete :=
  ⟨fun s _ _ dt _ _ => exec_cleCycle s dt, fun s _ _ dt _ _ => exec_cleCycleFault s dt, fun s _ _ dt _ _ => exec_cleEmptyJob s dt,
    exec_retainCheckpoint⟩

/-! ### The image of the tasks (R432, R453) -/

/-- A sound image is staged if its signature verifies; the uses of keys count either way. -/
theorem exec_cleProgLoad (s : State) {c : Cmd} {a : Accepted} {n sig : Nat} {octets : List Nat} {image : CleImage}
    (h : s.Ready { op := 0x0800, pf0 := false, buf := true, need := some octets.length } c a) (ht : a.target = some n)
    (hp : (s.run.inst n).phase ≠ .free) (hsound : image.ok = true) :
    exec (.cleProgLoad c octets sig image) s =
      .next (match s.run.verifyBundle n octets sig with
        | (r, true) => s.done c (r.modCleInst n fun x => { x with staged := some (some image) })
            { result := [(image.tasks.length : Int), (image.units : Int)] }
        | (r, false) => s.done c r { status := .auth }) := by
  change execCleProgLoad c octets sig image s = _
  cases hverify : s.run.verifyBundle n octets sig with | mk r ok
  cases ok with
  | true =>
    refine runCmd_done _ c s _ a _ _ h ?_ (.inl rfl)
    rw [onSubs_exists _ ht hp]
    simp only [hverify, hsound, Bool.not_true, Bool.false_eq_true, if_false]
  | false =>
    refine runCmd_done _ c s _ a _ _ h ?_ (.inl rfl)
    rw [onSubs_exists _ ht hp]
    simp only [hverify, Bool.not_false, if_true, Answer.status]

theorem exec_cleProgUnload (s : State) {c : Cmd} {a : Accepted} {n : Nat} (h : s.Ready { op := 0x0801, pf0 := false } c a)
    (ht : a.target = some n) (hp : (s.run.inst n).phase ≠ .free) :
    exec (.cleProgUnload c) s = .next (s.done c (s.run.modCleInst n fun x => { x with staged := some none }) {}) := by
  change execCleProgUnload c s = _
  exact runCmd_done _ c s _ a _ {} h (onSubs_exists _ ht hp) (.inl rfl)

/-! ### Commands on a task (R444 to R446, R453) -/

/-- A command on a task that the instance has. -/
theorem onTask_has {a : Accepted} {r : Run} {n index : Nat} {t : TaskSt} (f : Nat → TaskSt → Run × Answer)
    (ht : a.target = some n) (hp : (r.inst n).phase ≠ .free) (htask : r.task n index = some t) : onTask a index r f = f n t := by
  rw [onTask, onSubs_exists _ ht hp]
  simp only [htask]

section OnTask

variable (s : State) {c : Cmd} {a : Accepted} {n index : Nat} {t : TaskSt}

/-- During a cycle the command waits for its end, and what waits before it may yet bring the mode it needs; between cycles the
transition is one of Table 12.8 and takes effect at once. -/
theorem exec_cleTaskMode {mode : Nat} {m : TaskMode} (h : s.Ready { op := 0x0802, pf0 := false } c a) (ht : a.target = some n)
    (hp : (s.run.inst n).phase ≠ .free) (htask : s.run.task n index = some t) (hmode : modeOf mode = some m)
    (hhold : m = .hold → t.task.supervisory = true) (hmay : t.mode.may m = true ∨ (t.image.isSome = true ∧ t.wait ≠ [])) :
    exec (.cleTaskMode c index mode) s =
      .next (if t.image.isSome then
          s.waits c (s.run.modTask n index fun t => { t with wait := t.wait ++ [{ fn := c.fn, cseq := c.cseq, ask := .mode m }] })
        else s.done c (s.run.cleMode n index m) {}) := by
  have hclass : ¬ (m = .hold ∧ (!t.task.supervisory) = true) := by
    rintro ⟨hm, hprot⟩
    rw [hhold hm] at hprot
    exact absurd hprot Bool.false_ne_true
  change execCleTaskMode c index mode s = _
  by_cases hcycle : t.image.isSome = true
  · have hstate : ¬ (t.wait.isEmpty = true ∧ (!t.mode.may m) = true) := by
      rintro ⟨hempty, hnot⟩
      obtain hmay | ⟨-, hwait⟩ := hmay
      · rw [hmay] at hnot
        exact absurd hnot Bool.false_ne_true
      · exact hwait (List.isEmpty_iff.mp hempty)
    rw [if_pos hcycle]
    refine runCmd_wait _ c s _ a _ h ?_
    rw [onTask_has _ ht hp htask]
    simp only [hmode, if_neg hclass, if_pos hcycle, if_neg hstate]
  · have hmay' : t.mode.may m = true := hmay.resolve_right fun hwait => hcycle hwait.1
    rw [if_neg hcycle]
    refine runCmd_done _ c s _ a _ {} h ?_ (.inl rfl)
    rw [onTask_has _ ht hp htask]
    simp only [hmode, if_neg hclass, if_neg hcycle, if_pos hmay', Answer.ok]

theorem exec_cleTaskStart {warm : Bool} (h : s.Ready { op := 0x0803, pf0 := false } c a) (ht : a.target = some n)
    (hp : (s.run.inst n).phase ≠ .free) (htask : s.run.task n index = some t) (hmode : t.mode = .stop ∨ t.mode = .halted) :
    exec (.cleTaskStart c index warm) s = .next (s.done c (s.run.cleStart n index warm) {}) := by
  change execCleTaskStart c index warm s = _
  refine runCmd_done _ c s _ a _ {} h ?_ (.inl rfl)
  rw [onTask_has _ ht hp htask, if_pos hmode]
  rfl

/-- A step of a task in HOLD that has no other step waits for the cycle of the next release. -/
theorem exec_cleTaskStep (h : s.Ready { op := 0x0804, pf0 := false } c a) (ht : a.target = some n)
    (hp : (s.run.inst n).phase ≠ .free) (htask : s.run.task n index = some t) (hmode : t.mode = .hold) (hstep : t.step = none) :
    exec (.cleTaskStep c index) s =
      .next (s.waits c (s.run.modTask n index fun t => { t with step := some (c.fn, c.cseq) })) := by
  change execCleTaskStep c index s = _
  refine runCmd_wait _ c s _ a _ h ?_
  rw [onTask_has _ ht hp htask, if_neg (not_not_intro hmode), hstep]
  rfl

theorem exec_cleVarRead {addr len : Nat} (h : s.Ready { op := 0x0805, pf0 := false } c a) (ht : a.target = some n)
    (hp : (s.run.inst n).phase ≠ .free) (htask : s.run.task n index = some t) (hspan : spanOk t.task addr len = true)
    (hlen : len ≤ a.entry.bufLen) (hbuf : c.bufErr = false) :
    exec (.cleVarRead c index addr len) s =
      .next (s.done c s.run { buffer := (List.range len).map fun k => ((tabGetD t.va (addr + k) 0 : Nat) : Int), bufLen := len }) := by
  change execCleVarRead c index addr len s = _
  refine runCmd_done _ c s _ a _ _ h ?_ (.inr ⟨hlen, hbuf⟩)
  rw [onTask_has _ ht hp htask, if_pos hspan]

theorem TaskSt.writable_iff (t : TaskSt) :
    t.writable = true ↔ t.mode = .stop ∨ (t.mode = .hold ∧ t.task.supervisory = true) := by
  simp only [TaskSt.writable, Bool.or_eq_true, Bool.and_eq_true, beq_iff_eq]

/-- A write that lies in variables waits for the end of a cycle that is under way, and stores its octets at once between cycles. -/
theorem exec_cleVarWrite {addr : Nat} {octets : List Byte}
    (h : s.Ready { op := 0x0806, pf0 := false, buf := true, need := some octets.length } c a) (ht : a.target = some n)
    (hp : (s.run.inst n).phase ≠ .free) (htask : s.run.task n index = some t)
    (hmode : t.mode = .stop ∨ (t.mode = .hold ∧ t.task.supervisory = true)) (hspan : spanOk t.task addr octets.length = true)
    (hvars : ∀ k < octets.length,
      (t.task.vars.any fun v => decide (v.addr ≤ addr + k) && decide (addr + k < v.addr + v.size)) = true) :
    exec (.cleVarWrite c index addr octets) s =
      .next (if t.image.isSome then
          s.waits c (s.run.modTask n index fun t =>
            { t with wait := t.wait ++ [{ fn := c.fn, cseq := c.cseq, ask := .write addr octets }] })
        else s.done c (s.run.cleStore n index addr octets) {}) := by
  have hwritable : t.writable = true := t.writable_iff.mpr hmode
  have hinside : ((List.range octets.length).all fun k =>
      t.task.vars.any fun v => decide (v.addr ≤ addr + k) && decide (addr + k < v.addr + v.size)) = true :=
    List.all_eq_true.mpr fun k hk => hvars k (List.mem_range.mp hk)
  change execCleVarWrite c index addr octets s = _
  by_cases hcycle : t.image.isSome = true
  · rw [if_pos hcycle]
    refine runCmd_wait _ c s _ a _ h ?_
    rw [onTask_has _ ht hp htask]
    simp only [hwritable, hspan, hinside, hcycle, Bool.not_true, Bool.false_eq_true, or_self, if_false, if_true]
  · rw [if_neg hcycle]
    refine runCmd_done _ c s _ a _ {} h ?_ (.inl rfl)
    rw [onTask_has _ ht hp htask]
    simp only [hwritable, hspan, hinside, if_neg hcycle, Bool.not_true, Bool.false_eq_true, or_self, if_false, Answer.ok]

theorem exec_cleTaskRead (h : s.Ready { op := 0x0807, pf0 := false } c a) (ht : a.target = some n)
    (hp : (s.run.inst n).phase ≠ .free) (htask : s.run.task n index = some t) :
    exec (.cleTaskRead c index) s =
      .next (s.done c s.run { result := [(t.mode.code : Int), if t.task.supervisory then 1 else 0, (t.task.engine : Int),
        (t.lastFault : Int), (t.cycleNo : Int), (t.dev : Int), (t.longest : Int)] }) := by
  change execCleTaskRead c index s = _
  exact runCmd_done _ c s _ a _ _ h (onTask_has _ ht hp htask) (.inl rfl)

end OnTask

/-- Settles O29, row by row. -/
theorem cleCommandsComplete : Obligations.CleCommandsComplete :=
  ⟨fun s _ _ _ _ _ _ => exec_cleProgLoad s, fun s _ _ _ => exec_cleProgUnload s, fun s _ _ _ _ _ _ _ => exec_cleTaskMode s,
    fun s _ _ _ _ _ _ => exec_cleTaskStart s, fun s _ _ _ _ _ => exec_cleTaskStep s, fun s _ _ _ _ _ _ _ => exec_cleVarRead s,
    fun s _ _ _ _ _ _ _ => exec_cleVarWrite s, fun s _ _ _ _ _ => exec_cleTaskRead s⟩

/-- Settles O59: between cycles the command stores at once, and its completion stays in the host interface. -/
theorem variableWriteStoresItsOctets : Obligations.VariableWriteStoresItsOctets := by
  intro s c a n index addr octets t h ht hp htask hmode himage hspan hvars
  refine ⟨s.done c (s.run.cleStore n index addr octets) {}, { t with va := vaStored t.va addr octets }, ?_, ?_,
    fun k hk => vaStored_inside t.va addr hk, fun x hx => vaStored_outside t.va hx, fun m j hne => ?_⟩
  · rw [exec_cleVarWrite s h ht hp htask hmode hspan hvars, himage]
    rfl
  · rw [State.done_task]
    exact Run.task_cleStore_self htask
  · rw [State.done_task]
    exact Run.task_cleStore_ne s.run addr octets hne

end Sys2Proof.Machine
end

section
/-! What a row leaves of reset, boot, power and the device configuration. -/

namespace Sys2Proof.Machine

/-! ### The forms of a row -/

/-- A row over a device that meets `P` leaves one that meets `P`. -/
def DeviceMeets (P : Sys → Prop) (o : Host.Outcome State Fault Refusal) : Prop := ∀ t, o = .next t → P t.sys

section Forms

variable {P : Sys → Prop} {s : State} (hs : P s.sys)

include hs

/-- A row that changes at the most what runs. -/
theorem deviceMeets_of_ran {o : Host.Outcome State Fault Refusal} (h : ∃ r, o = .next (s.ran r)) : DeviceMeets P o := by
  obtain ⟨r, rfl⟩ := h
  rintro t ⟨⟩
  exact hs

theorem deviceMeets_whenUp (f : Sys → Run → Run) : DeviceMeets P (whenUp s f) := deviceMeets_of_ran hs (whenUp_next s f)

theorem deviceMeets_whenHost (fn : Nat) (f : Sys → Run → Run) : DeviceMeets P (whenHost fn s f) :=
  deviceMeets_of_ran hs (whenHost_next fn s f)

theorem deviceMeets_whenRunning (f : Sys → Run → Run) : DeviceMeets P (whenRunning s f) :=
  deviceMeets_of_ran hs (whenRunning_next s f)

theorem deviceMeets_runCmd (k : CmdSpec) (c : Cmd) (body : Accepted → Run → Run × Answer) : DeviceMeets P (runCmd k c s body) :=
  deviceMeets_of_ran hs (runCmd_next k c s body)

theorem deviceMeets_runQuery (k : CmdSpec) (c : Cmd) (body : Accepted → Sys → Run → Answer) : DeviceMeets P (runQuery k c s body) :=
  deviceMeets_of_ran hs (runQuery_next k c s body)

/-- A command leaves the device as its body does, and as it was where the body does not count. -/
theorem deviceMeets_runCommand {k : CmdSpec} {c : Cmd} {body : Accepted → Sys → Run → Sys × Run × Answer}
    (hb : ∀ a, s.commandFor k c = some a → P (body a s.sys s.run).1) : DeviceMeets P (runCommand k c s body) := by
  intro t h
  rcases runCommand_cases k c s body with
    ⟨-, e⟩ | ⟨a, ha, ⟨rep, -, e⟩ | ⟨-, ⟨sys, r, hbody, e⟩ | ⟨sys, r, rep, hbody, ⟨-, e⟩ | ⟨-, e⟩⟩⟩⟩ <;>
  cases e.symm.trans h
  case inl | inr.inl | inr.inr.inr.inl => exact hs
  all_goals
    have hP := hb a ha
    rw [hbody] at hP
    exact hP

omit hs in
theorem deviceMeets_onBlock {f : Sys → Run → Sys × Run} (hf : P (f s.sys s.run).1) : DeviceMeets P (onBlock s f) := by
  rintro t ⟨⟩
  exact hf

end Forms

/-! ### The rows that leave the device as it is -/

/-- A command whose body hands the device back. -/
theorem deviceMeets_command {P : Sys → Prop} {s : State} (hs : P s.sys) {k : CmdSpec} {c : Cmd}
    {body : Accepted → Sys → Run → Sys × Run × Answer} (hb : ∀ a sys r, (body a sys r).1 = sys) :
    DeviceMeets P (runCommand k c s body) :=
  deviceMeets_runCommand hs fun a _ => by rwa [hb]

/-- A commit before its turn (R125) has no effect. -/
theorem deviceMeets_instCommit {P : Sys → Prop} {s : State} (hs : P s.sys) (c : Cmd) : DeviceMeets P (execInstCommit c s) := by
  unfold execInstCommit
  split
  · exact deviceMeets_of_ran hs ⟨s.run, rfl⟩
  · exact deviceMeets_command hs fun _ _ _ => rfl

/-- A replacement under way goes on as an event; a new one is a command (R579). -/
theorem deviceMeets_srmKeyReplace {P : Sys → Prop} {s : State} (hs : P s.sys) (c : Cmd) (slot source kekSlot : Nat)
    (check : Option Nat) (keyId : Nat) (blob : Blob) (cipher : Nat) (testOk : Bool) (reach : Nat) :
    DeviceMeets P (execSrmKeyReplace c slot source kekSlot check keyId blob cipher testOk reach s) := by
  unfold execSrmKeyReplace
  split
  · exact deviceMeets_whenUp hs _
  · refine deviceMeets_command hs fun a sys r => ?_
    dsimp only
    (repeat' split) <;> rfl

/-- Every row but those of `changesDevice` leaves the device as it was: it has a form that changes only what runs, or its body
hands the device back. -/
theorem deviceMeets_exec {P : Sys → Prop} {i : Instr} {s : State} (hs : P s.sys) (hi : changesDevice i = false) :
    DeviceMeets P (exec i s) := by
  unfold exec
  cases i with dsimp only
  | eventRingPost | cmdEnableFall | evtEnableFall | vnicEnableFall | vnicTxFrame | functionLevelReset | pcieLinkLoss | d3hotEntry
  | perstNFall | macCfgWrite | txThreshBaseWrite | txThreshRestore | snapTake | snapshotLatch | ptpSyncReceive | ptpAnnounceReceive
  | ppsInEdge | irigFrame | referenceLoss | holdTimerExpiry | leapSecond | ppsOutEdge | servoEnFall | servoEnRise | tsuNowNsRead
  | tsuTxqPopRead | sofbMismatch | offPulseStart | offPulseEnd | biChange | latchReset | sioSessionExpiry | cellarFlushSecond
  | cellarFlushDone | stageLossRecord | operatingHour | serviceDay | ledgerWrite | ledgerWearCheck | keyRemask | ppsOutPulseEnd =>
    exact deviceMeets_whenUp hs _
  | ringHostWrite | cmdEnableRise | evtEnableRise | vnicEnableRise | imaskWrite | reg64LowRead =>
    exact deviceMeets_whenHost hs _ _
  | instResetDone | accountingPeriod | macFrameReceive | macFrameTransmit | linkDown | linkUp | linkHoldExpiry | portEnableFall
  | frameForward | fdbEntryAge | nodeEntryForget | cisternCensus | cisternWalkDone | supervisionSend | supervisionSilence
  | ptpSyncSend | pdelayReqReceive | pdelayMeasure | ingestFrame | subSupervisionExpiry | tickProcess | decSyncEdge | nodeDispatch
  | jobFinish | budgetAbort | graphExchange | exchangeTimeout | cleCycle | cleEmptyJob | cleCycleFault | retainCheckpoint
  | loopEvaluation | gooseRetransmit | tribSend | tribReceive | twinJoinEnd | tribTimeout | drRowWrite | xtrigInEdge | drAutoTrigger
  | drRearmExpiry | xtrigOutPulseEnd | trngHealthFail | canFrameReceive | canFrameEnd | canSlotInstant | canSlotWindowExpiry
  | canSupervisionExpiry | canRecoveryDone | errorReport | selfTestDone | islandRelockTimeout | hkpReturn | admissionRun | sramScrub
  | islandPllRelock =>
    exact deviceMeets_whenRunning hs _
  | devReplayCompletions | devReplayEvents | dirtyLogStart | dirtyLogSync | dirtyLogStop | instCreate | instDestroy | instStart
  | instStop | instReset | instSetShare | instSetRank | instResume | portSnapshot | portThreshRestore | swVlanSet | swFdbAdd
  | swFdbDel | swFdbFlush | swHostVlan | swNodeRead | swCensusNow | timeSet | timeReacquire | subSvSet | subGooseSet | subDelete
  | subRead | subKeySet | subList | cflChanSet | cflStreamSet | cflCoefSet | cflProtoLoad | cflBankSelect | cflDcHold | cflDecSync
  | cflChanRead | slcGraphLoad | slcGraphUnload | slcAdmitCheck | slcCancel | slcTrigger | slcNodeRead | slcChainRead | grpForce
  | grpRelease | grpQuery | cleProgLoad | cleProgUnload | cleTaskMode | cleTaskStart | cleTaskStep | cleVarRead | cleVarWrite
  | cleTaskRead | mlrLoopSet | mlrLoopDelete | mlrMode | mlrInject | mlrInjectStop | mlrCapture | mlrCaptureRead | mlrLoopRead
  | pubGooseSet | pubSvSet | pubDelete | pubRead | tribSet | tribQuery | sioUnlock | sioLock | sioPasswordSet | sioCfgSet
  | sioFaultClear | sioQuery | drcSet | drcDelete | drcMaskSet | drcTrigger | drcArm | drcStop | drcList | drcRead | drcRelease
  | celRead | celFlush | lgrAssign | lgrAdd | srmLcChallenge | srmKeyUnload | srmKeyInfo | srmKeyExport | srmCrypt | srmRandom
  | fbBufSet | fbSchedSet | fbTx | fbCancel | fbBufRead | fbRecover | fltList =>
    exact deviceMeets_runCmd hs _ _ _
  | devNop | devIdentify | instQuery | swFdbRead | timeQuery | drcExport | lgrRead | srmQuery | srmAttestDevice | srmIdentity
  | devBootQuery =>
    exact deviceMeets_runQuery hs _ _ _
  | devSnapshot | srmKeyAttr | srmAttestKey => exact deviceMeets_command hs fun _ _ _ => rfl
  | paramGet | paramDescribe | swRedSet | celChallenge | celClear | srmKeyGenerate | srmKeyLoad | srmKeyLoadClear | srmKeyImport
  | srmKeyDerive | srmDebugUnlock | fltUnitRetest | fltInject =>
    refine deviceMeets_command hs fun a sys r => ?_
    dsimp only
    (repeat' split) <;> rfl
  | commandFetch fn octets poisoned =>
    unfold execCommandFetch
    exact deviceMeets_whenUp hs _
  | vnicRxFrame fn octets =>
    unfold execVnicRxFrame
    exact deviceMeets_whenUp hs _
  | srmLcAdvance c target sig ownerKey fuses =>
    unfold execSrmLcAdvance
    refine deviceMeets_command hs fun a sys r => ?_
    dsimp only
    (repeat' split) <;> rfl
  | instCommit c => exact deviceMeets_instCommit hs c
  | srmKeyReplace c slot source kekSlot check keyId blob cipher testOk reach =>
    exact deviceMeets_srmKeyReplace hs c slot source kekSlot check keyId blob cipher testOk reach
  | _ => cases hi

/-- Settles O48: such a row leaves a device that is the one before it. -/
theorem onlyDeviceRowsChangeTheDevice : Obligations.OnlyDeviceRowsChangeTheDevice :=
  fun _ s t hi h => deviceMeets_exec (P := (· = s.sys)) rfl hi t h

end Sys2Proof.Machine
end

section
/-! The invariant of reset, boot and power: it holds at reset, and every step keeps it (R33, R633 to R643, R646 to R651, R680). -/

namespace Sys2Proof.Machine

/-- Settles O5: at reset every value is the default of its field. -/
theorem resetMeetsBlockInvariant : Obligations.ResetMeetsBlockInvariant where
  up h := absurd rfl h
  reset _ := ⟨rfl, rfl⟩
  supply h := absurd h Bool.false_ne_true
  inBoot h := absurd h Bool.false_ne_true
  tries := by decide
  bootSel := by decide
  readyMs := by decide
  drLaid := by decide

/-! ### The values that their fields can hold -/

/-- TRIES of both copies of the boot control block, BOOT_SEL and READY_MS fit their fields, and the DR region is at most 16 GiB. -/
structure Sys.Fits (s : Sys) : Prop where
  tries : s.bcb0.block.tries ≤ 7 ∧ s.bcb1.block.tries ≤ 7
  bootSel : s.boot.bootSel < 4
  readyMs : s.boot.readyMs < 65536
  drLaid : s.drLaid ≤ 16

theorem Sys.Inv.fits {s : Sys} (h : s.Inv) : s.Fits := ⟨h.tries, h.bootSel, h.readyMs, h.drLaid⟩

/-- The invariant of a device in reset that has not stopped in boot. -/
theorem Sys.Fits.inv_reset {s : Sys} (h : s.Fits) (hphase : s.phase = .reset) (hpf : s.pwrfailAt = none)
    (hrestart : s.restartAsked = none) (hsupply : s.porstN = true → s.corePower = true) (hstuck : s.stuck = false) : s.Inv where
  up hup := absurd hphase hup
  reset _ := ⟨hpf, hrestart⟩
  supply := hsupply
  inBoot hst := absurd (hstuck.symm.trans hst) Bool.false_ne_true
  tries := h.tries
  bootSel := h.bootSel
  readyMs := h.readyMs
  drLaid := h.drLaid

/-- The invariant of a device out of reset. -/
theorem Sys.Fits.inv_up {s : Sys} (h : s.Fits) (hphase : s.phase ≠ .reset)
    (hup : s.porstN = true ∧ s.sysrstN = true ∧ s.corePower = true ∧ s.thermal = false ∧ s.pwrfailReset = false ∧
      s.selfRefresh = false ∧ s.stuck = false) : s.Inv where
  up _ := hup
  reset hr := absurd hr hphase
  supply _ := hup.2.2.1
  inBoot hst := absurd (hup.2.2.2.2.2.2.symm.trans hst) Bool.false_ne_true
  tries := h.tries
  bootSel := h.bootSel
  readyMs := h.readyMs
  drLaid := h.drLaid

/-! ### The boot control block (R639, R640) -/

theorem Sys.Fits.bcb_tries {s : Sys} (h : s.Fits) : s.bcb.tries ≤ 7 := by
  unfold Sys.bcb
  split
  · exact h.tries.2
  · exact h.tries.1

/-- A change of the boot control block changes one of its copies, and no other value of the device. -/
theorem Sys.putBcb_copies (s : Sys) (f : BootBlock → BootBlock) : ∃ x y, s.putBcb f = { s with bcb0 := x, bcb1 := y } := by
  unfold Sys.putBcb
  dsimp only
  split
  · exact ⟨_, _, rfl⟩
  · exact ⟨_, _, rfl⟩

theorem Sys.Fits.putBcb {s : Sys} (h : s.Fits) {f : BootBlock → BootBlock} (hf : (f s.bcb).tries ≤ 7) : (s.putBcb f).Fits := by
  unfold Sys.putBcb
  dsimp only
  split
  · exact ⟨⟨hf, h.tries.2⟩, h.bootSel, h.readyMs, h.drLaid⟩
  · exact ⟨⟨h.tries.1, hf⟩, h.bootSel, h.readyMs, h.drLaid⟩

/-- The choice of the image is a run of changes of the boot control block, none of which raises TRIES (R640). -/
theorem Sys.pick_induct {P : Sys → Prop} {s : Sys} (h : P s)
    (hput : ∀ (t : Sys) (f : BootBlock → BootBlock), P t → (f t.bcb).tries ≤ t.bcb.tries → P (t.putBcb f)) (bootSel : Nat) :
    P (s.pick bootSel).1 := by
  unfold Sys.pick
  split
  case h_1 =>
    have hcount : P (s.putBcb fun b => { b with tries := b.tries - 1 }) := hput s _ h (Nat.sub_le _ _)
    unfold Sys.pickNormal
    split
    · exact h
    · dsimp only
      split
      · exact hput s (fun b => { b with trial := none }) h le_rfl
      · split
        · exact hcount
        · exact hput _ (fun b => { b with trial := none }) hcount le_rfl
  all_goals exact h

theorem Sys.pick_copies (s : Sys) (bootSel : Nat) : ∃ x y, (s.pick bootSel).1 = { s with bcb0 := x, bcb1 := y } := by
  refine Sys.pick_induct (P := fun t => ∃ x y, t = { s with bcb0 := x, bcb1 := y }) ⟨_, _, rfl⟩ ?_ bootSel
  rintro t f ⟨x, y, rfl⟩ -
  obtain ⟨x', y', h⟩ := Sys.putBcb_copies { s with bcb0 := x, bcb1 := y } f
  exact ⟨x', y', h⟩

theorem Sys.Fits.pick {s : Sys} (h : s.Fits) (bootSel : Nat) : (s.pick bootSel).1.Fits :=
  Sys.pick_induct h (fun _ _ ht hf => ht.putBcb (hf.trans ht.bcb_tries)) bootSel

/-! ### Starts (R633, R635) -/

theorem Sys.drMax_le (s : Sys) : s.drMax ≤ 16 := Nat.min_le_left _ _

/-- The DR region laid out is at most the largest there may be (R33). -/
theorem Sys.layDr_le (s : Sys) : s.layDr.1 ≤ 16 := by
  unfold Sys.layDr
  split
  · exact (Nat.min_le_right _ _).trans s.drMax_le
  · exact (Nat.min_le_right _ _).trans s.drMax_le

/-- The device at a cold start that began at `began`, when it has chosen its image and driven its resets. -/
def Sys.booted (s : Sys) (k : StartIn) (began : Nat) : Sys :=
  let x := s.down.pick k.bootSel
  { x.1 with
    boot := { imageB := x.2.image.getD x.1.bcb.active, trial := x.2.trial, fallback := x.2.fallback, bootSel := k.bootSel % 4,
              startedAt := began }
    corePower := true, porstN := true, pwrfailReset := false, flash := .octal }

/-- The device once a cold start that began at `began` has brought up its memory and restored the configuration `held`. -/
def Sys.coldStarted (s : Sys) (k : StartIn) (began : Nat) (held : Option DevConfig) : Sys :=
  let x := { (s.booted k began).begin' k held with capacity := min k.memA k.memB }
  { x with drLaid := x.layDr.1, phase := if (s.down.pick k.bootSel).2.image.isSome then .ready else .recovery }

/-- The device once a warm start that began at `began` has restored the configuration `held`. -/
def Sys.warmStarted (s : Sys) (k : StartIn) (began : Nat) (held : Option DevConfig) : Sys :=
  { ({ s.down with boot := { s.boot with warm := true, bootSel := k.bootSel % 4, startedAt := began, readyMs := 0 }
                   flash := .octal } : Sys).begin' k held with
    phase := if k.bootSel % 4 = 3 then .recovery else .ready }

theorem coldStart_untrained {k : StartIn} (hmem : k.memA = 0 ∨ k.memB = 0) (sys : Sys) (r : Run) :
    ∃ began, (coldStart sys r k).1 = { sys.booted k began with stuck := true } := by
  refine ⟨(if (!sys.corePower) = true then r.allZ.powerUp else r.allZ).ticks, ?_⟩
  unfold coldStart
  simp only [if_pos hmem]
  rfl

theorem coldStart_trained {k : StartIn} (hmem : ¬ (k.memA = 0 ∨ k.memB = 0)) (sys : Sys) (r : Run) :
    ∃ began held, (coldStart sys r k).1 = sys.coldStarted k began held := by
  let r' := if (!sys.corePower) = true then r.allZ.powerUp else r.allZ
  refine ⟨r'.ticks, ((r'.leaveReset true).pass k.ready).store.dev, ?_⟩
  unfold coldStart
  simp only [if_neg hmem]
  split <;> rfl

theorem warmStart_checked {sys : Sys} {k : StartIn} (hok : (!k.firmwareOk || !k.configOk || !sys.selfRefresh) = false) (r : Run) :
    ∃ began held, (warmStart sys r k).1 = sys.warmStarted k began held := by
  refine ⟨r.allZ.ticks, r.allZ.store.dev, ?_⟩
  unfold warmStart
  simp only [hok, Bool.false_eq_true, if_false]
  unfold Sys.warmStarted
  simp only [decide_eq_true_eq]
  rfl

/-! ### What a start leaves keeps the invariant -/

theorem Sys.booted_fits {s : Sys} (h : s.Fits) (k : StartIn) (began : Nat) : (s.booted k began).Fits where
  tries := (Sys.Fits.pick (s := s.down) ⟨h.tries, h.bootSel, h.readyMs, h.drLaid⟩ k.bootSel).tries
  bootSel := Nat.mod_lt _ (by decide)
  readyMs := show 0 < 65536 by decide
  drLaid := (Sys.Fits.pick (s := s.down) ⟨h.tries, h.bootSel, h.readyMs, h.drLaid⟩ k.bootSel).drLaid

/-- Of the device that went down, a cold start has changed only this when its image is chosen. -/
theorem Sys.booted_eq (s : Sys) (k : StartIn) (began : Nat) :
    ∃ x y boot, s.booted k began =
      { s.down with bcb0 := x, bcb1 := y, boot := boot, corePower := true, porstN := true, pwrfailReset := false, flash := .octal } := by
  obtain ⟨x, y, hpick⟩ := s.down.pick_copies k.bootSel
  unfold Sys.booted
  dsimp only
  rw [hpick]
  exact ⟨x, y, _, rfl⟩

section Started

variable {s : Sys} (h : s.Fits) (hsys : s.sysrstN = true) (hth : s.thermal = false) (k : StartIn) (began : Nat)

include h hsys hth

/-- A start that stops in boot, its memory untrained, is in reset (R31). -/
theorem Sys.inv_untrained : Sys.Inv { s.booted k began with stuck := true } := by
  have hfits := Sys.booted_fits h k began
  obtain ⟨x, y, boot, e⟩ := s.booted_eq k began
  rw [e] at hfits ⊢
  exact ⟨fun hup => absurd rfl hup, fun _ => ⟨rfl, rfl⟩, fun _ => rfl, fun _ => ⟨rfl, rfl, hsys, hth⟩, hfits.tries, hfits.bootSel,
    hfits.readyMs, hfits.drLaid⟩

theorem Sys.inv_coldStarted (held : Option DevConfig) : (s.coldStarted k began held).Inv := by
  have hfits := Sys.booted_fits h k began
  unfold Sys.coldStarted
  obtain ⟨x, y, boot, e⟩ := s.booted_eq k began
  rw [e] at hfits ⊢
  refine Sys.Fits.inv_up ⟨hfits.tries, hfits.bootSel, hfits.readyMs, Sys.layDr_le _⟩ ?_ ⟨rfl, hsys, rfl, hth, rfl, rfl, rfl⟩
  dsimp only
  split <;> exact Phase.noConfusion

end Started

theorem Sys.inv_coldStart {s : Sys} (h : s.Fits) (hsys : s.sysrstN = true) (hth : s.thermal = false) (r : Run) (k : StartIn) :
    (coldStart s r k).1.Inv := by
  by_cases hmem : k.memA = 0 ∨ k.memB = 0
  · obtain ⟨began, e⟩ := coldStart_untrained hmem s r
    rw [e]
    exact Sys.inv_untrained h hsys hth k began
  · obtain ⟨began, held, e⟩ := coldStart_trained hmem s r
    rw [e]
    exact Sys.inv_coldStarted h hsys hth k began held

theorem Sys.inv_warmStarted {s : Sys} (h : s.Fits) (hpor : s.porstN = true) (hsys : s.sysrstN = true) (hcore : s.corePower = true)
    (hth : s.thermal = false) (k : StartIn) (began : Nat) (held : Option DevConfig) : (s.warmStarted k began held).Inv := by
  refine Sys.Fits.inv_up ⟨h.tries, Nat.mod_lt _ (by decide), show 0 < 65536 by decide, h.drLaid⟩ ?_
    ⟨hpor, hsys, hcore, hth, rfl, rfl, rfl⟩
  unfold Sys.warmStarted
  dsimp only
  split <;> exact Phase.noConfusion

/-- A warm start, also one whose check fails and which becomes a cold one (R635). -/
theorem Sys.inv_warmStart {s : Sys} (h : s.Fits) (hpor : s.porstN = true) (hsys : s.sysrstN = true) (hcore : s.corePower = true)
    (hth : s.thermal = false) (r : Run) (k : StartIn) : (warmStart s r k).1.Inv := by
  cases hok : !k.firmwareOk || !k.configOk || !s.selfRefresh with
  | true =>
    unfold warmStart
    rw [if_pos hok]
    exact Sys.inv_coldStart h hsys hth r k
  | false =>
    obtain ⟨began, held, e⟩ := warmStart_checked hok r
    rw [e]
    exact Sys.inv_warmStarted h hpor hsys hcore hth k began held

/-! ### The rows that change the device -/

/-- The invariant does not speak of the other values of the device. -/
theorem Sys.Inv.others {s t : Sys} (h : s.Inv)
    (e : t = { t with phase := s.phase, porstN := s.porstN, sysrstN := s.sysrstN, corePower := s.corePower, thermal := s.thermal,
                      pwrfailReset := s.pwrfailReset, selfRefresh := s.selfRefresh, stuck := s.stuck, pwrfailAt := s.pwrfailAt,
                      restartAsked := s.restartAsked, bcb0 := s.bcb0, bcb1 := s.bcb1, boot := s.boot, drLaid := s.drLaid }) :
    t.Inv := by
  rw [e]
  exact ⟨h.up, h.reset, h.supply, h.inBoot, h.tries, h.bootSel, h.readyMs, h.drLaid⟩

theorem coldStart_row_inv {s : State} (h : s.sys.Inv) (k : StartIn) (dt : Nat) : DeviceMeets Sys.Inv (execColdStart k dt s) := by
  refine deviceMeets_onBlock ?_
  dsimp only
  split
  · next hasked =>
    obtain ⟨-, hsys, -, hth, -⟩ := h.up hasked.1
    exact Sys.inv_coldStart h.fits hsys hth _ k
  · split
    · exact h
    · next hlow =>
      split
      · next hfree =>
        obtain ⟨hsys, hth⟩ := Bool.and_eq_true_iff.mp hfree
        exact Sys.inv_coldStart h.fits hsys ((Bool.not_eq_true' _).mp hth) _ k
      · have hreset : s.sys.phase = .reset := Decidable.byContradiction fun hup => hlow (h.up hup).1
        have hstuck : s.sys.stuck = false := Bool.eq_false_iff.mpr fun hst => hlow (h.inBoot hst).2.1
        obtain ⟨hpf, hrestart⟩ := h.reset hreset
        exact Sys.Fits.inv_reset ⟨h.tries, h.bootSel, h.readyMs, h.drLaid⟩ hreset hpf hrestart (fun _ => rfl) hstuck

/-- Where a warm start is due the device is in reset, with PORST_N high and no thermal reset. -/
theorem Sys.warmDue_holds {s : Sys} (h : s.warmDue = true) : s.porstN = true ∧ s.thermal = false := by
  simp only [Sys.warmDue, Bool.and_eq_true, Bool.not_eq_true'] at h
  obtain ⟨⟨⟨⟨⟨-, hpor⟩, hth⟩, -⟩, -⟩, -⟩ := h
  exact ⟨hpor, hth⟩

theorem warmStart_row_inv {s : State} (h : s.sys.Inv) (k : StartIn) (dt : Nat) : DeviceMeets Sys.Inv (execWarmStart k dt s) := by
  refine deviceMeets_onBlock ?_
  dsimp only
  split
  · next hasked =>
    obtain ⟨hpor, hsys, hcore, hth, -⟩ := h.up hasked.1
    exact Sys.inv_warmStart (s := { s.sys with selfRefresh := true }) ⟨h.tries, h.bootSel, h.readyMs, h.drLaid⟩ hpor hsys hcore hth _ k
  · split
    · next hdue =>
      obtain ⟨hpor, hth⟩ := Sys.warmDue_holds hdue
      exact Sys.inv_warmStart (s := { s.sys with sysrstN := true }) ⟨h.tries, h.bootSel, h.readyMs, h.drLaid⟩ hpor rfl
        (h.supply hpor) hth _ k
    · refine ⟨fun hup => ?_, h.reset, h.supply, fun hst => ?_, h.tries, h.bootSel, h.readyMs, h.drLaid⟩
      · obtain ⟨hpor, -, hrest⟩ := h.up hup
        exact ⟨hpor, rfl, hrest⟩
      · obtain ⟨hreset, hpor, -, hth⟩ := h.inBoot hst
        exact ⟨hreset, hpor, rfl, hth⟩

theorem startProtection_sys (sys : Sys) (r : Run) :
    ∃ ms since, (startProtection sys r).1 =
      { sys with phase := .running, boot := { sys.boot with readyMs := min 65535 ms }, healthySince := since } := by
  unfold startProtection
  exact ⟨_, _, rfl⟩

theorem protectionStart_row_inv {s : State} (h : s.sys.Inv) (dt : Nat) : DeviceMeets Sys.Inv (execProtectionStart dt s) := by
  refine deviceMeets_onBlock ?_
  dsimp only
  split
  · next hready =>
    obtain ⟨ms, since, e⟩ := startProtection_sys s.sys (s.run.pass dt)
    have hms : min 65535 ms < 65536 := by omega
    have hup : s.sys.phase ≠ .reset := by rw [hready.1]; exact Phase.noConfusion
    rw [e]
    exact Sys.Fits.inv_up ⟨h.tries, h.bootSel, hms, h.drLaid⟩ Phase.noConfusion (h.up hup)
  · exact h

theorem sysrstNFall_row_inv {s : State} (h : s.sys.Inv) (dt : Nat) : DeviceMeets Sys.Inv (execSysrstNFall dt s) := by
  refine deviceMeets_onBlock ?_
  dsimp only
  split
  · next hreset =>
    obtain ⟨hpf, hrestart⟩ := h.reset hreset
    exact Sys.Fits.inv_reset ⟨h.tries, h.bootSel, h.readyMs, h.drLaid⟩ hreset hpf hrestart h.supply rfl
  · exact Sys.Fits.inv_reset ⟨h.tries, h.bootSel, h.readyMs, h.drLaid⟩ rfl rfl rfl h.supply rfl

theorem porstNFall_row_inv {s : State} (h : s.sys.Inv) (dt : Nat) : DeviceMeets Sys.Inv (execPorstNFall dt s) :=
  deviceMeets_onBlock
    (Sys.Fits.inv_reset ⟨h.tries, h.bootSel, h.readyMs, h.drLaid⟩ rfl rfl rfl (fun hpor => absurd hpor Bool.false_ne_true) rfl)

theorem trialBootTimeout_row_inv {s : State} (h : s.sys.Inv) (k : StartIn) (dt : Nat) :
    DeviceMeets Sys.Inv (execTrialBootTimeout k dt s) := by
  refine deviceMeets_onBlock ?_
  dsimp only
  split
  · next hlate =>
    obtain ⟨hready | hstuck, -, -⟩ := hlate
    · obtain ⟨-, hsys, -, hth, -⟩ := h.up (by rw [hready]; exact Phase.noConfusion)
      exact Sys.inv_coldStart h.fits hsys hth _ k
    · obtain ⟨-, -, hsys, hth⟩ := h.inBoot hstuck
      exact Sys.inv_coldStart h.fits hsys hth _ k
  · exact h

/-- A confirmation changes the boot control block, SVN_MIN and TRIAL (R641); TRIES stays. -/
theorem Sys.Inv.confirmTrial {s : Sys} (h : s.Inv) (r : Run) : (confirmTrial s r).1.Inv := by
  have hfits : (s.putBcb fun x => { x with active := s.boot.imageB, trial := none }).Fits := h.fits.putBcb h.fits.bcb_tries
  unfold Machine.confirmTrial
  obtain ⟨x, y, e⟩ := s.putBcb_copies fun x => { x with active := s.boot.imageB, trial := none }
  rw [e] at hfits
  simp only [e]
  exact ⟨h.up, h.reset, h.supply, h.inBoot, hfits.tries, h.bootSel, h.readyMs, h.drLaid⟩

theorem autoConfirmExpiry_row_inv {s : State} (h : s.sys.Inv) (dt : Nat) : DeviceMeets Sys.Inv (execAutoConfirmExpiry dt s) := by
  refine deviceMeets_onBlock ?_
  dsimp only
  split
  · exact h.confirmTrial _
  · exact h

theorem pwrfailNFall_row_inv {s : State} (h : s.sys.Inv) (lowNs dt : Nat) : DeviceMeets Sys.Inv (execPwrfailNFall lowNs dt s) := by
  refine deviceMeets_onBlock ?_
  dsimp only
  split
  · exact h
  · split
    · exact h.others rfl
    · next hup =>
      have hup := (not_or.mp hup).1
      exact Sys.Fits.inv_up ⟨h.tries, h.bootSel, h.readyMs, h.drLaid⟩ hup (h.up hup)

theorem powerFailReset_row_inv {s : State} (h : s.sys.Inv) (dt : Nat) : DeviceMeets Sys.Inv (execPowerFailReset dt s) := by
  refine deviceMeets_onBlock ?_
  dsimp only
  split
  · exact h
  · split
    · exact h
    · exact Sys.Fits.inv_reset ⟨h.tries, h.bootSel, h.readyMs, h.drLaid⟩ rfl rfl rfl h.supply rfl

theorem pwrfailNRise_row_inv {s : State} (h : s.sys.Inv) (k : StartIn) (dt : Nat) :
    DeviceMeets Sys.Inv (execPwrfailNRise k dt s) := by
  refine deviceMeets_onBlock ?_
  dsimp only
  split
  · next hends =>
    obtain ⟨hends, hdue⟩ := Bool.and_eq_true_iff.mp hends
    obtain ⟨-, hsys⟩ := Bool.and_eq_true_iff.mp hends
    obtain ⟨hpor, hth⟩ := Sys.warmDue_holds hdue
    exact Sys.inv_warmStart (s := { s.sys with pwrfailN := true }) ⟨h.tries, h.bootSel, h.readyMs, h.drLaid⟩ hpor hsys
      (h.supply hpor) hth _ k
  · exact h.others rfl

/-- What the always-on domain loses is not of the invariant. -/
theorem Sys.Inv.settleAon {s : Sys} (h : s.Inv) (r : Run) : (settleAon s r).1.Inv := by
  unfold Machine.settleAon
  split
  · exact h
  · exact h.others rfl

theorem aonFeedChange_row_inv {s : State} (h : s.sys.Inv) (a b : Bool) (dt : Nat) :
    DeviceMeets Sys.Inv (execAonFeedChange a b dt s) := by
  refine deviceMeets_onBlock ?_
  dsimp only
  split
  · exact h
  · split
    · exact Sys.Inv.settleAon (h.others rfl) _
    · exact h.others rfl

theorem corePowerLoss_row_inv {s : State} (h : s.sys.Inv) (dt : Nat) : DeviceMeets Sys.Inv (execCorePowerLoss dt s) :=
  have hdown : Sys.Inv { s.sys.down with
      corePower := false, porstN := false, selfRefresh := false, thermal := false, pwrfailReset := false } :=
    Sys.Fits.inv_reset ⟨h.tries, h.bootSel, h.readyMs, h.drLaid⟩ rfl rfl rfl (fun hpor => absurd hpor Bool.false_ne_true) rfl
  deviceMeets_onBlock (hdown.settleAon _)

theorem thermalTrip_row_inv {s : State} (h : s.sys.Inv) (tj : Int) (dt : Nat) : DeviceMeets Sys.Inv (execThermalTrip tj dt s) := by
  refine deviceMeets_onBlock ?_
  dsimp only
  split
  · exact h
  · exact Sys.Fits.inv_reset ⟨h.tries, h.bootSel, h.readyMs, h.drLaid⟩ rfl rfl rfl h.supply rfl

theorem thermalRecover_row_inv {s : State} (h : s.sys.Inv) (k : StartIn) (dt : Nat) :
    DeviceMeets Sys.Inv (execThermalRecover k dt s) := by
  refine deviceMeets_onBlock ?_
  dsimp only
  split
  · exact h
  · split
    · next hhigh =>
      obtain ⟨-, hsys⟩ := Bool.and_eq_true_iff.mp hhigh
      exact Sys.inv_coldStart (s := { s.sys with thermal := false }) ⟨h.tries, h.bootSel, h.readyMs, h.drLaid⟩ hsys rfl _ k
    · refine ⟨fun hup => ?_, h.reset, h.supply, fun hst => ?_, h.tries, h.bootSel, h.readyMs, h.drLaid⟩
      · obtain ⟨hpor, hsys, hcore, -, hrest⟩ := h.up hup
        exact ⟨hpor, hsys, hcore, rfl, hrest⟩
      · obtain ⟨hreset, hpor, hsys, -⟩ := h.inBoot hst
        exact ⟨hreset, hpor, hsys, rfl⟩

/-! ### The events and commands that change other values of the device -/

theorem tempBinMinute_row_inv {s : State} (h : s.sys.Inv) (tj : Int) (dt : Nat) :
    DeviceMeets Sys.Inv (execTempBinMinute tj dt s) := by
  unfold execTempBinMinute
  split
  · rintro t ⟨⟩
    exact h
  · rintro t ⟨⟩
    exact h.others rfl

theorem registerWrite_row_inv {s : State} (h : s.sys.Inv) (fn off value : Nat) :
    DeviceMeets Sys.Inv (execRegisterWrite fn off value s) := by
  unfold execRegisterWrite
  split
  · rintro t ⟨⟩
    exact h
  · split
    · rintro t ⟨⟩
      exact h.others rfl
    · rintro t ⟨⟩
      exact h

/-- A judged record sets no value of the invariant: what it sets of the memory comes with the next cold start (R34). -/
theorem Sys.Inv.applySet {s : Sys} (h : s.Inv) (r : Run) (id : Nat) (v : Int) : (applySet s r id v).1.Inv := by
  unfold Machine.applySet
  split
  · exact h
  · split
    · exact h.others rfl
    · split
      · exact h.others rfl
      · split
        · exact h.others rfl
        · exact h

theorem Sys.Inv.applySets {s : Sys} (h : s.Inv) (r : Run) (l : List (Nat × Status × Int × List Int)) :
    (l.foldl (fun (acc : Sys × Run) e => Machine.applySet acc.1 acc.2 e.1 e.2.2.1) (s, r)).1.Inv := by
  induction l generalizing s r with
  | nil => exact h
  | cons e l ih => exact ih (h.applySet r e.1 e.2.2.1) _

theorem paramSet_row_inv {s : State} (h : s.sys.Inv) (c : Cmd) (records : List ParamRec) :
    DeviceMeets Sys.Inv (execParamSet c records s) := by
  refine deviceMeets_runCommand h fun a _ => ?_
  dsimp only
  split
  · exact h
  · split
    · exact h
    · exact h.applySets _ _

theorem devCommit_row_inv {s : State} (h : s.sys.Inv) (c : Cmd) : DeviceMeets Sys.Inv (execDevCommit c s) := by
  refine deviceMeets_runCommand h fun a _ => ?_
  dsimp only
  split
  · exact h
  · exact h.others rfl

theorem devUnlock_row_inv {s : State} (h : s.sys.Inv) (c : Cmd) : DeviceMeets Sys.Inv (execDevUnlock c s) :=
  deviceMeets_runCommand h fun _ _ => h.others rfl

/-- A command executes out of reset. -/
theorem State.up_of_commandFor {s : State} {k : CmdSpec} {c : Cmd} {a : Accepted} (h : s.commandFor k c = some a) : s.Up := by
  intro hreset
  rw [State.commandFor, if_pos (.inl hreset)] at h
  cases h

theorem devRestart_row_inv {s : State} (h : s.sys.Inv) (c : Cmd) (cold : Bool) : DeviceMeets Sys.Inv (execDevRestart c cold s) :=
  deviceMeets_runCommand h fun _ ha =>
    have hup := State.up_of_commandFor ha
    Sys.Fits.inv_up ⟨h.tries, h.bootSel, h.readyMs, h.drLaid⟩ hup (h.up hup)

theorem devImageWrite_row_inv {s : State} (h : s.sys.Inv) (c : Cmd) (offset len : Nat) (content : Image) (erased : Nat) :
    DeviceMeets Sys.Inv (execDevImageWrite c offset len content erased s) := by
  refine deviceMeets_runCommand h fun a _ => ?_
  dsimp only
  split
  · exact h
  · split
    · exact h
    · dsimp only
      split <;> exact h.others rfl

/-- TRIES is at most 7 (R658). -/
theorem devImageCommit_row_inv {s : State} (h : s.sys.Inv) (c : Cmd) (tries : Nat) :
    DeviceMeets Sys.Inv (execDevImageCommit c tries s) := by
  refine deviceMeets_runCommand h fun a _ => ?_
  dsimp only
  split
  · exact h
  · next hrange =>
    split
    · exact h
    · split
      · exact h
      · have htries : tries ≤ 7 := Nat.le_of_not_lt (not_or.mp hrange).2
        have hfits : (s.sys.putBcb fun x => { x with trial := some !s.sys.boot.imageB, tries := tries }).Fits := h.fits.putBcb htries
        obtain ⟨x, y, e⟩ := s.sys.putBcb_copies fun x => { x with trial := some !s.sys.boot.imageB, tries := tries }
        rw [e] at hfits ⊢
        exact ⟨h.up, h.reset, h.supply, h.inBoot, hfits.tries, h.bootSel, h.readyMs, h.drLaid⟩

theorem devImageConfirm_row_inv {s : State} (h : s.sys.Inv) (c : Cmd) : DeviceMeets Sys.Inv (execDevImageConfirm c s) := by
  refine deviceMeets_runCommand h fun a _ => ?_
  dsimp only
  split
  · exact h
  · exact h.confirmTrial s.run

/-! ### Every row, and the step -/

theorem exec_inv {i : Instr} {s : State} (h : s.sys.Inv) : DeviceMeets Sys.Inv (exec i s) := by
  cases hi : changesDevice i with
  | false => exact deviceMeets_exec h hi
  | true =>
    cases i with
    | coldStart k dt => exact coldStart_row_inv h k dt
    | warmStart k dt => exact warmStart_row_inv h k dt
    | protectionStart dt => exact protectionStart_row_inv h dt
    | sysrstNFall dt => exact sysrstNFall_row_inv h dt
    | porstNFall dt => exact porstNFall_row_inv h dt
    | trialBootTimeout k dt => exact trialBootTimeout_row_inv h k dt
    | autoConfirmExpiry dt => exact autoConfirmExpiry_row_inv h dt
    | pwrfailNFall lowNs dt => exact pwrfailNFall_row_inv h lowNs dt
    | powerFailReset dt => exact powerFailReset_row_inv h dt
    | pwrfailNRise k dt => exact pwrfailNRise_row_inv h k dt
    | aonFeedChange a b dt => exact aonFeedChange_row_inv h a b dt
    | corePowerLoss dt => exact corePowerLoss_row_inv h dt
    | thermalTrip tj dt => exact thermalTrip_row_inv h tj dt
    | thermalRecover k dt => exact thermalRecover_row_inv h k dt
    | tempBinMinute tj dt => exact tempBinMinute_row_inv h tj dt
    | registerWrite fn off value => exact registerWrite_row_inv h fn off value
    | paramSet c records => exact paramSet_row_inv h c records
    | devCommit c => exact devCommit_row_inv h c
    | devUnlock c => exact devUnlock_row_inv h c
    | devRestart c cold => exact devRestart_row_inv h c cold
    | devImageWrite c offset len content erased => exact devImageWrite_row_inv h c offset len content erased
    | devImageCommit c tries => exact devImageCommit_row_inv h c tries
    | devImageConfirm c => exact devImageConfirm_row_inv h c
    | _ => cases hi

/-- A step takes the command at the front of the queue. -/
theorem step_front {s : State} {i : Instr} {rest : List Instr} (h : s.pending = i :: rest) :
    step s = exec i { s with pending := rest } := by
  unfold step
  rw [h]

/-- Settles O1. -/
theorem stepRunsFrontCommand : Obligations.StepRunsFrontCommand := fun _ _ _ => step_front

/-- Settles O6: an idle tick leaves the device, and every row keeps the invariant. -/
theorem stepKeepsBlockInvariant : Obligations.StepKeepsBlockInvariant := by
  intro s t h hstep
  cases hq : s.pending with
  | nil =>
    rw [step_empty hq] at hstep
    cases hstep
    exact h
  | cons i rest =>
    rw [step_front hq] at hstep
    exact exec_inv (s := { s with pending := rest }) h t hstep

end Sys2Proof.Machine
end

section
/-! Every start that reaches READY or recovery advances EPOCH (R633): what follows in the start leaves EPOCH and READY. -/

namespace Sys2Proof.Machine

/-- A start has set EPOCH to `e` and raised READY, and no VI waits for the end of a reset. -/
structure Run.Begun (r : Run) (e : Word) : Prop where
  epoch : r.epoch = e
  ready : r.ready = true
  noReset : ∀ n, (r.inst n).reset = none

namespace Run.Begun

variable {r : Run} {e : Word}

theorem host {r' : Run} (h : r.Begun e) (ho : r.OnlyHost r') : r'.Begun e := by
  unfold Run.OnlyHost at ho
  rw [ho]
  exact ⟨h.epoch, h.ready, h.noReset⟩

theorem ite {a b : Run} {p : Prop} [Decidable p] (ha : a.Begun e) (hb : b.Begun e) : (if p then a else b).Begun e := by
  split
  · exact ha
  · exact hb

theorem foldl {α : Type} {f : Run → α → Run} (hf : ∀ r x, r.Begun e → (f r x).Begun e) (l : List α) (h : r.Begun e) :
    (l.foldl f r).Begun e := by
  induction l generalizing r with
  | nil => exact h
  | cons x l ih => exact ih (hf r x h)

/-! ### What a block keeps is neither EPOCH, nor READY, nor a VI -/

theorem modLgr (h : r.Begun e) (f : Ledger → Ledger) : (r.modLgr f).Begun e := ⟨h.epoch, h.ready, h.noReset⟩
theorem modSrm (h : r.Begun e) (f : Strong → Strong) : (r.modSrm f).Begun e := ⟨h.epoch, h.ready, h.noReset⟩
theorem modFlt (h : r.Begun e) (f : Faults → Faults) : (r.modFlt f).Begun e := ⟨h.epoch, h.ready, h.noReset⟩
theorem modSw (h : r.Begun e) (f : Switch → Switch) : (r.modSw f).Begun e := ⟨h.epoch, h.ready, h.noReset⟩
theorem modIng (h : r.Begun e) (f : Ingest → Ingest) : (r.modIng f).Begun e := ⟨h.epoch, h.ready, h.noReset⟩
theorem modSluice (h : r.Begun e) (f : Sluice → Sluice) : (r.modSluice f).Begun e := ⟨h.epoch, h.ready, h.noReset⟩
theorem modCle (h : r.Begun e) (f : Cle → Cle) : (r.modCle f).Begun e := ⟨h.epoch, h.ready, h.noReset⟩
theorem modTrip (h : r.Begun e) (f : Trip → Trip) : (r.modTrip f).Begun e := ⟨h.epoch, h.ready, h.noReset⟩
theorem modDr (h : r.Begun e) (f : Recorder → Recorder) : (r.modDr f).Begun e := ⟨h.epoch, h.ready, h.noReset⟩
theorem modCan (h : r.Begun e) (n : Nat) (f : CanChan → CanChan) : (r.modCan n f).Begun e := ⟨h.epoch, h.ready, h.noReset⟩
theorem emit (h : r.Begun e) (o : Out) : (r.emit o).Begun e := ⟨h.epoch, h.ready, h.noReset⟩

theorem raise (h : r.Begun e) (x : Raise) : (r.raise x).Begun e := h.host (Run.onlyHost_raise _ _)

theorem finish (h : r.Begun e) (fn : Nat) (cseq : Word) (rep : Reply) : (r.finish fn cseq rep).Begun e :=
  h.host (Run.onlyHost_finish _ _ _ _)

theorem stage (h : r.Begun e) (x : CelItem) : (r.stage x).Begun e := by
  rw [Run.stage_eq]
  exact ⟨h.epoch, h.ready, h.noReset⟩

theorem raiseInst (h : r.Begun e) (n : Nat) (x : Raise) : (r.raiseInst n x).Begun e := by
  have post {r : Run} (h : r.Begun e) (fn : Nat) : (r.postEvent fn x).Begun e := by
    rw [Run.postEvent_eq]
    exact ⟨h.epoch, h.ready, h.noReset⟩
  unfold Run.raiseInst
  dsimp only
  rw [Run.copyEvent_eq, Run.raiseSource_eq]
  have h' := ite (p := ((r.postEvent 0 x).fn (n + 1)).evtEn = true) (post (post h 0) (n + 1)) (post h 0)
  exact ⟨h'.epoch, h'.ready, h'.noReset⟩

/-! ### The ledger -/

theorem ledgerAdd (h : r.Begun e) (k n : Nat) : (r.ledgerAdd k n).Begun e :=
  h.ite (ite ((h.modLgr _).raise _) (h.modLgr _))

theorem count (h : r.Begun e) (k : Lgr) (n : Nat) : (r.count k n).Begun e := h.ledgerAdd _ _

theorem devState (h : r.Begun e) : r.devState.Begun e := by
  unfold Run.devState Run.erasedIn
  exact (h.host (Run.onlyHost_takeFree r 16)).modLgr _

/-- A copy of the ledger that is written again is reported. -/
theorem copyEvent (h : r.Begun e) (old : Bool) (x : Raise) :
    (if old = true then (r.count .flbErases).raise x else r).Begun e := ite ((h.count _ _).raise _) h

theorem loadLedger (h : r.Begun e) (badA badB : Bool) : (r.loadLedger badA badB).Begun e :=
  copyEvent (copyEvent ((h.modLgr _).modLgr _) _ _) _ _

theorem serviceDay (h : r.Begun e) : r.serviceDay.Begun e := h.ite ((h.modLgr _).count _ _)

/-! ### The Strongroom -/

theorem journalAdd (h : r.Begun e) (x : JournalEntry) : (r.journalAdd x).Begun e := ite ((h.modSrm _).count _ _) (h.modSrm _)

theorem settleSlot (h : r.Begun e) (slot : Nat) : (r.settleSlot slot).Begun e := by
  have hfresh := h.modSrm fun s => { s with fresh := tabDel s.fresh slot }
  unfold Run.settleSlot
  dsimp only
  split
  · exact hfresh
  · split
    · exact ((hfresh.journalAdd _).modSrm _).raise _
    · split
      · refine (journalAdd ?_ _).raise _
        split
        · split
          · exact hfresh.modSrm _
          · exact hfresh
        · exact hfresh
      · exact hfresh

theorem appendStore (h : r.Begun e) (n : Nat) : (r.appendStore n).Begun e := ite (h.modSrm _) ((h.modSrm _).count _ _)

theorem persist (h : r.Begun e) (slot : Nat) (k : Key) : (r.persist slot k).Begun e := ite ((h.appendStore 1).modSrm _) h

theorem limitEvent (h : r.Begun e) (slot old new : Nat) : (r.limitEvent slot old new).Begun e := ite (h.raise _) h

theorem loadSlot (h : r.Begun e) (slot : Nat) (k : Key) : (r.loadSlot slot k).Begun e :=
  h.ite (ite (h.modSrm _) (((h.modSrm _).persist _ _).limitEvent _ _ _))

theorem startStrong (h : r.Begun e) (serial : Nat) (aonLost : Bool) : (r.startStrong serial aonLost).Begun e := by
  unfold Run.startStrong
  refine modSrm (foldl (fun _ _ h => h.loadSlot _ _) _ (modSrm ?_ _)) _
  exact foldl (fun _ slot h => h.settleSlot slot) _ (h.modSrm _)

/-! ### Recorders, tasks and the partner's variables over a warm start -/

theorem modRec (h : r.Begun e) (d : Nat) (f : Rec → Rec) : (r.modRec d f).Begun e := by
  unfold Run.modRec
  split
  · exact h.modDr _
  · exact h

theorem drEvent (h : r.Begun e) (d : Nat) (ev : Ev) (offset : Nat) (data : List Int) : (r.drEvent d ev offset data).Begun e := by
  unfold Run.drEvent
  split
  · exact h.raise _
  · exact h

theorem drClose (h : r.Begun e) (d : Nat) (truncated : Bool) : (r.drClose d truncated).1.Begun e := by
  unfold Run.drClose
  split
  · exact h
  · split
    · exact h
    · dsimp only
      split
      · exact h.modRec _ _
      · refine ((modRec ?_ _ _).modRec _ _).drEvent _ _ _ _
        split
        · exact ((h.modRec _ _).modRec _ _).modRec _ _
        · exact h.modRec _ _

theorem closeOpen (h : r.Begun e) (old : Run) : (r.closeOpen old).Begun e :=
  foldl (fun _ _ h => h.ite (((h.modRec _ _).drClose _ _).modRec _ _)) _ h

theorem modTask (h : r.Begun e) (n i : Nat) (f : TaskSt → TaskSt) : (r.modTask n i f).Begun e := by
  unfold Run.modTask
  split
  · exact h.modCle _
  · exact h

theorem restoreRetained (h : r.Begun e) : r.restoreRetained.Begun e := by
  refine foldl (fun r x h => ?_) _ h
  split
  · exact h.modTask _ _ _
  · exact h

theorem partnerTake (h : r.Begun e) (p : PartnerVar) : (r.partnerTake p).Begun e := h.ite ((h.modTrip _).modTask _ _ _)

theorem partnerRestore (h : r.Begun e) : r.partnerRestore.Begun e := foldl (fun _ p h => h.partnerTake p) _ h

/-! ### Outputs -/

theorem driveOne (h : r.Begun e) (v : Bool) (n : Nat) : (r.driveOne v n).Begun e :=
  ite (emit (ite ((h.modTrip _).count _ _) (h.modTrip _)) _) (ite ((h.modTrip _).count _ _) (h.modTrip _))

theorem soSafe (h : r.Begun e) (n : Nat) : (r.soSafe n).Begun e := foldl (fun _ _ h => h.driveOne _ _) _ h

theorem muxBall (h : r.Begun e) (n : Nat) (stb : Bool) : (r.muxBall n stb).Begun e :=
  ite ((h.modTrip _).emit _) (h.ite ((h.modTrip _).emit _))

theorem safetyUp (h : r.Begun e) : r.safetyUp.Begun e :=
  foldl (fun _ _ h => ite (h.muxBall _ _) ((h.modTrip _).emit _)) _ (foldl (fun _ _ h => h.emit _) _ (h.emit _))

theorem healthyFall (h : r.Begun e) (cause unit : Nat) : (r.healthyFall cause unit).Begun e := by
  have hcause : Run.Begun { r with flt := { r.flt with cause := cause, healthy := false } } e := ⟨h.epoch, h.ready, h.noReset⟩
  unfold Run.healthyFall
  exact h.ite (ite (foldl (fun _ _ h => h.soSafe _) _ (ite ((hcause.emit _).raise _) hcause)) (ite ((hcause.emit _).raise _) hcause))

/-! ### The field bus -/

theorem modBuf (h : r.Begun e) (n b : Nat) (f : CanBuf → CanBuf) : (r.modBuf n b f).Begun e := by
  unfold Run.modBuf
  split
  · exact h.modCan _ _
  · exact h

theorem canEnd (h : r.Begun e) (n b status : Nat) : (r.canEnd n b status).Begun e := by
  unfold Run.canEnd
  split
  · exact h
  · extract_lets stored ended counted raised
    have hended : ended.Begun e := (h.modBuf _ _ _).modCan _ _
    have hcounted : counted.Begun e := ite (hended.modCan _ _) hended
    exact foldl (fun _ _ h => h.finish _ _ _) _ (ite (hcounted.raise _) hcounted)

theorem modBus (h : r.Begun e) (n : Nat) (f : CanChan → CanChan) : (r.modBus n f).Begun e :=
  ite ((h.modCan _ _).emit _) (h.modCan _ _)

theorem canStateEvent (h : r.Begun e) (n old : Nat) : (r.canStateEvent n old).Begun e := h.ite (h.raise _)

theorem fieldBusDown (h : r.Begun e) : r.fieldBusDown.Begun e :=
  foldl (fun _ _ h => (foldl (fun _ _ h => h.canEnd _ _ _) _ (h.modBus _ _)).canStateEvent _ _) _ h

/-! ### The power-on self-test -/

theorem dropWaits (h : r.Begun e) (doomed : Nat → Word → Bool) : (r.dropWaits doomed).Begun e :=
  ⟨h.epoch, h.ready, h.noReset⟩

/-- No VI waits for the end of a reset, so none is undone. -/
theorem discardAll (h : r.Begun e) (p : Nat → Accepted → Bool) : (r.discardAll p).Begun e := by
  unfold Run.discardAll
  extract_lets hit doomed keep gone lost undone kept settled exchanged resets waited
  have hsettled : settled.Begun e := foldl (fun _ x h => h.settleSlot x.slot) _ ⟨h.epoch, h.ready, h.noReset⟩
  have hexchanged : exchanged.Begun e := foldl (fun _ _ h => (h.modSluice _).modCle _) _ hsettled
  have hresets : resets = [] := by
    refine List.filterMap_eq_nil_iff.mpr fun n _ => ?_
    rw [hexchanged.noReset n]
    rfl
  have hwaited : waited.Begun e := by
    unfold waited
    rw [hresets]
    exact hexchanged.dropWaits doomed
  exact foldl (fun _ _ h => foldl (fun _ _ h => h.finish _ _ _) _ h) _ hwaited

theorem markUnit (h : r.Begun e) (u : Nat) (st : UnitState) : (r.markUnit u st).Begun e := by
  unfold Run.markUnit
  extract_lets marked event down
  have hevent : event.Begun e := (((h.modFlt _).modFlt _).devState).raise _
  have hdown : down.Begun e := by
    unfold down
    split
    · exact hevent.modSluice _
    · exact hevent
  exact ite ((hdown.modFlt _).discardAll _) hdown

theorem loseStaged (h : r.Begun e) : r.loseStaged.Begun e := ⟨h.epoch, h.ready, h.noReset⟩

theorem withdrawCells (h : r.Begun e) : r.withdrawCells.Begun e := ⟨h.epoch, h.ready, h.noReset⟩

theorem restoreCells (h : r.Begun e) : r.restoreCells.Begun e := ⟨h.epoch, h.ready, h.noReset⟩

theorem retireBank (h : r.Begun e) (u : Nat) : (r.retireBank u).Begun e :=
  ite (h.healthyFall _ _) (ite h.withdrawCells ((ite h.loseStaged (ite h.fieldBusDown h)).raise _))

theorem rewriteRow (h : r.Begun e) (u : Nat) : (r.rewriteRow u).Begun e := ite (h.modIng _) h

theorem remapRow (h : r.Begun e) (u : Nat) : (r.remapRow u).Begun e := by
  unfold Run.remapRow
  extract_lets ch used mapped
  have hmapped : mapped.Begun e := (((h.modFlt _).modFlt _).devState).rewriteRow u
  exact ite (ite (hmapped.raise _) hmapped) (ite (h.healthyFall _ _) h)

theorem retire (h : r.Begun e) (u : Nat) (slot : Option TestSlot) : (r.retire u slot).Begun e := by
  unfold Run.retire
  extract_lets already marked
  have hmarked : marked.Begun e := h.markUnit u _
  split
  · exact ite (hmarked.modFlt _) (ite hmarked (hmarked.retireBank u))
  · exact hmarked.retireBank u
  · exact ite hmarked (hmarked.remapRow u)
  · exact hmarked

theorem postFail (h : r.Begun e) (u : Nat) : (r.postFail u).Begun e := h.ite (retire (ite (h.modFlt _) h) u _)

theorem returnUnit (h : r.Begun e) (u : Nat) (was : UnitState) : (r.returnUnit u was).Begun e := by
  unfold Run.returnUnit
  extract_lets served up
  have hserved : served.Begun e := ((h.modFlt _).modFlt _).devState
  have hup : up.Begun e := by
    unfold up
    split
    · exact hserved.modSluice _
    · exact hserved
  exact ite hup.restoreCells hup

theorem postPass (h : r.Begun e) (u : Nat) : (r.postPass u).1.Begun e := by
  unfold Run.postPass
  dsimp only
  split
  · exact (h.modFlt _).postFail u
  · exact returnUnit (ite ((h.modFlt _).modFlt _) (h.modFlt _)) u _

theorem post (h : r.Begun e) (rows : Nat) (failed : List Nat) : (r.post rows failed).Begun e := by
  have passed (l : List Nat) (x : Run × Nat) (h : x.1.Begun e) :
      (l.foldl (fun (acc : Run × Nat) u => ((acc.1.postPass u).1, if (acc.1.postPass u).2 then acc.2 + 1 else acc.2)) x).1.Begun e := by
    induction l generalizing x with
    | nil => exact h
    | cons u l ih => exact ih _ (h.postPass u)
  exact (passed _ _ (foldl (fun _ u h => h.postFail u) _ h)).raise _

/-! ### What a cold start reports -/

/-- EV_IMAGE, one for each cause (R640). -/
theorem images (h : r.Begun e) (causes : List Nat) :
    (causes.foldl (fun (r : Run) (c : Nat) => r.raise { ev := .image, source := 11, data := [(c : Int)] }) r).Begun e :=
  foldl (fun _ _ h => h.raise _) _ h

/-- EV_MEM_MISMATCH, for the capacities of the channels and for the DR region (R31, R34). -/
theorem mismatches {p q : Prop} [Decidable p] [Decidable q] (h : r.Begun e) :
    (if q then (if p then r.memMismatch else r).memMismatch else if p then r.memMismatch else r).Begun e :=
  ite (raise (ite (h.raise _) h) _) (ite (h.raise _) h)

end Run.Begun

/-! ### The starts -/

/-- No VI waits for the end of a reset at a start. -/
theorem Run.restarted_noReset (r : Run) (warm : Bool) (n : Nat) : ((r.restarted warm).inst n).reset = none := by
  change ((r.abandonClear.insts.map fun (i : InstState) => i.restarted warm).getD n {}).reset = none
  rw [List.getD_eq_getElem?_getD, List.getElem?_map]
  cases r.abandonClear.insts[n]? <;> rfl

theorem Run.restoreConfig_insts (r : Run) (c : DevConfig) : (r.restoreConfig c).insts = r.insts := by
  have htribs (l : List Nat) (r : Run) :
      (l.foldl (fun (r : Run) p => r.modSwPort p fun x => { x with trib := true }) r).insts = r.insts := by
    induction l generalizing r with
    | nil => rfl
    | cons p l ih => exact ih _
  simp only [Run.restoreConfig, Run.setFltCtrl, Run.modTrip_insts, Run.modFlt_insts, Run.modTsuRegs_insts, Run.modSw_insts, htribs]

theorem Run.begin_begun (old : Run) {sys : Sys} (k : StartIn) (warm : Bool) {e : Word} (he : sys.epochStored = e) :
    (old.begin' sys k warm).Begun e := by
  unfold Run.begin'
  extract_lets kept held reported strong ledger counted staged served
  have hheld (n : Nat) : (held.inst n).reset = none := by
    have hkept := old.restarted_noReset warm n
    unfold held
    split
    · rw [Run.inst, Run.restoreConfig_insts]
      exact hkept
    · exact hkept
  have hreported : reported.Begun e :=
    Run.Begun.foldl (fun _ _ h => h.ite (h.raiseInst _ _)) _ ⟨he, rfl, hheld⟩
  have hledger : ledger.Begun e := (((hreported.startStrong _ _).loadLedger _ _).modLgr _ |>.count _ _).devState
  have hserved : served.Begun e := ((hledger.count _ _).stage _).serviceDay
  exact Run.Begun.ite ((hserved.closeOpen old).restoreRetained).partnerRestore hserved

/-- A cold start that has trained its memory has begun with the new EPOCH. -/
theorem coldStart_begun {k : StartIn} (hmem : ¬ (k.memA = 0 ∨ k.memB = 0)) (sys : Sys) (r : Run) :
    (coldStart sys r k).2.Begun (sys.epochStored + 1) := by
  have hpick : (sys.down.pick k.bootSel).1.epochStored = sys.epochStored := by
    obtain ⟨x, y, e⟩ := sys.down.pick_copies k.bootSel
    rw [e]
    rfl
  rw [← hpick]
  unfold coldStart
  simp only [if_neg hmem]
  split
  · exact .emit (.mismatches (.images (.count (Run.begin_begun _ k false rfl) _ _) _)) _
  · exact .safetyUp (.post (.mismatches (.images (.count (Run.begin_begun _ k false rfl) _ _) _)) _ _)

theorem warmStart_begun {sys : Sys} {k : StartIn} (hok : (!k.firmwareOk || !k.configOk || !sys.selfRefresh) = false) (r : Run) :
    (warmStart sys r k).2.Begun (sys.epochStored + 1) := by
  unfold warmStart
  simp only [hok, Bool.false_eq_true, if_false]
  exact .ite ((Run.begin_begun _ k true rfl).emit _) (Run.begin_begun _ k true rfl).safetyUp

/-- A start that has reached READY or recovery, in `x`, of a device that held the EPOCH `e`: it holds the next one in FLB, and runs in it. -/
def Started (x : Sys × Run) (e : Word) : Prop :=
  x.1.phase ≠ .reset ∧ x.1.epochStored = e + 1 ∧ x.2.epoch = e + 1 ∧ x.2.ready = true

/-- A cold start that has not stopped in boot has trained its memory. -/
theorem coldStart_started {sys : Sys} {r : Run} {k : StartIn} (hst : (coldStart sys r k).1.stuck = false) :
    Started (coldStart sys r k) sys.epochStored := by
  have hmem : ¬ (k.memA = 0 ∨ k.memB = 0) := fun hmem => by
    obtain ⟨began, e⟩ := coldStart_untrained hmem sys r
    rw [e] at hst
    exact Bool.noConfusion hst
  have hbegun := coldStart_begun hmem sys r
  obtain ⟨began, held, e⟩ := coldStart_trained hmem sys r
  obtain ⟨x, y, boot, hbooted⟩ := sys.booted_eq k began
  refine ⟨?_, ?_, hbegun.epoch, hbegun.ready⟩
  · rw [e, Sys.coldStarted]
    dsimp only
    split <;> exact Phase.noConfusion
  · rw [e, Sys.coldStarted, hbooted]
    rfl

/-- A warm start whose check fails is a cold one. -/
theorem warmStart_started {sys : Sys} {r : Run} {k : StartIn} (hst : (warmStart sys r k).1.stuck = false) :
    Started (warmStart sys r k) sys.epochStored := by
  cases hok : !k.firmwareOk || !k.configOk || !sys.selfRefresh with
  | true =>
    have hcold : warmStart sys r k = coldStart sys r k := if_pos hok
    rw [hcold] at hst ⊢
    exact coldStart_started hst
  | false =>
    have hbegun := warmStart_begun hok r
    obtain ⟨began, held, e⟩ := warmStart_checked hok r
    refine ⟨?_, ?_, hbegun.epoch, hbegun.ready⟩
    · rw [e, Sys.warmStarted]
      dsimp only
      split <;> exact Phase.noConfusion
    · rw [e]
      rfl

/-- Settles O60. -/
theorem everyStartAdvancesEpoch : Obligations.EveryStartAdvancesEpoch := fun _ _ _ => ⟨coldStart_started, warmStart_started⟩

end Sys2Proof.Machine
end

section
/-! The ledger: its additions, and the rows of its counters, hours, minutes and days, writes and wear (R548 to R556). -/

namespace Sys2Proof.Machine

/-! ### Additions (R548) -/

theorem Ledger.value_tabSet (l : Ledger) (k v j : Nat) :
    ({ l with counters := tabSet l.counters k v } : Ledger).value j = if j = k then v else l.value j := tabGetD_tabSet _ _ _ _ _

/-- An event leaves the ledger as it is. -/
theorem Run.raise_lgr (r : Run) (x : Raise) : (r.raise x).lgr = r.lgr := by rw [Run.raise_eq]

theorem contains_setIns_self (l : List Nat) (k : Nat) : (setIns l k).contains k = true := by
  induction l with
  | nil => simp [setIns]
  | cons x l ih =>
    unfold setIns
    split
    · simp
    · split
      · next h => simp [h]
      · rw [List.contains_cons, ih, Bool.or_true]

/-- What an addition leaves of a counter: the sum, or 2⁶⁴ − 1 where the sum would pass it; and the others as they were. -/
theorem Run.ledgerAdd_value (r : Run) {k : Nat} (n j : Nat) (hk : r.lgr.value k < 2 ^ 64) :
    (r.ledgerAdd k n).lgr.value j = if j = k then min (r.lgr.value k + n) (2 ^ 64 - 1) else r.lgr.value j := by
  unfold Run.ledgerAdd
  split
  · next hn =>
    split
    · next hj => subst hj hn; omega
    · rfl
  · dsimp only
    split
    · rw [Run.raise_lgr]
      exact Ledger.value_tabSet ..
    · exact Ledger.value_tabSet ..

/-- An addition raises no event but where it first saturates its counter. -/
theorem Run.ledgerAdd_quiet {r : Run} {k n : Nat} (h : r.lgr.value k + n < 2 ^ 64 ∨ r.lgr.saturated.contains k = true) :
    (r.ledgerAdd k n).fns = r.fns ∧ (r.ledgerAdd k n).cause = r.cause := by
  have hfirst : ¬ (decide (2 ^ 64 ≤ r.lgr.value k + n) && !r.lgr.saturated.contains k) = true := by
    simp only [Bool.and_eq_true, decide_eq_true_eq, Bool.not_eq_true']
    rintro ⟨hpast, hnot⟩
    obtain hsum | hsat := h
    · omega
    · exact absurd (hnot.symm.trans hsat) Bool.false_ne_true
  unfold Run.ledgerAdd
  split
  · exact ⟨rfl, rfl⟩
  · dsimp only
    rw [if_neg hfirst]
    exact ⟨rfl, rfl⟩

/-- The addition that first saturates its counter notes so, and raises EV_LGR_SATURATED. -/
theorem Run.ledgerAdd_saturates {r : Run} {k n : Nat} (hk : r.lgr.value k < 2 ^ 64) (hpast : 2 ^ 64 ≤ r.lgr.value k + n)
    (hnot : r.lgr.saturated.contains k = false) :
    ∃ r' : Run, r.ledgerAdd k n = r'.raise { ev := .lgrSaturated, source := 810, data := [(k : Int)] } ∧
      r'.lgr.saturated.contains k = true := by
  have hn : ¬ n = 0 := by omega
  unfold Run.ledgerAdd
  simp only [if_neg hn, hpast, hnot, decide_true, Bool.not_false, Bool.and_self, if_true]
  exact ⟨_, rfl, contains_setIns_self _ _⟩

/-- Settles O57: what an addition leaves of the counters, and whether it is the one that first saturates its counter. -/
theorem ledgerNeverDecreases : Obligations.LedgerNeverDecreases := by
  intro r k n hk
  have hvalue (j : Nat) := r.ledgerAdd_value n j hk
  refine ⟨fun j => ?_, fun j hj => ?_, ?_, fun h => Run.ledgerAdd_quiet (.inl h), fun hpast hnot => Run.ledgerAdd_saturates hk hpast hnot,
    fun h => Run.ledgerAdd_quiet (.inr h)⟩
  · rw [hvalue]
    split
    · next hj => subst hj; omega
    · exact le_rfl
  · rw [hvalue, if_neg hj]
  · rw [hvalue, if_pos rfl]

/-! ### Rows -/

theorem exec_lgrRead (s : State) {c : Cmd} {a : Accepted} {first count : Nat} (h : s.Ready { op := 0x0C04, pf0 := false } c a)
    (hend : first + count ≤ 4096)
    (hmine : ∀ k, first ≤ k → k < first + count → c.fn = 0 ∨ k < 256 ∨ tabGet s.run.lgr.owner k = some (c.fn - 1))
    (hfit : 8 * count ≤ a.entry.bufLen) (hbuf : c.bufErr = false) :
    exec (.lgrRead c first count) s =
      .next (s.done c s.run { buffer := (List.range count).map fun k => (s.run.lgr.value (k + first) : Int), bufLen := 8 * count }) := by
  have hopen : ((List.range count).map (· + first)).all
      (fun k => c.fn == 0 || decide (k < 256) || tabGet s.run.lgr.owner k == some (c.fn - 1)) = true := by
    simp only [List.all_map, List.all_eq_true, List.mem_range, Function.comp_apply, Bool.or_eq_true, beq_iff_eq, decide_eq_true_eq, or_assoc]
    exact fun k hk => hmine (k + first) (by omega) (by omega)
  change execLgrRead c first count s = _
  refine runQuery_done _ c s _ a _ h ?_ (.inr ⟨hfit, hbuf⟩)
  simp only [if_neg (Nat.not_lt.mpr hend), hopen, Bool.not_true, Bool.false_eq_true, if_false, List.map_map]
  rfl

theorem exec_lgrAssign (s : State) {c : Cmd} {a : Accepted} {counter inst : Nat} (h : s.Ready { op := 0x0C05, pf0 := true } c a)
    (hlow : 256 ≤ counter) (hhigh : counter < 4096) (hi : inst < 32) :
    exec (.lgrAssign c counter inst) s =
      .next (s.done c (s.run.modLgr fun l => { l with owner := tabSet l.owner counter inst }) {}) := by
  change execLgrAssign c counter inst s = _
  exact runCmd_done _ c s _ a _ _ h (if_neg (by omega)) (.inl rfl)

theorem exec_lgrAdd (s : State) {c : Cmd} {a : Accepted} {counter : Nat} (n : Nat) (h : s.Ready { op := 0x0C06, pf0 := false } c a)
    (hlow : 256 ≤ counter) (hhigh : counter < 4096)
    (hmine : (∃ k, a.target = some k ∧ tabGet s.run.lgr.owner counter = some k) ∨ (a.target = none ∧ c.fn = 0)) :
    exec (.lgrAdd c counter n) s = .next (s.done c (s.run.ledgerAdd counter n) {}) := by
  have hin : ¬ (counter < 256 ∨ 4096 ≤ counter) := by omega
  change execLgrAdd c counter n s = _
  refine runCmd_done _ c s _ a _ _ h ?_ (.inl rfl)
  obtain ⟨k, htarget, howner⟩ | ⟨htarget, hpf⟩ := hmine
  · simp only [htarget, howner, ← or_assoc, hin, beq_self_eq_true, Bool.not_true, Bool.false_eq_true, or_self, if_false]
    rfl
  · simp only [htarget, hpf, ← or_assoc, hin, beq_self_eq_true, Bool.not_true, Bool.false_eq_true, or_self, if_false]
    rfl

theorem exec_operatingHour (s : State) {dt : Nat} (h : s.Up)
    (hdue : s.run.lgr.powerAt + msTicks (3600000 * (s.run.lgr.hours + 1)) ≤ s.run.ticks + dt) :
    exec (.operatingHour dt) s =
      .next (s.ran (((s.run.pass dt).modLgr fun l => { l with hours := l.hours + 1 }).count .operatingHours)) := by
  change execOperatingHour dt s = _
  rw [execOperatingHour, whenUp_up s _ h]
  exact congrArg (fun r => Host.Outcome.next (s.ran r)) (if_neg (Nat.not_lt.mpr hdue))

/-- The bin is that of the junction temperature of this minute. -/
theorem exec_tempBinMinute (s : State) (tj : Int) {dt : Nat} (h : s.Up) (hdue : s.run.lgr.minuteAt + msTicks 60000 ≤ s.run.ticks + dt) :
    exec (.tempBinMinute tj dt) s =
      .next { s with
        sys := { s.sys with tj := tj, maxTj := max s.sys.maxTj tj },
        run := ((s.run.pass dt).modLgr fun l => { l with minuteAt := s.run.ticks + dt }).count (.tempBin (tempBin tj)) } := by
  change execTempBinMinute tj dt s = _
  rw [execTempBinMinute, if_neg h]
  simp only [Run.pass_ticks, Run.pass_lgr, hdue, decide_true, if_true]

theorem exec_serviceDay (s : State) (dt : Nat) (h : s.Up) : exec (.serviceDay dt) s = .next (s.ran (s.run.pass dt).serviceDay) := by
  change execServiceDay dt s = _
  exact whenUp_up s _ h

theorem exec_ledgerWrite (s : State) (copyB : Bool) {dt x : Nat} {l : List Nat} (h : s.Up) (hdue : (s.run.pass dt).entriesDue = x :: l) :
    exec (.ledgerWrite copyB dt) s = .next (s.ran ((s.run.pass dt).writeEntries (x :: l) copyB)) := by
  change execLedgerWrite copyB dt s = _
  rw [execLedgerWrite, whenUp_up s _ h]
  simp only [hdue]

/-- One check in a TAI day, and one event as the estimate falls below the 40 years. -/
theorem exec_ledgerWearCheck (s : State) (dt : Nat) (h : s.Up) :
    let r := s.run.pass dt
    let left := Config.lifeLeft (s.run.lgr.value 6) 100000 (s.run.lgr.value 1)
    let r' := r.modLgr fun l => { l with wearDay := some (dayOf r.now), wearLow := decide (left + s.run.lgr.value 1 < 14610) }
    exec (.ledgerWearCheck dt) s =
      .next (s.ran (if s.run.lgr.wearDay = some (dayOf r.now) then r
        else if left + s.run.lgr.value 1 < 14610 ∧ s.run.lgr.wearLow = false then
          r'.raise { ev := .lgrWear, source := 809, data := [(left : Int)] }
        else r')) := by
  intro r left r'
  change execLedgerWearCheck dt s = _
  rw [execLedgerWearCheck, whenUp_up s _ h]
  congr 2
  unfold Run.wearCheck
  dsimp only
  simp only [Bool.and_eq_true, decide_eq_true_eq, Bool.not_eq_true']
  rfl

/-- Settles O38, row by row. -/
theorem ledgerRowsComplete : Obligations.LedgerRowsComplete :=
  ⟨fun s _ _ _ _ => exec_lgrRead s, fun s _ _ _ _ => exec_lgrAssign s, fun s _ _ _ n => exec_lgrAdd s n, fun s _ => exec_operatingHour s,
    fun s tj _ => exec_tempBinMinute s tj, exec_serviceDay, fun s copyB _ _ _ => exec_ledgerWrite s copyB, exec_ledgerWearCheck⟩

end Sys2Proof.Machine
end

section
/-! The Cellar: what staging a record leaves, flushes and lost records, and the Cellar commands (R540 to R547, R556). -/

namespace Sys2Proof.Machine

/-! ### What staging leaves (R539 to R543) -/

/-- What staging the records `l` leaves of the Cellar. -/
structure Run.Stages (r t : Run) (l : List CelRec) : Prop where
  stage : t.cel.stage = r.cel.stage ++ l
  nextSeq : t.cel.nextSeq = r.cel.nextSeq + l.length
  lostNow : t.cel.lostNow = r.cel.lostNow
  powerFail : t.cel.powerFail = r.cel.powerFail
  flt : t.flt = r.flt

/-- The record that staging an item makes of it. -/
def Run.recordOf (r : Run) (x : CelItem) : CelRec :=
  { seq := r.cel.nextSeq, micros := x.time / 1000, type := x.type, source := x.source, inst := x.inst, epoch := r.epoch,
    tq := r.tsu.tqAt x.time, severity := x.severity, logEpoch := r.cel.logEpoch, data := x.data }

/-- Records are kept: no POWER_FAIL record is staged, and FLB does not fail. -/
def Run.Keeps (r : Run) : Prop := r.cel.powerFail = false ∧ r.flt.lasting.contains 26 = false

theorem Run.stageFull_of_length {r : Run} (h : 4096 ≤ r.cel.stage.length) : r.stageFull = true := by
  simp [Run.stageFull, h]

theorem Run.stageFull_eq_false (r : Run) : r.stageFull = false ↔ r.cel.stage.length < 4096 ∧ r.flt.storeLost 7 = false := by
  simp [Run.stageFull]

theorem Run.Stages.keeps {r t : Run} {l : List CelRec} (h : r.Stages t l) (hk : r.Keeps) : t.Keeps := by
  unfold Run.Keeps
  rw [h.powerFail, h.flt]
  exact hk

theorem Run.stage_full {r : Run} (x : CelItem) (hk : r.Keeps) (hfull : r.stageFull = true) :
    (r.stage x).cel = { r.cel with lostNow := r.cel.lostNow + 1, stageLost := (r.cel.stageLost + 1) % 2 ^ 64 } := by
  unfold Run.stage
  simp only [hk.1, hk.2, Bool.false_eq_true, or_self, if_false, hfull, if_true]

theorem Run.stages_stage {r : Run} (x : CelItem) (hk : r.Keeps) (hroom : r.stageFull = false) :
    r.Stages (r.stage x) [r.recordOf x] := by
  have hcel : ∃ b n, (r.stage x).cel =
      { r.cel with stage := r.cel.stage ++ [r.recordOf x], nextSeq := r.cel.nextSeq + 1, flushing := b, flushTo := n } := by
    unfold Run.stage
    simp only [hk.1, hk.2, Bool.false_eq_true, or_self, if_false, hroom]
    split
    · exact ⟨true, _, rfl⟩
    · exact ⟨r.cel.flushing, r.cel.flushTo, rfl⟩
  obtain ⟨b, n, hcel⟩ := hcel
  have hflt : (r.stage x).flt = r.flt := by rw [Run.stage_eq]
  exact ⟨by rw [hcel], by rw [hcel]; rfl, by rw [hcel], by rw [hcel], hflt⟩

/-- What an event does to the Cellar is its copy: its entry and its cause bit leave the Cellar as it is. -/
theorem Run.raise_copies (r : Run) (x : Raise) : ∃ r' : Run, r.raise x = r'.copyEvent x ∧ r'.cel = r.cel ∧ r'.flt = r.flt := by
  refine ⟨_, rfl, ?_, ?_⟩
  · rw [Run.raiseSource_eq, Run.postEvent_eq]
  · rw [Run.raiseSource_eq, Run.postEvent_eq]

/-- The record item of an event's copy (R540). -/
def Run.copyOf (r : Run) (x : Raise) : CelItem :=
  { type := 0x0010, time := r.now, source := x.source, inst := x.inst, severity := x.severity, data := (x.ev.code : Int) :: x.data }

/-- A copy is at most one record. -/
theorem Run.stages_raise {r : Run} (x : Raise) (hk : r.Keeps) (hroom : r.stageFull = false) :
    ∃ l, l.length ≤ 1 ∧ r.Stages (r.raise x) l := by
  obtain ⟨r', hr, hcel, hflt⟩ := r.raise_copies x
  have hk' : r'.Keeps := by unfold Run.Keeps; rw [hcel, hflt]; exact hk
  have hroom' : r'.stageFull = false := by unfold Run.stageFull; rw [hcel, hflt]; exact hroom
  rw [hr]
  unfold Run.copyEvent
  split
  · obtain ⟨hstage, hseq, hlost, hpower, hf⟩ := Run.stages_stage (r'.copyOf x) hk' hroom'
    rw [hcel] at hstage hseq hlost hpower
    rw [hflt] at hf
    refine ⟨[r'.recordOf (r'.copyOf x)], le_rfl, ?_⟩
    dsimp only
    split
    · exact ⟨hstage, hseq, hlost, hpower, hf⟩
    · exact ⟨hstage, hseq, hlost, hpower, hf⟩
  · exact ⟨[], Nat.zero_le _, by simp [hcel], by simp [hcel], by rw [hcel], by rw [hcel], hflt⟩

/-- With no free place left an event leaves the stage and the next SEQ. -/
theorem Run.raise_full {r : Run} (x : Raise) (hk : r.Keeps) (hfull : r.stageFull = true) :
    (r.raise x).cel.stage = r.cel.stage ∧ (r.raise x).cel.nextSeq = r.cel.nextSeq := by
  obtain ⟨r', hr, hcel, hflt⟩ := r.raise_copies x
  have hk' : r'.Keeps := by unfold Run.Keeps; rw [hcel, hflt]; exact hk
  have hfull' : r'.stageFull = true := by unfold Run.stageFull; rw [hcel, hflt]; exact hfull
  rw [hr]
  unfold Run.copyEvent
  split
  · dsimp only
    split
    · dsimp only [Cellar.flush]
      rw [Run.stage_full _ hk' hfull', hcel]
      exact ⟨rfl, rfl⟩
    · rw [Run.stage_full _ hk' hfull', hcel]
      exact ⟨rfl, rfl⟩
  · rw [hcel]
    exact ⟨rfl, rfl⟩

/-! ### Flushes and lost records (R541 to R543) -/

theorem exec_cellarFlushSecond (s : State) {dt : Nat} (h : s.Up) (hsecond : (s.run.pass dt).onSecond = true) (hstaged : s.run.cel.stage ≠ []) :
    exec (.cellarFlushSecond dt) s = .next (s.ran ((s.run.pass dt).modCel (·.flush))) := by
  change execCellarFlushSecond dt s = _
  rw [execCellarFlushSecond, whenUp_up s _ h]
  simp only [hsecond, Run.pass_cel, bne_iff_ne.mpr hstaged, Bool.and_self, if_true]

theorem exec_cellarFlushDone (s : State) (dt tagErases : Nat) (err : Option (Nat × Nat)) (h : s.Up) (hflush : s.run.cel.flushing = true) :
    let p := s.run.pass dt
    let r := (((if s.run.cel.powerFail then p.endCommits else p).flushOnce).count .flbErases tagErases).afterFlush
    exec (.cellarFlushDone tagErases err dt) s =
      .next (s.ran (match err with
        | some (a, n) => if flushAddress a then r.raise { ev := .celFlushErr, source := 803, data := [(a : Int), n] } else r
        | none => r)) := by
  intro p r
  change execCellarFlushDone tagErases err dt s = _
  rw [execCellarFlushDone, whenUp_up s _ h]
  simp only [Run.pass_cel, hflush, Bool.not_true, Bool.false_eq_true, if_false]
  rfl

/-- The record of the number dropped, and its event: the copy of the event comes first, but where one place is left. -/
theorem exec_stageLossRecord (s : State) (dt : Nat) (h : s.Up) (hlost : s.run.cel.lostNow ≠ 0) (hroom : s.run.stageFull = false) :
    let r := (s.run.pass dt).modCel fun c => { c with lostNow := 0 }
    let x : CelItem := { type := 4, time := r.now, data := [(s.run.cel.lostNow : Int)] }
    let e : Raise := { ev := .celLoss, source := 800, data := [((s.run.cel.lostNow % 2 ^ 32 : Nat) : Int)] }
    exec (.stageLossRecord dt) s =
      .next (s.ran (if s.run.cel.stage.length = 4095 then (r.stage x).raise e else (r.raise e).stage x)) := by
  intro r x e
  have hroom' : (s.run.pass dt).stageFull = false := hroom
  change execStageLossRecord dt s = _
  rw [execStageLossRecord, whenUp_up s _ h]
  simp only [Run.pass_cel, hlost, hroom', Bool.false_eq_true, or_self, if_false]
  rfl

/-- Settles O56: with a full stage the record is dropped and counted; with room the STAGE_LOSS record is staged, before the copy of its
event where one place is left and after it elsewhere. -/
theorem fullStageDropsTheRecord : Obligations.FullStageDropsTheRecord := by
  refine ⟨fun r x hpower hfault hfull => ?_, fun s dt h hlost hroom hpower hfault hsmall => ?_⟩
  · rw [Run.stage_full x ⟨hpower, hfault⟩ (Run.stageFull_of_length hfull)]
    exact ⟨rfl, rfl, rfl, rfl⟩
  · intro e
    have hexec := exec_stageLossRecord s dt h hlost hroom
    dsimp only at hexec
    rw [Nat.mod_eq_of_lt hsmall] at hexec
    have hfree := (Run.stageFull_eq_false s.run).mp hroom
    set r := (s.run.pass dt).modCel fun c => { c with lostNow := 0 } with hr
    set x : CelItem := { type := 4, time := r.now, data := [(s.run.cel.lostNow : Int)] } with hx
    have hkeeps : r.Keeps := ⟨hpower, hfault⟩
    have hroom' : r.stageFull = false := hroom
    by_cases hlast : s.run.cel.stage.length = 4095
    · rw [if_pos hlast] at hexec
      obtain ⟨hstage, hseq, hnone, -, -⟩ := Run.stages_stage x hkeeps hroom'
      have hkeeps' := (Run.stages_stage x hkeeps hroom').keeps hkeeps
      have hlength : (r.stage x).cel.stage.length = 4096 := by
        rw [hstage, List.length_append]
        exact congrArg (· + 1) hlast
      obtain ⟨hsame, hsame'⟩ := Run.raise_full e hkeeps' (Run.stageFull_of_length hlength.ge)
      refine ⟨_, r.stage x, r.recordOf x, hexec, ?_, rfl, rfl, le_rfl, ?_, ?_⟩
      · change _ ∈ ((r.stage x).raise e).cel.stage
        rw [hsame, hstage]
        simp
      · change _ < ((r.stage x).raise e).cel.nextSeq
        rw [hsame', hseq]
        exact Nat.lt_succ_self _
      · rw [if_neg (by omega)]
        exact ⟨rfl, hnone⟩
    · rw [if_neg hlast] at hexec
      obtain ⟨l, hl, hcopy⟩ := Run.stages_raise e hkeeps hroom'
      have hroom'' : (r.raise e).stageFull = false := by
        refine (Run.stageFull_eq_false _).mpr ⟨?_, by rw [hcopy.flt]; exact hfree.2⟩
        have hlength : r.cel.stage.length = s.run.cel.stage.length := rfl
        rw [hcopy.stage, List.length_append]
        omega
      have hnow : (r.raise e).now = r.now := by rw [Run.raise_eq]; rfl
      obtain ⟨hstage, hseq, hnone, -, -⟩ := Run.stages_stage x (hcopy.keeps hkeeps) hroom''
      refine ⟨_, r, (r.raise e).recordOf x, hexec, ?_, rfl, rfl, ?_, ?_, ?_⟩
      · change _ ∈ ((r.raise e).stage x).cel.stage
        rw [hstage]
        simp
      · change s.run.cel.nextSeq ≤ (r.raise e).cel.nextSeq
        rw [hcopy.nextSeq]
        exact Nat.le_add_right _ _
      · change _ < ((r.raise e).stage x).cel.nextSeq
        rw [hseq]
        exact Nat.lt_succ_self _
      · rw [if_pos (by omega)]
        exact ⟨by rw [hnow]; rfl, hnone.trans hcopy.lostNow⟩

/-! ### Commands (R541, R546, R547, R556) -/

theorem exec_celRead (s : State) {c : Cmd} {a : Accepted} {start count : Nat} (bad : List Nat) (h : s.Ready { op := 0x0C00, pf0 := true } c a)
    (hone : 1 ≤ count) (hmany : count ≤ 65536) (hheld : s.run.cel.tail ≤ start) :
    let l := (s.run.cel.ring.filter fun x => decide (start ≤ x.seq)).take count
    72 * l.length ≤ a.entry.bufLen → c.bufErr = false →
    exec (.celRead c start count bad) s =
      .next (s.done c (s.run.reportPages l bad) { buffer := l.flatMap fun x => x.fields (s.run.verdict bad x), bufLen := 72 * l.length }) := by
  intro l hfit hbuf
  change execCelRead c start count bad s = _
  refine runCmd_done _ c s _ a _ _ h ?_ (.inr ⟨hfit, hbuf⟩)
  rw [if_neg (by omega), if_neg (Nat.not_lt.mpr hheld)]

theorem exec_celFlush_idle (s : State) {c : Cmd} {a : Accepted} (h : s.Ready { op := 0x0C01, pf0 := true } c a)
    (hempty : s.run.cel.stage = []) (hidle : s.run.cel.flushing = false) : exec (.celFlush c) s = .next (s.done c s.run {}) := by
  change execCelFlush c s = _
  refine runCmd_done _ c s _ a s.run {} h ?_ (.inl rfl)
  rw [if_pos ⟨hempty, by rw [hidle]; rfl⟩]
  rfl

theorem exec_celFlush_busy (s : State) {c : Cmd} {a : Accepted} (h : s.Ready { op := 0x0C01, pf0 := true } c a)
    (hbusy : s.run.cel.stage ≠ [] ∨ s.run.cel.flushing = true) :
    exec (.celFlush c) s = .next (s.waits c (s.run.modCel fun k => { k.flush with flushWait := k.flushWait ++ [(c.fn, c.cseq)] })) := by
  have hnot : ¬ (s.run.cel.stage = [] ∧ (!s.run.cel.flushing) = true) := by
    rintro ⟨hempty, hidle⟩
    obtain hstaged | hflush := hbusy
    · exact hstaged hempty
    · simp [hflush] at hidle
  change execCelFlush c s = _
  exact runCmd_wait _ c s _ a _ h (if_neg hnot)

theorem exec_celChallenge (s : State) {c : Cmd} {a : Accepted} (h : s.Ready { op := 0x0C02, pf0 := true } c a)
    (htrng : s.run.srm.trngFail = false) (hfit : 16 ≤ a.entry.bufLen) (hbuf : c.bufErr = false) :
    exec (.celChallenge c) s =
      .next (s.done c ((s.run.takeFree 128).2.modCel fun k => { k with
          nonce := some ((s.run.takeFree 128).1, s.run.now + 300000000000), oldNonces := (k.nonce.toList.map (·.1)) ++ k.oldNonces })
        { result := [((s.run.takeFree 128).1.toNat : Int), s.run.cel.logEpoch], buffer := [(s.sys.serial : Int)], bufLen := 16 }) := by
  change execCelChallenge c s = _
  refine runCommand_done _ c s _ a s.sys _ _ h ?_ (.inr ⟨hfit, hbuf⟩)
  simp only [htrng, Bool.false_eq_true, if_false]
  rfl

theorem exec_celClear (s : State) {c : Cmd} {a : Accepted} {slot limit : Nat} (sig : Nat) {k : Key}
    (h : s.Ready { op := 0x0C03, pf0 := true, buf := true, need := some 96 } c a) (hidle : s.run.cel.clearing = none)
    (hheld : s.run.cel.tail ≤ limit) (hpast : limit < s.run.cel.nextSeq) (hslot : 8 ≤ slot) (hkey : s.run.srm.key slot = some k)
    (htrng : s.run.srm.trngFail = false) (hserves : s.run.srm.commandServes k c.fn 5 = true) :
    let msg (nonce : Nat) := [label [0x43, 0x45, 0x4C, 0x43, 0x4C, 0x52], s.sys.serial, s.run.cel.logEpoch, nonce, limit]
    let w : ClearWait := { fn := c.fn, cseq := c.cseq, limit := limit, oldEpoch := s.run.cel.logEpoch, keyId := k.keyId, serial := s.sys.serial }
    let r := (s.run.srmCount 0).modCel fun k => { k with clearing := some w }
    exec (.celClear c slot limit sig) s =
      .next (match s.run.clearCheck c.fn k msg sig with
        | none => s.waits c (if s.run.cel.stage = [] then r.clearStep w else r.modCel (·.flush))
        | some st => s.done c (s.run.srmCount 0) { status := st }) := by
  intro msg w r
  have hin : ¬ (limit < s.run.cel.tail ∨ s.run.cel.nextSeq ≤ limit) := by omega
  change execCelClear c slot limit sig s = _
  unfold execCelClear
  cases hcheck : s.run.clearCheck c.fn k msg sig with
  | none =>
    refine runCommand_wait _ c s _ a s.sys _ h ?_
    simp only [hidle, Option.isSome_none, Bool.false_eq_true, if_false, hin, hkey, Nat.not_lt.mpr hslot, htrng]
    rw [hcheck]
    rfl
  | some st =>
    refine runCommand_done _ c s _ a s.sys _ _ h ?_ (.inl rfl)
    simp only [hidle, Option.isSome_none, Bool.false_eq_true, if_false, hin, hkey, Nat.not_lt.mpr hslot]
    rw [hcheck]
    simp only [hserves, if_true]
    rfl

/-- Settles O37, row by row. -/
theorem cellarRowsComplete : Obligations.CellarRowsComplete :=
  ⟨fun s _ => exec_cellarFlushSecond s, fun s => exec_cellarFlushDone s, fun s => exec_stageLossRecord s,
    fun s _ _ _ _ bad => exec_celRead s bad, fun s _ _ h => ⟨exec_celFlush_idle s h, exec_celFlush_busy s h⟩,
    fun s _ _ => exec_celChallenge s, fun s _ _ _ _ sig _ => exec_celClear s sig⟩

end Sys2Proof.Machine
end

section
/-! Resets, power failure, the always-on feeds and temperature, and the commands of the firmware images (R634 to R658, R680). -/

namespace Sys2Proof.Machine

/-! ### Resets, power and temperature -/

theorem exec_sysrstNFall (s : State) (dt : Nat) (h : s.sys.phase ≠ .reset) :
    exec (.sysrstNFall dt) s =
      .next { s with sys := { s.sys.down with sysrstN := false, selfRefresh := true }, run := (s.run.pass dt).allZ } := by
  change execSysrstNFall dt s = _
  rw [execSysrstNFall, onBlock_next]
  simp only [if_neg h]

/-- PORST_N resets from every phase. -/
theorem exec_porstNFall (s : State) (dt : Nat) :
    exec (.porstNFall dt) s =
      .next { s with sys := { s.sys.down with porstN := false, selfRefresh := false }, run := (s.run.pass dt).allZ } := by
  change execPorstNFall dt s = _
  rw [execPorstNFall, onBlock_next]

theorem exec_pwrfailNFall (s : State) {lowNs : Nat} (dt : Nat) (h : s.sys.phase ≠ .reset) (hidle : s.sys.pwrfailAt = none)
    (hlong : 10000 ≤ lowNs) :
    exec (.pwrfailNFall lowNs dt) s =
      .next { s with
        sys := { s.sys with pwrfailN := false, pwrfailAt := some (s.run.ticks + dt - lowNs / 4), pwrfailCount := (s.sys.pwrfailCount + 1) % 2 ^ 64 },
        run := (s.run.pass dt).powerFails s.sys.vaonA s.sys.vaonB } := by
  change execPwrfailNFall lowNs dt s = _
  rw [execPwrfailNFall, onBlock_next]
  simp only [Nat.not_lt.mpr hlong, h, hidle, Option.isSome_none, Bool.false_eq_true, or_self, if_false, Run.pass_ticks]

theorem exec_powerFailReset (s : State) {dt t : Nat} (hat : s.sys.pwrfailAt = some t) (hdue : t + msTicks 2 ≤ s.run.ticks + dt) :
    exec (.powerFailReset dt) s =
      .next { s with sys := { s.sys.down with pwrfailReset := true, selfRefresh := true }, run := (s.run.pass dt).powerFlush.allZ } := by
  change execPowerFailReset dt s = _
  rw [execPowerFailReset, onBlock_next]
  simp only [hat, Run.pass_ticks, Nat.not_lt.mpr hdue, if_false]

theorem exec_pwrfailNRise (s : State) (k : StartIn) (dt : Nat) (h : s.sys.phase = .reset) (hporst : s.sys.porstN = true)
    (hsysrst : s.sys.sysrstN = true) (hcool : s.sys.thermal = false) (hstuck : s.sys.stuck = false) (hreset : s.sys.pwrfailReset = true) :
    let x := warmStart { s.sys with pwrfailN := true } (s.run.pass dt) k
    exec (.pwrfailNRise k dt) s = .next { s with sys := x.1, run := x.2 } := by
  intro x
  change execPwrfailNRise k dt s = _
  rw [execPwrfailNRise, onBlock_next]
  refine congrArg (fun y : Sys × Run => Host.Outcome.next { s with sys := y.1, run := y.2 }) (if_pos ?_)
  simp only [Sys.warmDue, h, hporst, hsysrst, hcool, hstuck, hreset, beq_self_eq_true, Bool.and_self, Bool.not_false, Bool.or_true]

theorem exec_aonFeedChange (s : State) (a b : Bool) (dt : Nat) (h : s.sys.phase ≠ .reset) (hchange : ¬ (a = s.sys.vaonA ∧ b = s.sys.vaonB)) :
    let lost := (if s.sys.vaonA && !a then 1 else 0) + (if s.sys.vaonB && !b then 1 else 0)
    let inside := !a && !b
    let x : Raise := { ev := .aonFeed, source := 9, severity := if inside then 2 else Ev.severity .aonFeed,
                       data := [if a then 1 else 0, if b then 1 else 0, if inside then 1 else 0] }
    let r := (s.run.pass dt).raise x
    exec (.aonFeedChange a b dt) s =
      .next { s with
        sys := { s.sys with vaonA := a, vaonB := b, aonLosses := (s.sys.aonLosses + lost) % 2 ^ 64 },
        run := if r.cel.minSeverity ≤ x.severity then r
          else r.stage { type := 0x0010, time := r.now, source := 9, severity := x.severity, data := (x.ev.code : Int) :: x.data } } := by
  intro lost inside x r
  change execAonFeedChange a b dt s = _
  rw [execAonFeedChange, onBlock_next]
  simp only [if_neg hchange, if_neg h]
  rfl

theorem exec_corePowerLoss (s : State) (dt : Nat) :
    let x := settleAon { s.sys.down with corePower := false, porstN := false, selfRefresh := false, thermal := false, pwrfailReset := false }
      (s.run.pass dt).allZ.loseStage.loseLedger
    exec (.corePowerLoss dt) s = .next { s with sys := x.1, run := x.2 } := by
  intro x
  change execCorePowerLoss dt s = _
  exact onBlock_next s _

theorem exec_thermalTrip (s : State) {tj : Int} (dt : Nat) (hot : 2000 ≤ tj) (hpower : s.sys.corePower = true) (hcool : s.sys.thermal = false) :
    exec (.thermalTrip tj dt) s =
      .next { s with sys := { s.sys.down with thermal := true, tripReset := true, selfRefresh := false, tj := tj }, run := (s.run.pass dt).allZ } := by
  change execThermalTrip tj dt s = _
  rw [execThermalTrip, onBlock_next]
  simp only [not_lt.mpr hot, hpower, hcool, Bool.not_true, Bool.false_eq_true, or_self, if_false]

theorem exec_thermalRecover (s : State) (k : StartIn) (dt : Nat) (hthermal : s.sys.thermal = true) (hcool : k.tj < 1600)
    (hporst : s.sys.porstN = true) (hsysrst : s.sys.sysrstN = true) :
    let x := coldStart { s.sys with thermal := false } (s.run.pass dt) k
    exec (.thermalRecover k dt) s = .next { s with sys := x.1, run := x.2 } := by
  intro x
  change execThermalRecover k dt s = _
  have hdue : ¬ ((!s.sys.thermal) = true ∨ 1600 ≤ k.tj) := by simp [hthermal, hcool]
  have hup : (s.sys.porstN && s.sys.sysrstN) = true := by rw [hporst, hsysrst, Bool.and_self]
  rw [execThermalRecover, onBlock_next]
  exact congrArg (fun y : Sys × Run => Host.Outcome.next { s with sys := y.1, run := y.2 }) ((if_neg hdue).trans (if_pos hup))

/-- Settles O46, row by row. -/
theorem resetAndPowerRowsComplete : Obligations.ResetAndPowerRowsComplete :=
  ⟨exec_sysrstNFall, exec_porstNFall, fun s _ => exec_pwrfailNFall s, fun s _ _ => exec_powerFailReset s, exec_pwrfailNRise,
    exec_aonFeedChange, exec_corePowerLoss, fun s _ => exec_thermalTrip s, exec_thermalRecover⟩

/-! ### Restarts and firmware images (R638, R641, R658) -/

theorem exec_devRestart (s : State) {c : Cmd} {a : Accepted} (cold : Bool) (h : s.Ready { op := 0x0140, pf0 := true, recovery := true } c a) :
    exec (.devRestart c cold) s = .next (({ s with sys := { s.sys with restartAsked := some cold } }).done c s.run {}) := by
  change execDevRestart c cold s = _
  exact runCommand_done _ c s _ a _ _ {} h rfl (.inl rfl)

/-- The image that is written is the one that does not run. -/
theorem exec_devImageWrite (s : State) {c : Cmd} {a : Accepted} {offset len : Nat} (erased : Nat) (content : Image)
    (h : s.Ready { op := 0x0141, pf0 := true, buf := true, need := some len, recovery := true } c a) (hlen : len ≤ 2 ^ 20)
    (hend : offset + len ≤ 2 ^ 25) (hactive : s.sys.bcb.active = s.sys.boot.imageB) (htrial : s.sys.bcb.trial ≠ some (!s.sys.boot.imageB)) :
    exec (.devImageWrite c offset len content erased) s =
      .next (({ s with sys := if s.sys.boot.imageB then { s.sys with imageA := content } else { s.sys with imageB := content } }).done c
        (s.run.count .flaErases erased) {}) := by
  have hin : ¬ (2 ^ 20 < len ∨ 2 ^ 25 < offset + len) := by omega
  have hfree : ¬ (s.sys.bcb.active = (!s.sys.boot.imageB) ∨ s.sys.bcb.trial = some (!s.sys.boot.imageB)) := by
    rw [hactive]
    exact not_or.mpr ⟨by cases s.sys.boot.imageB <;> decide, htrial⟩
  change execDevImageWrite c offset len content erased s = _
  refine runCommand_done _ c s _ a _ _ {} h ?_ (.inl rfl)
  simp only [if_neg hin, if_neg hfree]
  cases s.sys.boot.imageB <;> rfl

theorem exec_devImageCommit (s : State) {c : Cmd} {a : Accepted} {tries : Nat} (h : s.Ready { op := 0x0142, pf0 := true, recovery := true } c a)
    (hone : 1 ≤ tries) (hseven : tries ≤ 7) :
    let b := !s.sys.boot.imageB
    (s.sys.image b).good = true → s.sys.svnMin ≤ (s.sys.image b).svn →
    let new := s.sys.putBcb fun x => { x with trial := some b, tries := tries }
    exec (.devImageCommit c tries) s = .next (({ s with sys := new }).done c (s.run.count .flaErases (bcbErases s.sys new)) {}) := by
  intro b hgood hsvn new
  have hin : ¬ (tries < 1 ∨ 7 < tries) := by omega
  change execDevImageCommit c tries s = _
  refine runCommand_done _ c s _ a _ _ {} h ?_ (.inl rfl)
  rw [if_neg hin, hgood, if_neg (Nat.not_lt.mpr hsvn)]
  rfl

theorem exec_devImageConfirm (s : State) {c : Cmd} {a : Accepted} (h : s.Ready { op := 0x0143, pf0 := true } c a)
    (htrial : s.sys.boot.trial = true) :
    exec (.devImageConfirm c) s =
      .next (({ s with sys := (confirmTrial s.sys s.run).1 }).done c (confirmTrial s.sys s.run).2 {}) := by
  change execDevImageConfirm c s = _
  refine runCommand_done _ c s _ a _ _ {} h ?_ (.inl rfl)
  rw [htrial]
  rfl

theorem exec_devBootQuery (s : State) {c : Cmd} {a : Accepted} (h : s.Ready { op := 0x0144, pf0 := false, recovery := true } c a) :
    exec (.devBootQuery c) s =
      .next (s.done c s.run { result := (s.sys.bootWord : Int) :: s.sys.bcb.fields ++ [(s.sys.imageA.version : Int), s.sys.imageB.version] }) := by
  change execDevBootQuery c s = _
  exact runQuery_done _ c s _ a _ h rfl (.inl rfl)

/-- Settles O47, command by command. -/
theorem bootCommandsComplete : Obligations.BootCommandsComplete :=
  ⟨fun s _ _ => exec_devRestart s, fun s _ _ _ _ erased content => exec_devImageWrite s erased content, fun s _ _ _ => exec_devImageCommit s,
    fun s _ _ => exec_devImageConfirm s, fun s _ _ => exec_devBootQuery s⟩

end Sys2Proof.Machine
end

section
/-! Evaluations of a loop and the Millrace commands (R460, R465, R471 to R476). -/

namespace Sys2Proof.Machine

theorem Run.loop_bind {r : Run} {n index l : Nat} {x : LoopSt} (hdev : r.loopDev n index = some l) (hloop : r.loop l = some x) :
    ((r.loopDev n index).bind fun l => (r.loop l).map fun x => (l, x)) = some (l, x) := by
  rw [hdev, Option.bind_some, hloop, Option.map_some]

/-- A command on a loop that the VI has. -/
theorem onLoop_has {a : Accepted} {r : Run} {n index l : Nat} {x : LoopSt} (f : Nat → LoopSt → Run × Answer) (ht : a.target = some n)
    (hp : (r.inst n).phase ≠ .free) (hdev : r.loopDev n index = some l) (hloop : r.loop l = some x) : onLoop a index r f = f l x := by
  rw [onLoop, onSubs_exists _ ht hp, Run.loop_bind hdev hloop]

/-- The evaluation ends no earlier than its cost after the start of the node, and within the node's budget. -/
theorem exec_loopEvaluation (s : State) {n index dt l : Nat} {f : Flight} {x : LoopSt} {y : GNode} (h : s.Running)
    (hat : (s.run.slc.flights.find? fun f => f.inst == n && f.cls == 2 && f.phase == .executing && f.engine.isNone &&
      f.gen == (s.run.inst n).gen && match (s.run.slcOf n).g.nodes[f.node]? with | some x => x.op == index | none => false) = some f)
    (hdev : s.run.loopDev n index = some l) (hloop : s.run.loop l = some x) (hnode : (s.run.slcOf n).g.nodes[f.node]? = some y)
    (hbudget : loopCost x.record ≤ y.budget)
    (hdue : f.start * 4000 + clsDispatch 2 + loopCost x.record * clsPeriod 2 ≤ (s.run.pass dt).ticks * 4000) :
    exec (.loopEvaluation n index dt) s =
      .next (s.ran (((s.run.pass dt).mlrEvaluate l (x.tickOf f)).modFlight f fun f => { f with engine := some .done })) := by
  have hpair := Run.loop_bind (r := s.run.pass dt) hdev hloop
  change execLoopEvaluation n index dt s = _
  rw [execLoopEvaluation, whenRunning_running s _ h]
  refine congrArg (fun r => Host.Outcome.next (s.ran r)) ?_
  dsimp only
  split
  · next f' l' x' hat' hpair' =>
    obtain rfl : f = f' := Option.some.inj (hat.symm.trans hat')
    obtain ⟨rfl, rfl⟩ : l = l' ∧ x = x' := by simpa using hpair.symm.trans hpair'
    have hnode' : ((s.run.pass dt).slcOf n).g.nodes[f.node]? = some y := hnode
    rw [hnode', if_neg (by simpa using ⟨hbudget, hdue⟩)]
  · next hnone => exact absurd hpair (hnone f l x hat)

theorem exec_mlrLoopSet (s : State) {c : Cmd} {a : Accepted} {n index : Nat} {x : LoopRec}
    (h : s.Ready { op := 0x0900, pf0 := false, buf := true, need := some 320 } c a) (ht : a.target = some n)
    (hp : (s.run.inst n).phase ≠ .free) (hindex : index < 64) (hsound : loopDefect x = none) :
    exec (.mlrLoopSet c index x) s =
      .next (s.done c (s.run.modMlr fun y => { y with staged := tabSet y.staged (64 * n + index) (some x) }) {}) := by
  change execMlrLoopSet c index x s = _
  refine runCmd_done _ c s _ a _ {} h ?_ (.inl rfl)
  rw [onSubs_exists _ ht hp, if_neg (Nat.not_le.mpr hindex), hsound]
  rfl

theorem exec_mlrLoopDelete (s : State) {c : Cmd} {a : Accepted} {n index : Nat} (h : s.Ready { op := 0x0901, pf0 := false } c a)
    (ht : a.target = some n) (hp : (s.run.inst n).phase ≠ .free) (hheld : ((s.run.loopView n).any fun e => e.1 == index) = true) :
    exec (.mlrLoopDelete c index) s =
      .next (s.done c (s.run.modMlr fun y => { y with staged := tabSet y.staged (64 * n + index) none }) {}) := by
  change execMlrLoopDelete c index s = _
  refine runCmd_done _ c s _ a _ {} h ?_ (.inl rfl)
  rw [onSubs_exists _ ht hp, if_pos hheld]
  rfl

section OnLoop

variable (s : State) {c : Cmd} {a : Accepted} {n index l : Nat} {x : LoopSt} (ht : a.target = some n) (hp : (s.run.inst n).phase ≠ .free)
  (hdev : s.run.loopDev n index = some l) (hloop : s.run.loop l = some x)

include ht hp hdev hloop

theorem exec_mlrMode {mode : Nat} (value : Option Word) (h : s.Ready { op := 0x0902, pf0 := false } c a) (hmode : mode ≤ 1) :
    exec (.mlrMode c index mode value) s =
      .next (s.done c (s.run.modLoop l fun x => { x with reqs := x.reqs ++ [{ auto := mode == 1, cause := 1, value := value }] }) {}) := by
  change execMlrMode c index mode value s = _
  refine runCmd_done _ c s _ a _ {} h ?_ (.inl rfl)
  rw [onLoop_has _ ht hp hdev hloop, if_neg (Nat.not_lt.mpr hmode)]
  rfl

/-- A stage that the loop runs takes an injection only where the loop is automatic or the stage comes before the preset one. -/
theorem exec_mlrInject {stage kind order len hold seconds tick : Nat} {v fStart fEnd : Word} (h : s.Ready { op := 0x0903, pf0 := false } c a) :
    let i : Inject := { stage := stage, kind := kind, order := order, a := v, fStart := fStart, fEnd := fEnd, len := len, hold := hold,
                        tick := seconds * (if x.record.gridQ then 14400 else 4800) + tick, lfsr := 2 ^ order - 1 }
    injectOk x.record i tick = true → x.inject = none → (8 ≤ stage ∨ x.auto = true ∨ stage < x.record.preset) →
    exec (.mlrInject c index stage kind order v fStart fEnd len hold seconds tick) s =
      .next (s.done c (s.run.modLoop l fun x => { x with inject := some i }) {}) := by
  intro i hok hidle hstage
  have hmay : ¬ (stage < 8 ∧ (!x.auto) = true ∧ x.record.preset ≤ stage) := by
    rintro ⟨hlow, hmanual, hpreset⟩
    obtain hhigh | hauto | hbefore := hstage
    · omega
    · simp [hauto] at hmanual
    · omega
  change execMlrInject c index stage kind order v fStart fEnd len hold seconds tick s = _
  refine runCmd_done _ c s _ a _ {} h ?_ (.inl rfl)
  rw [onLoop_has _ ht hp hdev hloop]
  dsimp only
  rw [hok, hidle, if_neg hmay]
  rfl

theorem exec_mlrInjectStop (h : s.Ready { op := 0x0904, pf0 := false } c a) (hinject : x.inject.isSome = true) :
    exec (.mlrInjectStop c index) s =
      .next (s.done c ((s.run.modLoop l fun x => { x with inject := none }).mlrEvent l .mlrCapture [0xFF, 2]) {}) := by
  have hsome : ¬ x.inject.isNone = true := by simpa using Option.isSome_iff_ne_none.mp hinject
  change execMlrInjectStop c index s = _
  refine runCmd_done _ c s _ a _ {} h ?_ (.inl rfl)
  rw [onLoop_has _ ht hp hdev hloop, if_neg hsome]
  rfl

theorem exec_mlrCapture {slot sigA sigB points seconds tick : Nat} (h : s.Ready { op := 0x0905, pf0 := false } c a) (hslot : slot < 4)
    (hA : sigA ≤ 18) (hB : sigB ≤ 18) (hone : 1 ≤ points) (hmany : points ≤ 4096) (htick : tick < (if x.record.gridQ then 14400 else 4800))
    (hidle : (s.run.mlr.caps.getD slot {}).busy = false) :
    exec (.mlrCapture c slot index sigA sigB points seconds tick) s =
      .next (s.done c (s.run.modMlr fun y => { y with caps := modAt y.caps slot fun _ =>
        { busy := true, loop := l, inst := x.inst, sigA := sigA, sigB := sigB, len := points,
          tick := seconds * (if x.record.gridQ then 14400 else 4800) + tick } }) {}) := by
  change execMlrCapture c slot index sigA sigB points seconds tick s = _
  refine runCmd_done _ c s _ a _ {} h ?_ (.inl rfl)
  rw [onLoop_has _ ht hp hdev hloop]
  dsimp only
  rw [if_neg (by omega), hidle]
  rfl

theorem exec_mlrLoopRead (h : s.Ready { op := 0x0907, pf0 := false } c a) :
    exec (.mlrLoopRead c index) s =
      .next (s.done c s.run { result := [if x.auto then 1 else 0, if x.missed then 1 else 0, (x.sat : Int), x.limited + 1,
        (x.out.toNat : Int), (x.manual.toNat : Int), (l : Int)] }) := by
  change execMlrLoopRead c index s = _
  refine runCmd_done _ c s _ a _ _ h ?_ (.inl rfl)
  rw [onLoop_has _ ht hp hdev hloop]

end OnLoop

theorem exec_mlrCaptureRead (s : State) {c : Cmd} {a : Accepted} {slot : Nat} (h : s.Ready { op := 0x0906, pf0 := false } c a) (hslot : slot < 4) :
    let z := s.run.mlr.caps.getD slot {}
    z.busy = false → z.readableBy c.fn = true → 16 * z.points.length ≤ a.entry.bufLen → c.bufErr = false →
    exec (.mlrCaptureRead c slot) s =
      .next (s.done c (s.run.modMlr fun y => { y with caps := modAt y.caps slot fun z => { z with done := false } })
        { buffer := z.points.flatMap pointFields, bufLen := 16 * z.points.length }) := by
  intro z hidle hreads hfit hbuf
  change execMlrCaptureRead c slot s = _
  refine runCmd_done _ c s _ a _ _ h ?_ (.inr ⟨hfit, hbuf⟩)
  rw [if_neg (Nat.not_le.mpr hslot)]
  dsimp only
  rw [hreads, hidle]
  rfl

/-- Settles O30, row by row. -/
theorem millraceRowsComplete : Obligations.MillraceRowsComplete :=
  ⟨fun s _ _ _ _ _ _ _ => exec_loopEvaluation s, fun s _ _ _ _ _ => exec_mlrLoopSet s, fun s _ _ _ _ => exec_mlrLoopDelete s,
    fun s _ _ _ _ _ _ value _ h ht hp hdev hloop => exec_mlrMode s ht hp hdev hloop value h,
    fun s _ _ _ _ _ _ _ _ _ _ _ _ _ _ _ _ h ht hp hdev hloop => exec_mlrInject s ht hp hdev hloop h,
    fun s _ _ _ _ _ _ h ht hp hdev hloop => exec_mlrInjectStop s ht hp hdev hloop h,
    fun s _ _ _ _ _ _ _ _ _ _ _ _ h ht hp hdev hloop => exec_mlrCapture s ht hp hdev hloop h,
    fun s _ _ _ => exec_mlrCaptureRead s, fun s _ _ _ _ _ _ h ht hp hdev hloop => exec_mlrLoopRead s ht hp hdev hloop h⟩

end Sys2Proof.Machine
end

section
/-! Publications, and Tributary with its twin pair (R480 to R485, R492 to R497, R511, R654). -/

namespace Sys2Proof.Machine

/-! ### Publications (R480 to R485, R511) -/

theorem exec_gooseRetransmit (s : State) (d dt : Nat) (h : s.Running) :
    exec (.gooseRetransmit d dt) s = .next (s.ran ((s.run.pass dt).gooseRetry d)) := by
  change execGooseRetransmit d dt s = _
  exact whenRunning_running s _ h

section Publications

variable (s : State) {c : Cmd} {a : Accepted} {n index : Nat} (ht : a.target = some n) (hp : (s.run.inst n).phase ≠ .free)

include ht hp

theorem exec_pubGooseSet {i : Nat} {x : GoosePub} (h : s.Ready { op := 0x0A00, pf0 := false, buf := true, need := some 512 } c a)
    (hok : x.ok = true) (hkey : s.run.pubKeyOk n x.auth x.key = true) (hindex : pubIndex ((s.run.gooseView n).map (·.1)) 512 index = some i) :
    exec (.pubGooseSet c index x) s =
      .next (s.done c (s.run.modTrip fun t => { t with gooseStaged := tabSet t.gooseStaged (512 * n + i) (some x) }) { result := [(i : Int)] }) := by
  change execPubGooseSet c index x s = _
  refine runCmd_done _ c s _ a _ _ h ?_ (.inl rfl)
  rw [onSubs_exists _ ht hp]
  simp only [hok, hkey, hindex, Bool.not_true, Bool.false_eq_true, if_false]

theorem exec_pubSvSet {i : Nat} {x : SvPub} (h : s.Ready { op := 0x0A01, pf0 := false, buf := true, need := some 192 } c a)
    (hok : x.ok = true) (hkey : s.run.pubKeyOk n x.auth x.key = true) (hindex : pubIndex ((s.run.svView n).map (·.1)) 64 index = some i) :
    exec (.pubSvSet c index x) s =
      .next (s.done c (s.run.modTrip fun t => { t with svStaged := tabSet t.svStaged (512 * n + i) (some x) }) { result := [(i : Int)] }) := by
  change execPubSvSet c index x s = _
  refine runCmd_done _ c s _ a _ _ h ?_ (.inl rfl)
  rw [onSubs_exists _ ht hp]
  simp only [hok, hkey, hindex, Bool.not_true, Bool.false_eq_true, if_false]

theorem exec_pubDelete_sv (h : s.Ready { op := 0x0A02, pf0 := false } c a) (hheld : ((s.run.svView n).any fun e => e.1 == index) = true) :
    exec (.pubDelete c 0 index) s =
      .next (s.done c (s.run.modTrip fun t => { t with svStaged := tabSet t.svStaged (512 * n + index) none }) {}) := by
  change execPubDelete c 0 index s = _
  refine runCmd_done _ c s _ a _ {} h ?_ (.inl rfl)
  rw [onSubs_exists _ ht hp, if_pos ⟨rfl, hheld⟩]
  rfl

theorem exec_pubDelete_goose (h : s.Ready { op := 0x0A02, pf0 := false } c a)
    (hheld : ((s.run.gooseView n).any fun e => e.1 == index) = true) :
    exec (.pubDelete c 1 index) s =
      .next (s.done c (s.run.modTrip fun t => { t with gooseStaged := tabSet t.gooseStaged (512 * n + index) none }) {}) := by
  change execPubDelete c 1 index s = _
  refine runCmd_done _ c s _ a _ {} h ?_ (.inl rfl)
  rw [onSubs_exists _ ht hp, if_neg (by simp), if_pos ⟨rfl, hheld⟩]
  rfl

theorem exec_pubRead_sv {d : Nat} {x : SvSt} (h : s.Ready { op := 0x0A03, pf0 := false } c a) (hdev : s.run.svDev n index = some d)
    (hpub : s.run.svPub d = some x) :
    exec (.pubRead c 0 index) s =
      .next (s.done c s.run { result := [(x.smpCnt : Int), 0, if s.run.suspended n then 0 else 1] }) := by
  change execPubRead c 0 index s = _
  refine runCmd_done _ c s _ a _ _ h ?_ (.inl rfl)
  rw [onSubs_exists _ ht hp]
  simp only [if_true, hdev, Option.bind_some, hpub]
  rfl

theorem exec_pubRead_goose {d : Nat} {x : GooseSt} (h : s.Ready { op := 0x0A03, pf0 := false } c a)
    (hdev : s.run.gooseDev n index = some d) (hpub : s.run.goosePub d = some x) :
    exec (.pubRead c 1 index) s =
      .next (s.done c s.run { result := [(x.stNum : Int), (x.sqNum : Int), if s.run.suspended n then 0 else if x.twinOff then 2 else 1] }) := by
  change execPubRead c 1 index s = _
  refine runCmd_done _ c s _ a _ _ h ?_ (.inl rfl)
  rw [onSubs_exists _ ht hp]
  simp only [Nat.one_ne_zero, if_false, if_true, hdev, Option.bind_some, hpub]

end Publications

/-- Settles O31, row by row. -/
theorem publicationRowsComplete : Obligations.PublicationRowsComplete :=
  ⟨exec_gooseRetransmit, fun s _ _ _ _ _ _ h ht hp => exec_pubGooseSet s ht hp h, fun s _ _ _ _ _ _ h ht hp => exec_pubSvSet s ht hp h,
    fun s _ _ _ _ h ht hp => ⟨exec_pubDelete_sv s ht hp h, exec_pubDelete_goose s ht hp h⟩,
    fun s _ _ _ _ _ h ht hp => ⟨fun _ => exec_pubRead_sv s ht hp h, fun _ => exec_pubRead_goose s ht hp h⟩⟩

/-! ### Tributary (R492 to R497, R654) -/

theorem exec_tribSend (s : State) (dt : Nat) (h : s.Running) :
    exec (.tribSend dt) s = .next (s.ran (s.run.pass dt).settleTrib.tribSend) := by
  change execTribSend dt s = _
  exact whenRunning_running s _ h

theorem exec_tribReceive (s : State) (m : TribMsg) (dt : Nat) (h : s.Running) :
    exec (.tribReceive m dt) s = .next (s.ran ((s.run.pass dt).settleTrib.tribReceive m)) := by
  change execTribReceive m dt s = _
  exact whenRunning_running s _ h

theorem exec_twinJoinEnd (s : State) {complete : Bool} {dt k : Nat} (h : s.Running) (hjoin : s.run.trip.trib.join = some k)
    (hend : complete = true ∨ k + 4800 ≤ (s.run.pass dt).pTickNow) :
    exec (.twinJoinEnd complete dt) s = .next (s.ran (s.run.pass dt).joinEnd) := by
  change execTwinJoinEnd complete dt s = _
  rw [execTwinJoinEnd, whenRunning_running s _ h]
  simp only [Run.pass_trip, hjoin, if_pos hend]

theorem exec_tribTimeout (s : State) {dt k : Nat} {x : TribCfg} (h : s.Running) :
    let r := (s.run.pass dt).settleTrib
    r.trip.trib.cfg = some x → r.trip.trib.rxTick = some k → r.trip.trib.paired = true → k + x.timeout ≤ r.pTickNow →
    exec (.tribTimeout dt) s = .next (s.ran r.tribLone) := by
  intro r hcfg hlast hpaired hlate
  change execTribTimeout dt s = _
  rw [execTribTimeout, whenRunning_running s _ h]
  dsimp only
  rw [hcfg, hlast]
  dsimp only
  rw [hpaired, decide_eq_true hlate]
  rfl

/-- The configuration takes effect with the next tick. -/
theorem exec_tribSet (s : State) {c : Cmd} {a : Accepted} {twinId pairId portA timeout vlan : Nat} (key da : Nat) {portB : Option Nat}
    (h : s.Ready { op := 0x0A04, pf0 := true } c a) (hone : 1 ≤ twinId) (htwo : twinId ≤ 2) (hpair : pairId ≤ 65535) (hshort : 3 ≤ timeout)
    (hlong : timeout ≤ 48) (hvlan : vlan = 0 ∨ (1 ≤ vlan % 4096 ∧ vlan % 4096 ≤ 4094)) (hA : s.run.sw.tribPort portA = true)
    (hB : (portB.all fun p => s.run.sw.tribPort p) = true) :
    let x : TribCfg := { twinId := twinId, pairId := pairId, portA := portA, portB := portB, key := key, da := da, timeout := timeout,
                         vid := vlan % 4096, pcp := vlan / 8192 % 8 }
    exec (.tribSet c twinId pairId portA portB key da timeout vlan) s =
      .next (s.done c (s.run.settleTrib.modTrib fun t => { t with next := some (x, s.run.pTickNow + 1) }) {}) := by
  intro x
  have hin : ¬ (twinId = 0 ∨ 2 < twinId ∨ 65535 < pairId ∨ timeout < 3 ∨ 48 < timeout ∨
      (vlan ≠ 0 ∧ (vlan % 4096 = 0 ∨ 4094 < vlan % 4096))) := by omega
  have hports : ¬ ((!s.run.sw.tribPort portA) = true ∨ (!portB.all fun p => s.run.sw.tribPort p) = true) := by simp [hA, hB]
  change execTribSet c twinId pairId portA portB key da timeout vlan s = _
  refine runCmd_done _ c s _ a _ {} h ?_ (.inl rfl)
  rw [if_neg hin, if_neg hports]
  rfl

/-- A configuration whose tick has come is entered before anything else. -/
theorem Run.settleTrib_next {r : Run} {x : TribCfg} {k : Nat} (hnext : r.trip.trib.next = some (x, k)) :
    r.settleTrib = if k ≤ r.pTickNow then r.tribEnter x else r := by
  rw [Run.settleTrib, hnext]

theorem exec_tribQuery (s : State) {c : Cmd} {a : Accepted} (h : s.Ready { op := 0x0A05, pf0 := false } c a) :
    let r := s.run.settleTrib
    exec (.tribQuery c) s =
      .next (s.done c (r.takeFree 32).2 { result := [(r.trip.trib.state : Int), (((r.trip.trib.cfg.map (·.twinId)).getD 0 : Nat) : Int),
        ((match r.trip.trib.rxTick with | some k => min (r.pTickNow - k) 65535 | none => 0 : Nat) : Int), (r.takeFree 32).1.toNat] }) := by
  intro r
  change execTribQuery c s = _
  exact runCmd_done _ c s _ a _ _ h rfl (.inl rfl)

/-- Settles O32, row by row. -/
theorem tributaryRowsComplete : Obligations.TributaryRowsComplete :=
  ⟨exec_tribSend, exec_tribReceive, fun s _ _ _ => exec_twinJoinEnd s, fun s _ _ _ => exec_tribTimeout s,
    fun s _ _ _ _ _ key da _ _ _ => exec_tribSet s key da, fun _ _ _ => Run.settleTrib_next, fun s _ _ => exec_tribQuery s⟩

end Sys2Proof.Machine
end

section
/-! Safety I/O: outputs, inputs, latches and sessions, and its commands (R499 to R508, R511). -/

namespace Sys2Proof.Machine

/-! ### Outputs, inputs, latches and sessions -/

theorem exec_sofbMismatch (s : State) {n cause : Nat} (dt : Nat) {level : Bool} (h : s.Up) (henabled : (s.run.so n).enabled = true)
    (hwrong : (s.run.so n).contradicts level cause = true) :
    exec (.sofbMismatch n level cause dt) s =
      .next (s.ran (((s.run.pass dt).modSo n fun z => { z with sofb := level }).soFault n cause)) := by
  have hdue : (((s.run.pass dt).so n).enabled && ((s.run.pass dt).so n).contradicts level cause) = true :=
    Bool.and_eq_true_iff.mpr ⟨henabled, hwrong⟩
  change execSofbMismatch n level cause dt s = _
  rw [execSofbMismatch, whenUp_up s _ h]
  exact congrArg (fun r => Host.Outcome.next (s.ran r)) (if_pos hdue)

theorem exec_offPulseStart (s : State) {n dt : Nat} (h : s.Up) (henabled : (s.run.so n).enabled = true) (hdrive : (s.run.so n).drive = true)
    (hidle : (s.run.so n).pulse = none) (hdue : (s.run.pass dt).passed 1000000000 (n * 31250000) = true) :
    exec (.offPulseStart n dt) s =
      .next (s.ran (((s.run.pass dt).modSo n fun z => { z with pulse := some (s.run.ticks + dt) }.follow true).emit (.ball (.so n) .low))) := by
  have hstart : (((s.run.pass dt).so n).enabled && ((s.run.pass dt).so n).drive && ((s.run.pass dt).so n).pulse.isNone &&
      (s.run.pass dt).passed 1000000000 (n * 31250000)) = true := by
    have hso : (s.run.pass dt).so n = s.run.so n := rfl
    simp only [hso, henabled, hdrive, hidle, hdue, Option.isNone_none, Bool.and_self]
  change execOffPulseStart n dt s = _
  rw [execOffPulseStart, whenUp_up s _ h]
  exact congrArg (fun r => Host.Outcome.next (s.ran r)) (if_pos hstart)

theorem exec_offPulseEnd (s : State) {n dt t : Nat} (h : s.Up) (hpulse : (s.run.so n).pulse = some t)
    (hdue : t + usTicks s.run.trip.offPulse ≤ s.run.ticks + dt) :
    let r := (s.run.pass dt).modSo n fun z => { z with pulse := none, stat := tabInc z.stat 1 }.follow false
    exec (.offPulseEnd n dt) s = .next (s.ran (if (r.so n).enabled then r.emit (.ball (.so n) .high) else r)) := by
  intro r
  have hpulse' : ((s.run.pass dt).so n).pulse = some t := hpulse
  change execOffPulseEnd n dt s = _
  rw [execOffPulseEnd, whenUp_up s _ h]
  dsimp only
  rw [hpulse']
  exact congrArg (fun r => Host.Outcome.next (s.ran r)) (if_pos hdue)

/-- A level that stood for the debounce time is the input's, and triggers what it starts. -/
theorem exec_biChange (s : State) {n edge dt : Nat} {level : Bool} (h : s.Up) (hn : n < 32) (hchange : (s.run.bi n).level ≠ level)
    (hstood : edge + (s.run.bi n).debounce * 25000 ≤ s.run.ticks + dt) :
    let r := s.run.pass dt
    let r' := r.modTrip fun t => { t with bis := modAt t.bis n fun z =>
      { z with level := level, since := r.ticks, changes := (z.changes + 1) % 2 ^ 64, log := ((r.now, level) :: z.log).take 64 } }
    exec (.biChange n level edge dt) s =
      .next (s.ran ((r'.resetInput n level (s.run.bi n).since).drTriggerAll
        (fun _ x => (if level then x.record.biRise else x.record.biFall).contains n)
        { instant := r.instantAt edge, cause := 2, index := n })) := by
  intro r r'
  have hin : ¬ (32 ≤ n ∨ (r.bi n).level = level ∨ r.ticks < edge + (r.bi n).debounce * 25000) :=
    not_or.mpr ⟨Nat.not_le.mpr hn, not_or.mpr ⟨hchange, Nat.not_lt.mpr hstood⟩⟩
  change execBiChange n level edge dt s = _
  rw [execBiChange, whenUp_up s _ h]
  exact congrArg (fun r => Host.Outcome.next (s.ran r)) (if_neg hin)

theorem exec_latchReset (s : State) {l dt t : Nat} (h : s.Up) (hhigh : (s.run.latch l).highSince = some t)
    (hset : (s.run.latch l).set = true) (hdue : t + msTicks 20 ≤ s.run.ticks + dt) :
    let r := s.run.pass dt
    exec (.latchReset l dt) s =
      .next (s.ran (if r.trcHolds l then
          r.latchRefuse l
        else (r.modLatch l fun z => { z with set := false, changes := (z.changes + 1) % 65536, highSince := none }).latchEvent l 2)) := by
  intro r
  have hhigh' : (r.latch l).highSince = some t := hhigh
  have hdue' : ¬ ((!(r.latch l).set) = true ∨ r.ticks < t + msTicks 20) := by
    have hset' : (r.latch l).set = true := hset
    exact not_or.mpr ⟨by simp [hset'], Nat.not_lt.mpr hdue⟩
  change execLatchReset l dt s = _
  rw [execLatchReset, whenUp_up s _ h]
  dsimp only
  rw [hhigh']
  exact congrArg (fun r => Host.Outcome.next (s.ran r)) (if_neg hdue')

theorem exec_sioSessionExpiry (s : State) {fn dt t : Nat} (h : s.Up) (hopen : tabGet s.run.trip.sessions fn = some t)
    (hdue : t + msTicks 600000 ≤ s.run.ticks + dt) :
    exec (.sioSessionExpiry fn dt) s =
      .next (s.ran ((s.run.pass dt).modTrip fun x => { x with sessions := tabDel x.sessions fn })) := by
  change execSioSessionExpiry fn dt s = _
  rw [execSioSessionExpiry, whenUp_up s _ h]
  simp only [Run.pass_trip, hopen]
  exact congrArg (fun r => Host.Outcome.next (s.ran r)) (if_pos hdue)

/-- Settles O33, row by row. -/
theorem safetyIoEventsComplete : Obligations.SafetyIoEventsComplete :=
  ⟨fun s _ _ dt _ => exec_sofbMismatch s dt, fun s _ _ => exec_offPulseStart s, fun s _ _ _ => exec_offPulseEnd s,
    fun s _ _ _ _ => exec_biChange s, fun s _ _ _ => exec_latchReset s, fun s _ _ _ => exec_sioSessionExpiry s⟩

/-! ### Passwords and sessions (R505 to R507) -/

/-- With no lockout that still runs, the password decides. -/
theorem exec_sioUnlock (s : State) {c : Cmd} {a : Accepted} {password : List Nat} {salt hash : Nat}
    (h : s.Ready { op := 0x0A06, pf0 := false, buf := true, need := some password.length } c a) (hset : s.run.verifier = some (salt, hash))
    (hopen : ∀ t, s.run.trip.lockout = some t → t ≤ s.run.ticks) :
    let r := s.run.modTrip fun t => { t with fails := 0, lockout := none, sessions := tabSet t.sessions c.fn s.run.ticks }
    let wait := lockoutOf (s.run.trip.fails + 1)
    let r' := s.run.modTrip fun t =>
      { t with fails := s.run.trip.fails + 1, lockout := if wait = 0 then none else some (s.run.ticks + msTicks (wait * 1000)) }
    exec (.sioUnlock c password) s =
      .next (if passwordOk password && verifierOf password salt == hash then s.done c ((r.sioConfigNote c.fn).unlockRecord c 0) {}
        else s.done c (((r'.sioConfigNote c.fn).raise
          { ev := .sioAuthFail, source := 709, data := [((s.run.trip.fails + 1 : Nat) : Int), wait] }).unlockRecord c 1) { status := .auth }) := by
  intro r wait r'
  have hunlocked : ¬ (match s.run.trip.lockout with | some t => decide (s.run.ticks < t) | none => false) = true := by
    cases hlock : s.run.trip.lockout with
    | none => exact Bool.false_ne_true
    | some t => exact fun hruns => Nat.not_lt.mpr (hopen t hlock) (of_decide_eq_true hruns)
  change execSioUnlock c password s = _
  by_cases hright : (passwordOk password && verifierOf password salt == hash) = true
  · rw [if_pos hright]
    refine runCmd_done _ c s _ a _ {} h ?_ (.inl rfl)
    refine (if_neg hunlocked).trans ?_
    rw [hset]
    exact if_pos hright
  · rw [if_neg hright]
    refine runCmd_done _ c s _ a _ { status := .auth } h ?_ (.inl rfl)
    refine (if_neg hunlocked).trans ?_
    rw [hset]
    exact if_neg hright

theorem exec_sioUnlock_locked (s : State) {c : Cmd} {a : Accepted} {password : List Nat} {t : Nat}
    (h : s.Ready { op := 0x0A06, pf0 := false, buf := true, need := some password.length } c a) (hlock : s.run.trip.lockout = some t)
    (hruns : s.run.ticks < t) :
    exec (.sioUnlock c password) s = .next (s.done c ((s.run.sioConfigNote c.fn).unlockRecord c 2) { status := .sioLockout }) := by
  change execSioUnlock c password s = _
  refine runCmd_done _ c s _ a _ { status := .sioLockout } h ?_ (.inl rfl)
  simp only [hlock, decide_eq_true hruns, if_true]
  rfl

theorem exec_sioLock (s : State) {c : Cmd} {a : Accepted} (h : s.Ready { op := 0x0A07, pf0 := false } c a) :
    exec (.sioLock c) s = .next (s.done c (s.run.modTrip fun t => { t with sessions := tabDel t.sessions c.fn }) {}) := by
  change execSioLock c s = _
  exact runCmd_done _ c s _ a _ {} h rfl (.inl rfl)

theorem exec_sioPasswordSet (s : State) {c : Cmd} {a : Accepted} {old new : List Nat}
    (h : s.Ready { op := 0x0A08, pf0 := true, buf := true, need := some (2 + old.length + new.length) } c a) (hnew : passwordOk new = true)
    (htrng : s.run.srm.trngFail = false) :
    let right : Bool := match s.run.verifier with | none => old.isEmpty | some (salt, hash) => verifierOf old salt == hash
    let note (r : Run) (outcome : Int) : Run := r.stage { type := 0x0022, time := r.now, data := [outcome, c.fn, c.cseq.toNat] }
    let salt := s.run.takeFree 128
    exec (.sioPasswordSet c old new) s =
      .next (if right then
          s.done c (note ((salt.2.setVerifier salt.1.toNat (verifierOf new salt.1.toNat)).sioConfigNote c.fn) 0) {}
        else s.done c (note s.run 1) { status := .auth }) := by
  intro right note salt
  change execSioPasswordSet c old new s = _
  by_cases hright : right = true
  · rw [if_pos hright]
    refine runCmd_done _ c s _ a _ {} h ?_ (.inl rfl)
    have hwrong : ¬ (!right) = true := by rw [hright]; decide
    exact (if_neg (by rw [hnew]; decide)).trans ((if_neg hwrong).trans (if_neg (by rw [htrng]; decide)))
  · rw [if_neg hright]
    refine runCmd_done _ c s _ a _ { status := .auth } h ?_ (.inl rfl)
    have hwrong : (!right) = true := by rw [Bool.eq_false_of_not_eq_true hright]; rfl
    exact (if_neg (by rw [hnew]; decide)).trans (if_pos hwrong)

/-! ### Items, faults and the query (R499, R506, R508, R511) -/

/-- An item of an output's pairing changes only with both outputs of the pair at rest. -/
theorem exec_sioCfgSet (s : State) {c : Cmd} {a : Accepted} {item index value : Nat} (h : s.Ready { op := 0x0A09, pf0 := false } c a)
    (hset : s.run.verifier.isSome = true) (hsession : s.run.session c.fn = true) (hrange : sioRange item index value = true)
    (hmay : s.run.sioMay c.fn item index = true)
    (hrest : item = 2 → (s.run.so (index / 2 * 2)).drive = false ∧ (s.run.so (index / 2 * 2 + 1)).drive = false) :
    let r := (s.run.sioSet item index value).raise { ev := .sioConfig, source := 708, data := [(item : Int), index, c.fn] }
    exec (.sioCfgSet c item index value) s =
      .next (s.done c (r.stage
          { type := 0x0020, time := r.now,
            data := [(item : Int), index, s.run.sioItem item index, value, c.fn, c.cseq.toNat] }) {}) := by
  intro r
  have hpassword : ¬ s.run.verifier.isNone = true := by simpa using Option.isSome_iff_ne_none.mp hset
  have hstill : ¬ (item = 2 ∧ ((s.run.so (index / 2 * 2)).drive || (s.run.so (index / 2 * 2 + 1)).drive) = true) := by
    rintro ⟨hitem, hdriven⟩
    obtain ⟨heven, hodd⟩ := hrest hitem
    simp [heven, hodd] at hdriven
  change execSioCfgSet c item index value s = _
  refine runCmd_done _ c s _ a _ {} h ?_ (.inl rfl)
  rw [if_neg hpassword, hsession, hrange, hmay, if_neg hstill]
  rfl

theorem exec_sioFaultClear (s : State) {c : Cmd} {a : Accepted} {n : Nat} {sofb : List Bool} (h : s.Ready { op := 0x0A0A, pf0 := false } c a)
    (hn : n < 32) (hset : s.run.verifier.isSome = true) (hsession : s.run.session c.fn = true)
    (howner : c.fn = 0 ∨ (s.run.so n).owner = some (c.fn - 1))
    (hagree : (((s.run.channelsOf n).zip sofb).any fun e => (s.run.so e.1).level != e.2) = false) :
    exec (.sioFaultClear c n sofb) s =
      .next (s.done c ((s.run.channelsOf n).foldl
        (fun (r : Run) i => r.modSo i fun z => { z with fault := false, cause := 0, sofb := z.level }) s.run) {}) := by
  have hpassword : ¬ s.run.verifier.isNone = true := by simpa using Option.isSome_iff_ne_none.mp hset
  have hmine : ¬ (c.fn ≠ 0 ∧ (s.run.so n).owner ≠ some (c.fn - 1)) := fun ⟨hvf, hother⟩ => howner.elim hvf hother
  change execSioFaultClear c n sofb s = _
  refine runCmd_done _ c s _ a _ {} h ?_ (.inl rfl)
  rw [if_neg (Nat.not_le.mpr hn), if_neg hpassword, hsession, if_neg hmine, hagree]
  rfl

theorem exec_sioQuery (s : State) {c : Cmd} {a : Accepted} (sofb : Word) (h : s.Ready { op := 0x0A0B, pf0 := false } c a) :
    let r := (List.range 32).foldl (fun (r : Run) i => r.modSo i fun z => { z with sofb := sofb.getLsbD i }) s.run
    let word (p : Nat → Bool) : Int := ((List.range 32).foldl (fun n i => if p i then n + 2 ^ i else n) 0 : Nat)
    exec (.sioQuery c sofb) s =
      .next (s.done c r { result := [word fun i => (r.so i).drive, word fun i => (r.so i).sofb, word fun i => (r.so i).fault,
        word fun i => (r.latch i).set, word fun i => (r.bi i).level] }) := by
  intro r word
  change execSioQuery c sofb s = _
  exact runCmd_done _ c s _ a r _ h rfl (.inl rfl)

/-- Settles O34, command by command. -/
theorem safetyIoCommandsComplete : Obligations.SafetyIoCommandsComplete :=
  ⟨fun s _ _ _ _ _ => exec_sioUnlock s, fun s _ _ _ _ => exec_sioUnlock_locked s, fun s _ _ => exec_sioLock s,
    fun s _ _ _ _ => exec_sioPasswordSet s, fun s _ _ _ _ _ => exec_sioCfgSet s, fun s _ _ _ _ => exec_sioFaultClear s,
    fun s _ _ => exec_sioQuery s⟩

end Sys2Proof.Machine
end

section
/-! The recorders: their rows, triggers and timers (R519 to R526), and DRC_MASK_SET (R520). -/

namespace Sys2Proof.Machine

/-! ### Rows, triggers and timers (R519 to R526) -/

theorem exec_drRowWrite (s : State) (d dt : Nat) (h : s.Running) : exec (.drRowWrite d dt) s = .next (s.ran ((s.run.pass dt).drWrite d)) := by
  change execDrRowWrite d dt s = _
  exact whenRunning_running s _ h

/-- A recorder does not trigger on the pulse it puts out itself. -/
theorem exec_xtrigInEdge (s : State) (n dt : Nat) (h : s.Running) :
    exec (.xtrigInEdge n dt) s =
      .next (s.ran ((s.run.pass dt).drTriggerAll (fun d x => x.record.xin.contains n && !(((tabGet s.run.dr.xout n).map (·.recs)).getD []).contains d)
        { instant := (s.run.pass dt).now, cause := 3, index := n })) := by
  change execXtrigInEdge n dt s = _
  exact whenRunning_running s _ h

theorem exec_drAutoTrigger (s : State) {d dt : Nat} {x : Rec} {w : DrRow} (h : s.Running) (hrec : s.run.recorder d = some x)
    (harmed : x.phase = .armed) (hauto : x.record.auto = true)
    (hdue : (x.ring.find? fun w => decide ((x.armedAt : Rat) + (x.record.autoT : Rat) * 1000000 ≤ w.at')) = some w) :
    exec (.drAutoTrigger d dt) s =
      .next (s.ran ((s.run.pass dt).drTrigger d { instant := w.at'.floor.toNat, cause := 5 })) := by
  have hrec' : (s.run.pass dt).recorder d = some x := hrec
  change execDrAutoTrigger d dt s = _
  rw [execDrAutoTrigger, whenRunning_running s _ h]
  dsimp only
  rw [hrec']
  dsimp only
  rw [harmed, hauto, hdue]
  rfl

theorem exec_drRearmExpiry (s : State) (d dt : Nat) (h : s.Running) :
    exec (.drRearmExpiry d dt) s = .next (s.ran ((s.run.pass dt).drRearmed d)) := by
  change execDrRearmExpiry d dt s = _
  exact whenRunning_running s _ h

theorem exec_xtrigOutPulseEnd (s : State) {n dt : Nat} {x : XOut} (h : s.Running) (hout : tabGet s.run.dr.xout n = some x)
    (hend : x.till ≤ s.run.ticks + dt) :
    exec (.xtrigOutPulseEnd n dt) s =
      .next (s.ran (((s.run.pass dt).modDr fun y => { y with xout := tabDel y.xout n }).emit (.ball (.xtrigOut n) .z))) := by
  change execXtrigOutPulseEnd n dt s = _
  rw [execXtrigOutPulseEnd, whenRunning_running s _ h]
  simp only [Run.pass_dr, hout]
  exact congrArg (fun r => Host.Outcome.next (s.ran r)) (if_pos hend)

/-- Settles O35, row by row. -/
theorem recorderEventsComplete : Obligations.RecorderEventsComplete :=
  ⟨exec_drRowWrite, exec_xtrigInEdge, fun s _ _ _ _ => exec_drAutoTrigger s, exec_drRearmExpiry, fun s _ _ _ => exec_xtrigOutPulseEnd s⟩

/-! ### DRC_MASK_SET with a host buffer too short (R520)

O36 asks of DRC_MASK_SET with points only that it has a readable buffer, and nothing of the buffer's length; the row needs 12 octets for
each point, and answers ST_BUF where the buffer holds fewer. -/

/-- The recorders are not of the host interface. -/
theorem Run.OnlyHost.dr {a b : Run} (h : a.OnlyHost b) : b.dr = a.dr := by
  unfold Run.OnlyHost at h
  rw [h]

theorem exec_drcMaskSet_refused (s : State) {c : Cmd} {a : Accepted} {rep : Reply} (index test chan : Nat) {points : List (Int × Word × Word)}
    (hc : s.commandFor { op := 0x0B02, pf0 := false, buf := !points.isEmpty, need := some (12 * points.length) } c = some a)
    (hr : CmdSpec.refuses { op := 0x0B02, pf0 := false, buf := !points.isEmpty, need := some (12 * points.length) } s.sys c a = some rep) :
    exec (.drcMaskSet c index test chan points) s = .next (s.done c s.run rep) := by
  change execDrcMaskSet c index test chan points s = _
  rw [execDrcMaskSet, runCmd]
  exact runCommand_refused _ hc hr

/-- A mask of two points, and a recorder with the analog channel it tests. -/
def maskPoints : List (Int × Word × Word) := [(0, 0, 1), (1, 0, 1)]

def maskedRecord : DrRec :=
  { rate := 0, pre := 10, post := 10, autoT := 100, bufMib := 1, analog := [(.chan 0, 0, [])], binary := [] }

/-- PF0's DRC_MASK_SET on VI_0 as it was accepted, with a host buffer of no octets. -/
def maskAsked : Accepted := { entry := { cseq := 1, opcode := 0x0B02, inst := 0 }, target := some 0, gen := 0 }

/-- A device in service with VI_0 idle, that recorder staged for it, and that command accepted. -/
def maskStaging : State where
  sys := { phase := .running, porstN := true, corePower := true }
  run := (({ ready := true, protection := true, dr := { staged := [(0, some maskedRecord)] } } : Run).modFn 0 fun f =>
    { f with cseqAccepted := 1, accepted := [maskAsked] }).modInst 0 fun i => { i with phase := .idle }

theorem maskStaging_ready :
    maskStaging.Ready { op := 0x0B02, pf0 := false, buf := !maskPoints.isEmpty } { fn := 0, cseq := 1 } maskAsked := by
  decide +kernel

theorem maskStaging_phase : (maskStaging.run.inst 0).phase ≠ .free := by decide +kernel

theorem maskStaging_view : ((maskStaging.run.drView 0).find? fun e => e.1 == 0) = some (0, maskedRecord) := by decide +kernel

theorem maskStaging_points : maskPoints = [] ∨ (maskPointsOk maskPoints = true ∧ 0 < maskedRecord.analog.length) := by decide +kernel

theorem maskStaging_refused :
    CmdSpec.refuses { op := 0x0B02, pf0 := false, buf := !maskPoints.isEmpty, need := some (12 * maskPoints.length) } maskStaging.sys
      { fn := 0, cseq := 1 } maskAsked = some { status := .buf, result := [24] } := by
  decide +kernel

/-- Refutes O36, by its row DRC_MASK_SET: in `maskStaging` the command completes with ST_BUF and stages no mask, where the statement has
the mask staged. -/
theorem not_recorderCommandsComplete : ¬ Obligations.RecorderCommandsComplete := by
  unfold Obligations.RecorderCommandsComplete
  rintro ⟨-, -, hmask, -⟩
  have hstated := hmask maskStaging _ _ 0 0 0 0 0 maskPoints maskedRecord maskStaging_ready rfl maskStaging_phase maskStaging_view
    (by decide) maskStaging_points
  have hrefused := exec_drcMaskSet_refused maskStaging 0 0 0 maskStaging_ready.1 maskStaging_refused
  have hsame := Host.Outcome.next.inj (hrefused.symm.trans hstated)
  have hdr := congrArg (fun t : State => t.run.dr.masksStaged) hsame
  rw [State.done_run, State.done_run, (Run.onlyHost_finish _ _ _ _).dr, (Run.onlyHost_finish _ _ _ _).dr] at hdr
  exact absurd hdr (by decide +kernel)

end Sys2Proof.Machine
end

section
/-! The state of the Strongroom: re-masking, TRNG failure, the life cycle and debug unlocking (R562, R563, R565, R583, R588, R589). -/

namespace Sys2Proof.Machine

/-- Every slot takes a fresh mask; without the TRNG the slots that would have taken one are counted. -/
theorem exec_keyRemask (s : State) {dt : Nat} (h : s.Up) (hdue : s.run.srm.remaskAt + msTicks 100 ≤ s.run.ticks + dt) :
    let r := (s.run.pass dt).modSrm fun x => { x with remaskAt := s.run.ticks + dt }
    exec (.keyRemask dt) s =
      .next (s.ran (if s.run.srm.trngFail then r.srmCount 7 s.run.srm.slots.length
        else (s.run.srm.slots.foldl (fun (r : Run) (e : Nat × Key) =>
          (r.random (8 * materialBytes e.2.type)).2.modSrm fun s =>
            { s with slots := tabSet s.slots e.1 { e.2 with mask := Nat.xor e.2.mask (r.random (8 * materialBytes e.2.type)).1 } }) r).remaskContexts)) := by
  intro r
  change execKeyRemask dt s = _
  rw [execKeyRemask, whenUp_up s _ h]
  exact congrArg (fun r => Host.Outcome.next (s.ran r)) (if_neg (Nat.not_lt.mpr hdue))

theorem exec_trngHealthFail (s : State) (test dt : Nat) (h : s.Running) (hgood : s.run.srm.trngFail = false) :
    exec (.trngHealthFail test dt) s =
      .next (s.ran ((((({ s.run.pass dt with srm := { s.run.srm with trngFail := true } } : Run)).srmCount 6).raise
        { ev := .srmTrng, source := 835, data := [(test : Int)] }).islandOther 30 true)) := by
  have hgood' : ¬ (s.run.pass dt).srm.trngFail = true := by rw [Run.pass_srm, hgood]; exact Bool.false_ne_true
  change execTrngHealthFail test dt s = _
  rw [execTrngHealthFail, whenRunning_running s _ h]
  exact congrArg (fun r => Host.Outcome.next (s.ran r)) (if_neg hgood')

theorem exec_srmQuery (s : State) {c : Cmd} {a : Accepted} (h : s.Ready { op := 0x0D00, pf0 := false } c a) :
    exec (.srmQuery c) s =
      .next (s.done c s.run { result := [(s.run.srm.lc.code : Int), if s.run.srm.debug then 1 else 0, s.run.srm.slots.length,
        if s.run.srm.bankB then 1 else 0] }) := by
  change execSrmQuery c s = _
  exact runQuery_done _ c s _ a _ h rfl (.inl rfl)

theorem exec_srmLcChallenge (s : State) {c : Cmd} {a : Accepted} (h : s.Ready { op := 0x0D01, pf0 := true } c a)
    (htrng : s.run.srm.trngFail = false) :
    exec (.srmLcChallenge c) s =
      .next (s.done c ((s.run.takeFree 128).2.modSrm fun x => { x with
          nonce := some ((s.run.takeFree 128).1, s.run.now + 300000000000), oldNonces := (x.nonce.toList.map (·.1)) ++ x.oldNonces })
        { result := [((s.run.takeFree 128).1.toNat : Int), s.run.srm.lc.code] }) := by
  change execSrmLcChallenge c s = _
  refine runCmd_done _ c s _ a _ _ h ?_ (.inl rfl)
  rw [htrng]
  rfl

/-- A signature that verifies moves the life cycle; the command waits for the fuses where they are still to be written. -/
theorem exec_srmLcAdvance (s : State) {c : Cmd} {a : Accepted} {target : Nat} (sig ownerKey fuses : Nat)
    (h : s.Ready { op := 0x0D02, pf0 := true, buf := true, need := some (sigLen384 + if Lc.ofCode target = .secured then pointLen384 else 0) } c a)
    (htarget : target < 5) (hallows : s.run.srm.lc.allows (Lc.ofCode target) = true)
    (htrng : Lc.ofCode target = .provisioned → s.run.srm.trngFail = false) :
    let next := Lc.ofCode target
    let msg (nonce : Nat) := [label [0x4C, 0x43, 0x41, 0x44, 0x56], s.sys.serial, s.run.srm.lc.code, target, nonce] ++
      (if next = .secured then [ownerKey] else [])
    let moved := s.run.cancelClear.advance next ownerKey fuses
    let r := if 2 ≤ fuses ∧ (next = .returned ∨ next = .scrapped) then moved.protectionEnds else moved
    exec (.srmLcAdvance c target sig ownerKey fuses) s =
      .next (match s.run.lcCheck (s.run.srm.signer next ownerKey) msg sig with
        | none => if fuses < 3 then s.waits c (r.modSrm fun x => { x with advancing := some (c.fn, c.cseq) }) else s.done c r {}
        | some st => s.done c s.run { status := st }) := by
  intro next msg moved r
  have hin : ¬ 5 ≤ target := Nat.not_le.mpr htarget
  have hmay : ¬ (!s.run.srm.lc.allows next) = true := by simp [next, hallows]
  have hrandom : ¬ (next = .provisioned ∧ s.run.srm.trngFail = true) := by
    rintro ⟨hnext, hfail⟩
    exact Bool.false_ne_true ((htrng hnext).symm.trans hfail)
  change execSrmLcAdvance c target sig ownerKey fuses s = _
  unfold execSrmLcAdvance
  cases hcheck : s.run.lcCheck (s.run.srm.signer next ownerKey) msg sig with
  | some st =>
    refine runCommand_done _ c s _ a s.sys _ { status := st } h ?_ (.inl rfl)
    refine (if_neg hin).trans ((if_neg hmay).trans ?_)
    rw [hcheck]
    rfl
  | none =>
    dsimp only
    by_cases hfuses : fuses < 3
    · rw [if_pos hfuses]
      refine runCommand_wait _ c s _ a s.sys _ h ?_
      refine (if_neg hin).trans ((if_neg hmay).trans ?_)
      rw [hcheck]
      exact (if_neg hrandom).trans (if_pos hfuses)
    · rw [if_neg hfuses]
      refine runCommand_done _ c s _ a s.sys _ {} h ?_ (.inl rfl)
      refine (if_neg hin).trans ((if_neg hmay).trans ?_)
      rw [hcheck]
      exact (if_neg hrandom).trans (if_neg hfuses)

/-- With no VI that runs, the signature decides. -/
theorem exec_srmDebugUnlock (s : State) {c : Cmd} {a : Accepted} (sig : Nat)
    (h : s.Ready { op := 0x0D12, pf0 := true, buf := true, need := some sigLen384 } c a)
    (hnone : (s.run.insts.any fun i => i.phase == .active || i.phase == .shed) = false) (hsecured : s.run.srm.lc = .secured) :
    let msg (nonce : Nat) := [label [0x44, 0x42, 0x47, 0x55, 0x4E, 0x4C], s.sys.serial, nonce]
    exec (.srmDebugUnlock c sig) s =
      .next (match s.run.lcCheck ((s.run.srm.key 5).map (·.material)) msg sig with
        | none => s.done c s.run.debugUnlock {}
        | some st => s.done c s.run { status := st }) := by
  intro msg
  have hidle : ¬ (s.run.insts.any fun i => i.phase == .active || i.phase == .shed) = true := by rw [hnone]; exact Bool.false_ne_true
  change execSrmDebugUnlock c sig s = _
  unfold execSrmDebugUnlock
  cases hcheck : s.run.lcCheck ((s.run.srm.key 5).map (·.material)) msg sig with
  | some st =>
    refine runCommand_done _ c s _ a s.sys _ { status := st } h ?_ (.inl rfl)
    refine (if_neg hidle).trans ((if_neg (not_not.mpr hsecured)).trans ?_)
    dsimp only
    rw [hcheck]
    rfl
  | none =>
    refine runCommand_done _ c s _ a s.sys _ {} h ?_ (.inl rfl)
    refine (if_neg hidle).trans ((if_neg (not_not.mpr hsecured)).trans ?_)
    dsimp only
    rw [hcheck]
    rfl

/-- Settles O39, row by row. -/
theorem strongroomStateRowsComplete : Obligations.StrongroomStateRowsComplete :=
  ⟨fun s _ => exec_keyRemask s, exec_trngHealthFail, fun s _ _ => exec_srmQuery s, fun s _ _ => exec_srmLcChallenge s,
    fun s _ _ _ sig ownerKey fuses => exec_srmLcAdvance s sig ownerKey fuses, fun s _ _ sig => exec_srmDebugUnlock s sig⟩

end Sys2Proof.Machine
end

section
/-! The keys of the Strongroom, and what it computes with them (R567 to R589). -/

namespace Sys2Proof.Machine

/-! ### Use of a key (R570) -/

/-- A blob opens as a key of the type, identity, generation and attributes that it names. -/
theorem Strong.openBlob_eq {x : Strong} {serial : Nat} {b : Blob} {k : Key} (h : x.openBlob serial b = some k) :
    k = { type := b.type, keyId := b.keyId, gen := b.gen, attr := b.attr, material := k.material } := by
  unfold Strong.openBlob at h
  split at h
  · cases h
  · split at h
    · cases h
    · split at h
      · split at h
        · cases h
          rfl
        · cases h
      · cases h

theorem Run.usable_serves {r : Run} {fn slot usage : Nat} {k : Key} (hslot : 8 ≤ slot) (hkey : r.srm.key slot = some k)
    (hserves : r.srm.commandServes k fn usage = true) (hfits : usageFits usage k = true) :
    r.usable fn slot usage = (r.srmCount 0, .ok k) := by
  simp only [Run.usable, hkey, Nat.not_lt.mpr hslot, if_false, hserves, hfits, Bool.and_self, if_true]

theorem usageFits_wrap {k : Key} (htype : k.type = 2) (hattr : derivedAttrOk k.attr = true) : usageFits 7 k = true := by
  simp [usageFits, htype, hattr]

theorem usageFits_derive {k : Key} (htype : k.type = 4 ∨ k.type = 5) : usageFits 6 k = true := by
  simpa [usageFits] using htype

/-- A command on a key that its function may manage. -/
theorem onKey_manages {c : Cmd} {slot : Nat} {r : Run} {k : Key} (f : Key → Run × Answer) (hkey : r.srm.key slot = some k)
    (hmay : mayManage c.fn k.attr = true) : onKey c slot r f = f k := by
  simp only [onKey, hkey, hmay, if_true]

/-! ### New keys (R569 to R576) -/

theorem exec_srmKeyGenerate (s : State) {c : Cmd} {a : Accepted} {slot type keyId attr : Nat} (h : s.Ready { op := 0x0D03, pf0 := false } c a)
    (hnew : s.run.newKeyRefused c.fn slot type keyId attr = none) (hsecret : isPublic type = false) (hnot8 : type ≠ 8)
    (htrng : s.run.srm.trngFail = false) :
    let x := s.run.generate type keyId attr
    let r := x.2.loadKey slot x.1
    (r.blobReply s.sys.serial slot x.1).Fits c a →
    exec (.srmKeyGenerate c slot type keyId attr) s = .next (s.done c r (r.blobReply s.sys.serial slot x.1)) := by
  intro x r hfits
  have hmakes : ¬ (isPublic type = true ∨ type = 8) := by simp [hsecret, hnot8]
  change execSrmKeyGenerate c slot type keyId attr s = _
  refine runCommand_done _ c s _ a s.sys _ _ h ?_ hfits
  simp only [hnew, hmakes, htrng, Bool.false_eq_true, if_false]
  rfl

/-- A blob that opens loads the key it names; one that does not is counted. -/
theorem exec_srmKeyLoad (s : State) {c : Cmd} {a : Accepted} {slot : Nat} {blob : Blob}
    (h : s.Ready { op := 0x0D04, pf0 := false, buf := true, need := some (64 + blob.wrappedLen) } c a)
    (hnew : s.run.newKeyRefused c.fn slot blob.type blob.keyId blob.attr = none) :
    let key (m : Nat) : Key := { type := blob.type, keyId := blob.keyId, gen := blob.gen, attr := blob.attr, material := m }
    (∀ m, ((s.run.loadKey slot (key m)).blobReply s.sys.serial slot (key m)).Fits c a) →
    exec (.srmKeyLoad c slot blob) s =
      .next (match s.run.srm.openBlob s.sys.serial blob with
        | some k => s.done c (s.run.loadKey slot k) ((s.run.loadKey slot k).blobReply s.sys.serial slot k)
        | none => s.done c s.run.blobFail { status := .srmBlob }) := by
  intro key hfits
  change execSrmKeyLoad c slot blob s = _
  unfold execSrmKeyLoad
  cases hopen : s.run.srm.openBlob s.sys.serial blob with
  | none =>
    refine runCommand_done _ c s _ a s.sys _ { status := .srmBlob } h ?_ (.inl rfl)
    simp only [hopen, Answer.status]
  | some k =>
    have hk := Strong.openBlob_eq hopen
    rw [hk]
    refine runCommand_done _ c s _ a s.sys _ _ h ?_ (hfits k.material)
    rw [hk] at hopen
    simp only [hopen, hnew]

theorem exec_srmKeyLoadClear (s : State) {c : Cmd} {a : Accepted} {slot type keyId attr material : Nat}
    (h : s.Ready { op := 0x0D05, pf0 := true, buf := true, need := some (materialBytes type) } c a)
    (hsecured : s.run.srm.lc ≠ .secured) (hscrapped : s.run.srm.lc ≠ .scrapped)
    (hnew : s.run.newKeyRefused c.fn slot type keyId attr = none) (hmaterial : material < 256 ^ materialBytes type) :
    let g := s.run.random 32
    let k : Key := { type := type, keyId := keyId, gen := g.1, attr := setDevice attr clearLoaded, material := material }
    let r := g.2.loadKey slot k
    (r.blobReply s.sys.serial slot k).Fits c a →
    exec (.srmKeyLoadClear c slot type keyId attr material) s = .next (s.done c r (r.blobReply s.sys.serial slot k)) := by
  intro g k r hfits
  change execSrmKeyLoadClear c slot type keyId attr material s = _
  refine runCommand_done _ c s _ a s.sys _ _ h ?_ hfits
  simp only [hsecured, hscrapped, or_self, hnew, Nat.not_le.mpr hmaterial, if_false]
  rfl

theorem exec_srmKeyImport (s : State) {c : Cmd} {a : Accepted} {slot type kekSlot keyId attr : Nat} (cipher : Nat) {kek : Key}
    (h : s.Ready { op := 0x0D06, pf0 := false, buf := true, need := some (cipherLen type) } c a)
    (hnew : s.run.newKeyRefused c.fn slot type keyId attr = none) (hslot : 8 ≤ kekSlot) (hkek : s.run.srm.key kekSlot = some kek)
    (htype : kek.type = 2) (hattr : derivedAttrOk kek.attr = true) (hserves : s.run.srm.commandServes kek c.fn 7 = true) :
    let g := (s.run.srmCount 0).random 32
    let k (m : Nat) : Key := { type := type, keyId := keyId, gen := g.1, attr := setDevice attr 0, material := m }
    (∀ m, ((g.2.loadKey slot (k m)).blobReply s.sys.serial slot (k m)).Fits c a) →
    exec (.srmKeyImport c slot type kekSlot keyId attr cipher) s =
      .next (match unwrapped kek type cipher with
        | some m => s.done c (g.2.loadKey slot (k m)) ((g.2.loadKey slot (k m)).blobReply s.sys.serial slot (k m))
        | none => s.done c (s.run.srmCount 0) { status := .auth }) := by
  intro g k hfits
  have husable := Run.usable_serves hslot hkek hserves (usageFits_wrap htype hattr)
  change execSrmKeyImport c slot type kekSlot keyId attr cipher s = _
  unfold execSrmKeyImport
  cases hunwrap : unwrapped kek type cipher with
  | some m =>
    refine runCommand_done _ c s _ a s.sys _ _ h ?_ (hfits m)
    simp only [hnew, husable, hunwrap]
    rfl
  | none =>
    refine runCommand_done _ c s _ a s.sys _ { status := .auth } h ?_ (.inl rfl)
    simp only [hnew, husable, hunwrap, Answer.status]

theorem exec_srmKeyDerive (s : State) {c : Cmd} {a : Accepted} {slot privSlot keyId attr : Nat} (peer : Nat) {priv : Key}
    (h : s.Ready { op := 0x0D07, pf0 := false, buf := true, need := some (s.run.srm.peerLen privSlot) } c a)
    (hnew : s.run.newKeyRefused c.fn slot 2 keyId attr = none) (hattr : derivedAttrOk attr = true) (hslot : 8 ≤ privSlot)
    (hpriv : s.run.srm.key privSlot = some priv) (htype : priv.type = 4 ∨ priv.type = 5)
    (hserves : s.run.srm.commandServes priv c.fn 6 = true) :
    let g := (s.run.srmCount 0).random 32
    let k (z : Nat) : Key := { type := 2, keyId := keyId, gen := g.1, attr := setDevice attr 0,
                               material := Config.hmac z [label [0x53, 0x52, 0x4D, 0x49, 0x4D, 0x50], s.sys.serial, keyId, 1] }
    (∀ z, ((g.2.loadKey slot (k z)).blobReply s.sys.serial slot (k z)).Fits c a) →
    exec (.srmKeyDerive c slot privSlot keyId attr peer) s =
      .next (match Config.ecdh priv.material peer with
        | some z => s.done c (g.2.loadKey slot (k z)) ((g.2.loadKey slot (k z)).blobReply s.sys.serial slot (k z))
        | none => s.done c (s.run.srmCount 0) { status := .range }) := by
  intro g k hfits
  have husable := Run.usable_serves hslot hpriv hserves (usageFits_derive htype)
  change execSrmKeyDerive c slot privSlot keyId attr peer s = _
  unfold execSrmKeyDerive
  cases hshared : Config.ecdh priv.material peer with
  | some z =>
    refine runCommand_done _ c s _ a s.sys _ _ h ?_ (hfits z)
    simp only [hnew, hattr, Bool.not_true, Bool.false_eq_true, if_false, husable, hshared]
    rfl
  | none =>
    refine runCommand_done _ c s _ a s.sys _ { status := .range } h ?_ (.inl rfl)
    simp only [hnew, hattr, Bool.not_true, Bool.false_eq_true, if_false, husable, hshared, Answer.status]

/-! ### Keys replaced, unloaded and changed (R579 to R582) -/

/-- A check value that is given is that of the key. -/
theorem checkValue_matches (check : Option Nat) (v : Nat) :
    (match check with | some w => w == v | none => true) = true ↔ ∀ w, check = some w → w = v := by
  cases check <;> simp

/-- A replacement that passes its checks starts, and completes as far as power lets it go. -/
theorem exec_srmKeyReplace (s : State) {c : Cmd} {a : Accepted} {slot source kekSlot keyId cipher : Nat} (reach : Nat) {check : Option Nat}
    {blob : Blob} {old new : Key} {r : Run}
    (h : s.Ready { op := 0x0D08, pf0 := false, buf := source != 1, need := some (s.run.srm.sourceLen slot source blob) } c a)
    (hfirst : s.run.srm.replacing c.fn c.cseq = none) (hold : s.run.srm.key slot = some old) (hslot : 8 ≤ slot)
    (hmay : mayManage c.fn old.attr = true) (hidle : s.run.srm.busy slot = false)
    (hnew : s.run.replacement c old source kekSlot keyId blob cipher s.sys.serial = (r, .ok new)) (htype : new.type = old.type)
    (hattr : setDevice new.attr 0 = setDevice old.attr 0) (hid : r.srm.idTaken slot new.keyId new.attr = false)
    (hcheck : ∀ v, check = some v → v = kcv new 0) :
    let x := r.startReplace (r.replaceOf s.sys c slot old new) reach
    (∀ rep, x.2 = .done rep → rep.Fits c a) →
    exec (.srmKeyReplace c slot source kekSlot check keyId blob cipher true reach) s =
      .next (match x.2 with | .done rep => s.done c x.1 rep | .wait => s.waits c x.1) := by
  intro x hfits
  have hsame : ¬ (new.type ≠ old.type ∨ setDevice new.attr 0 ≠ setDevice old.attr 0) := by simp [htype, hattr]
  have hverified : ∀ b, b = true → ¬ (false || !b) = true := by decide
  have hmatches := (checkValue_matches check (kcv new 0)).mpr hcheck
  change execSrmKeyReplace c slot source kekSlot check keyId blob cipher true reach s = _
  unfold execSrmKeyReplace
  rw [hfirst]
  cases hend : x.2 with
  | done rep =>
    refine runCommand_done _ c s _ a s.sys x.1 rep h ?_ (hfits rep hend)
    simp only [hold, Nat.not_lt.mpr hslot, hmay, hidle, hnew, hsame, hid, Bool.not_true, Bool.false_eq_true, if_false]
    exact (if_neg (hverified _ hmatches)).trans (by rw [← hend])
  | wait =>
    refine runCommand_wait _ c s _ a s.sys x.1 h ?_
    simp only [hold, Nat.not_lt.mpr hslot, hmay, hidle, hnew, hsame, hid, Bool.not_true, Bool.false_eq_true, if_false]
    exact (if_neg (hverified _ hmatches)).trans (by rw [← hend])

theorem exec_srmKeyReplace_continues (s : State) {c : Cmd} (slot source kekSlot keyId cipher reach : Nat) (check : Option Nat) (blob : Blob)
    (testOk : Bool) {x : Replace} (h : s.Up) (hreplacing : s.run.srm.replacing c.fn c.cseq = some x) :
    exec (.srmKeyReplace c slot source kekSlot check keyId blob cipher testOk reach) s =
      .next (s.ran (s.run.continueReplace s.sys x reach)) := by
  change execSrmKeyReplace c slot source kekSlot check keyId blob cipher testOk reach s = _
  rw [execSrmKeyReplace, hreplacing]
  exact whenUp_up s _ h

section Managed

variable (s : State) {c : Cmd} {a : Accepted} {slot : Nat} {k : Key} (hkey : s.run.srm.key slot = some k) (hmay : mayManage c.fn k.attr = true)

include hkey hmay

theorem exec_srmKeyUnload (purge : Bool) (h : s.Ready { op := 0x0D09, pf0 := false } c a) (hslot : 8 ≤ slot)
    (hidle : s.run.srm.busy slot = false) :
    exec (.srmKeyUnload c slot purge) s = .next (s.done c (s.run.unloadKey slot 3 purge) {}) := by
  change execSrmKeyUnload c slot purge s = _
  refine runCmd_done _ c s _ a _ {} h ?_ (.inl rfl)
  rw [onKey_manages _ hkey hmay, if_neg (Nat.not_lt.mpr hslot), hidle]
  rfl

theorem exec_srmKeyAttr {bits : Nat} (h : s.Ready { op := 0x0D0A, pf0 := false } c a) (hslot : 8 ≤ slot)
    (hidle : s.run.srm.busy slot = false) (hbits : bits &&& clearable = bits) :
    let k' : Key := { k with attr := k.attr &&& ((2 ^ 64 - 1) ^^^ bits) }
    let r := (s.run.modSrm fun x => x.withSlots (tabSet x.slots slot k')).persist slot k'
    (r.blobReply s.sys.serial slot k').Fits c a →
    exec (.srmKeyAttr c slot bits) s = .next (s.done c r (r.blobReply s.sys.serial slot k')) := by
  intro k' r hfits
  change execSrmKeyAttr c slot bits s = _
  refine runCommand_done _ c s _ a s.sys _ _ h ?_ hfits
  rw [onKey_manages _ hkey hmay, if_neg (Nat.not_lt.mpr hslot), hidle, if_neg (not_not.mpr hbits)]
  rfl

theorem exec_srmKeyInfo (h : s.Ready { op := 0x0D0B, pf0 := false } c a) :
    exec (.srmKeyInfo c slot) s =
      .next (s.done c s.run { result := [(s.run.srm.slotWord slot : Int), k.attr, k.gen, ((k.uses / 65536 : Nat) : Int)] }) := by
  change execSrmKeyInfo c slot s = _
  refine runCmd_done _ c s _ a _ _ h ?_ (.inl rfl)
  rw [onKey_manages _ hkey hmay]

theorem exec_srmKeyExport {kekSlot : Nat} {kek : Key} (h : s.Ready { op := 0x0D0C, pf0 := false } c a) (hexports : k.attr.testBit 32 = true)
    (hslot : 8 ≤ slot) (hkekSlot : 8 ≤ kekSlot) (hkek : s.run.srm.key kekSlot = some kek) (htype : kek.type = 2)
    (hattr : derivedAttrOk kek.attr = true) (hserves : s.run.srm.commandServes kek c.fn 7 = true)
    (hfit : cipherLen k.type ≤ a.entry.bufLen) (hbuf : c.bufErr = false) :
    exec (.srmKeyExport c slot kekSlot) s =
      .next (s.done c (s.run.srmCount 0) { buffer := [(Config.kwpWrap kek.material [k.material] : Int)],
                                           bufLen := cipherLen k.type }) := by
  change execSrmKeyExport c slot kekSlot s = _
  refine runCmd_done _ c s _ a _ _ h ?_ (.inr ⟨hfit, hbuf⟩)
  rw [onKey_manages _ hkey hmay, if_neg (Nat.not_lt.mpr hslot), hexports,
    Run.usable_serves hkekSlot hkek hserves (usageFits_wrap htype hattr)]
  rfl

end Managed

/-- Settles O40, command by command. -/
theorem keyCommandsComplete : Obligations.KeyCommandsComplete :=
  ⟨fun s _ _ _ _ _ _ => exec_srmKeyGenerate s, fun s _ _ _ _ => exec_srmKeyLoad s, fun s _ _ _ _ _ _ _ => exec_srmKeyLoadClear s,
    fun s _ _ _ _ _ _ _ cipher _ => exec_srmKeyImport s cipher, fun s _ _ _ _ _ _ peer _ => exec_srmKeyDerive s peer,
    fun s _ _ _ _ _ _ _ reach _ _ _ _ _ => exec_srmKeyReplace s reach,
    fun s _ slot source kekSlot keyId cipher reach check blob testOk _ =>
      exec_srmKeyReplace_continues s slot source kekSlot keyId cipher reach check blob testOk,
    fun s _ _ _ purge _ h hkey hmay => exec_srmKeyUnload s hkey hmay purge h, fun s _ _ _ _ _ h hkey hmay => exec_srmKeyAttr s hkey hmay h,
    fun s _ _ _ _ h hkey hmay => exec_srmKeyInfo s hkey hmay h, fun s _ _ _ _ _ _ h hkey hmay => exec_srmKeyExport s hkey hmay h⟩

end Sys2Proof.Machine
end

section
/-! What the Strongroom computes for a command: cryptographic operations, random bytes and statements (R567, R570, R585 to R587, R589). -/

namespace Sys2Proof.Machine

/-! ### Cryptographic operations (R585) -/

/-- An operation completes at once, with at most 96 octets more than its data. -/
theorem cryptReply_fits (op : Nat) (k : Key) (iv : Nat) (d : CryptData) :
    ∃ rep, cryptReply op k iv d = .done rep ∧ rep.bufLen ≤ d.len + 96 := by
  have hcheck (ok : Bool) : ∃ rep, (if ok then Answer.ok else .status .auth) = .done rep ∧ rep.bufLen ≤ d.len + 96 := by
    cases ok
    · exact ⟨{ status := .auth }, rfl, Nat.zero_le _⟩
    · exact ⟨{}, rfl, Nat.zero_le _⟩
  unfold cryptReply
  split
  case h_2 =>
    split
    · exact ⟨_, rfl, Nat.le_add_right _ _⟩
    · exact ⟨_, rfl, Nat.zero_le _⟩
  case h_7 =>
    refine ⟨_, rfl, ?_⟩
    dsimp only
    split <;> omega
  case h_1 | h_3 | h_5 => exact ⟨_, rfl, by dsimp only; omega⟩
  all_goals exact hcheck _

/-- The operations that take an initialisation vector of their own count the key's uses. -/
theorem exec_srmCrypt (s : State) {c : Cmd} {a : Accepted} {slot op : Nat} {d : CryptData} {k : Key}
    (h : s.Ready { op := 0x0D0D, pf0 := false, buf := true, need := some d.len } c a) (hop : op < 8) (hlen : d.len ≤ 65536) (hslot : 8 ≤ slot)
    (hkey : s.run.srm.key slot = some k) (hserves : s.run.srm.commandServes k c.fn (cryptUsage op) = true)
    (htype : cryptFits op k.type = true) (huses : op = 0 ∨ op = 2 → s.run.srm.trngFail = false ∧ k.uses < 2 ^ 32)
    (hfit : d.len + 96 ≤ a.entry.bufLen) (hbuf : c.bufErr = false) :
    let g := s.run.random 96
    exec (.srmCrypt c slot op d) s =
      .next (if op = 0 ∨ op = 2 then
          (match cryptReply op k g.1 d with
            | .done rep => s.done c ((g.2.srmCount 0).countUse slot k) rep | .wait => s.waits c ((g.2.srmCount 0).countUse slot k))
        else (match cryptReply op k 0 d with
            | .done rep => s.done c (s.run.srmCount 0) rep | .wait => s.waits c (s.run.srmCount 0))) := by
  intro g
  have hin : ¬ (8 ≤ op ∨ 65536 < d.len) := by omega
  change execSrmCrypt c slot op d s = _
  by_cases hown : op = 0 ∨ op = 2
  · obtain ⟨htrng, hlimit⟩ := huses hown
    obtain ⟨rep, hrep, hshort⟩ := cryptReply_fits op k g.1 d
    rw [if_pos hown, hrep]
    refine runCmd_done _ c s _ a _ rep h ?_ (.inr ⟨hshort.trans hfit, hbuf⟩)
    simp only [if_neg hin, hkey, Nat.not_lt.mpr hslot, hserves, htype, Bool.not_true, Bool.or_self, Bool.false_eq_true, if_false, if_pos hown,
      htrng, Nat.not_le.mpr hlimit]
    rw [← hrep]
  · obtain ⟨rep, hrep, hshort⟩ := cryptReply_fits op k 0 d
    rw [if_neg hown, hrep]
    refine runCmd_done _ c s _ a _ rep h ?_ (.inr ⟨hshort.trans hfit, hbuf⟩)
    simp only [if_neg hin, hkey, Nat.not_lt.mpr hslot, hserves, htype, Bool.not_true, Bool.or_self, Bool.false_eq_true, if_false, if_neg hown,
      hrep]

theorem exec_srmRandom (s : State) {c : Cmd} {a : Accepted} {len : Nat} (h : s.Ready { op := 0x0D0E, pf0 := false } c a) (hone : 1 ≤ len)
    (hmany : len ≤ 4096) (htrng : s.run.srm.trngFail = false) (hfit : len ≤ a.entry.bufLen) (hbuf : c.bufErr = false) :
    exec (.srmRandom c len) s =
      .next (s.done c (s.run.random (8 * len)).2 { buffer := [((s.run.random (8 * len)).1 : Int)], bufLen := len }) := by
  have hin : ¬ (len < 1 ∨ 4096 < len) := by omega
  change execSrmRandom c len s = _
  refine runCmd_done _ c s _ a _ _ h ?_ (.inr ⟨hfit, hbuf⟩)
  simp only [if_neg hin, htrng, Bool.false_eq_true, if_false]

/-! ### Statements (R586, R587) -/

/-- A statement is signed by the device's identity. -/
theorem Run.statement_signed {r : Run} {identity : Key} (fields : List Nat) (len : Nat) (hkey : r.srm.key 0 = some identity) :
    r.statement fields len =
      .done { buffer := (fields ++ [Config.ecdsaSign identity.material fields]).map Int.ofNat, bufLen := len } := by
  rw [Run.statement, hkey]

/-- A key of the type that shows no check value has random octets in its place. -/
theorem exec_srmAttestKey (s : State) {c : Cmd} {a : Accepted} {slot : Nat} (nonce : Nat) {k identity : Key}
    (h : s.Ready { op := 0x0D0F, pf0 := false } c a) (hkey : s.run.srm.key slot = some k) (hmay : mayManage c.fn k.attr = true)
    (hscrapped : s.run.srm.lc ≠ .scrapped) (hblank : s.run.srm.lc ≠ .blank) (hidentity : s.run.srm.key 0 = some identity)
    (hfit : 288 ≤ a.entry.bufLen) (hbuf : c.bufErr = false) :
    let v := if k.type = 8 then s.run.random 128 else (kcv k nonce, s.run)
    let fields := v.2.statementHead s.sys 1 nonce 128 ++ [slot, k.type, k.keyId, k.attr, k.gen, publicField k v.1]
    exec (.srmAttestKey c slot nonce) s =
      .next (s.done c v.2 { buffer := (fields ++ [Config.ecdsaSign identity.material fields]).map Int.ofNat, bufLen := 288 }) := by
  intro v fields
  have hidentity' : v.2.srm.key 0 = some identity := by
    by_cases h8 : k.type = 8
    · simp only [v, if_pos h8]
      exact hidentity
    · simp only [v, if_neg h8]
      exact hidentity
  change execSrmAttestKey c slot nonce s = _
  refine runCommand_done _ c s _ a s.sys v.2 _ h ?_ (.inr ⟨hfit, hbuf⟩)
  rw [onKey_manages _ hkey hmay, if_neg (not_or.mpr ⟨hscrapped, hblank⟩), ← Run.statement_signed fields 288 hidentity']

theorem exec_srmAttestDevice (s : State) {c : Cmd} {a : Accepted} (nonce : Nat) {identity : Key} (h : s.Ready { op := 0x0D10, pf0 := false } c a)
    (hblank : s.run.srm.lc ≠ .blank) (hidentity : s.run.srm.key 0 = some identity) (hfit : 416 ≤ a.entry.bufLen) (hbuf : c.bufErr = false) :
    let fields := s.run.statementHead s.sys 2 nonce 256 ++ [Config.firmwareHash s.sys.boot.imageB, Config.coreFirmwareHash, Config.catalogueHash,
      s.run.srm.ownerHash, if s.sys.boot.imageB then 1 else 0, if s.run.srm.debug then 1 else 0, 0x0301B000]
    exec (.srmAttestDevice c nonce) s =
      .next (s.done c s.run { buffer := (fields ++ [Config.ecdsaSign identity.material fields]).map Int.ofNat, bufLen := 416 }) := by
  intro fields
  change execSrmAttestDevice c nonce s = _
  exact runQuery_done _ c s _ a _ h ((if_neg hblank).trans (Run.statement_signed fields 416 hidentity)) (.inr ⟨hfit, hbuf⟩)

theorem exec_srmIdentity (s : State) {c : Cmd} {a : Accepted} {identity : Key} (h : s.Ready { op := 0x0D11, pf0 := false } c a)
    (hblank : s.run.srm.lc ≠ .blank) (hidentity : s.run.srm.key 0 = some identity) (hfit : 193 ≤ a.entry.bufLen) (hbuf : c.bufErr = false) :
    exec (.srmIdentity c) s =
      .next (s.done c s.run {
        buffer := [(Config.ecPublic identity.material : Int), endorsement s.sys.serial (Config.ecPublic identity.material)]
        bufLen := 193 }) := by
  change execSrmIdentity c s = _
  refine runQuery_done _ c s _ a _ h ?_ (.inr ⟨hfit, hbuf⟩)
  simp only [hidentity, if_neg hblank]

/-- Settles O41, command by command. -/
theorem cryptoCommandsComplete : Obligations.CryptoCommandsComplete :=
  ⟨fun s _ _ _ _ _ _ => exec_srmCrypt s, fun s _ _ _ => exec_srmRandom s, fun s _ _ _ nonce _ _ => exec_srmAttestKey s nonce,
    fun s _ _ nonce _ => exec_srmAttestDevice s nonce, fun s _ _ _ => exec_srmIdentity s⟩

end Sys2Proof.Machine
end

section
/-! The field bus: frames, slots, supervision and recovery, and its commands (R597 to R608). -/

namespace Sys2Proof.Machine

/-! ### Frames, slots, supervision and recovery -/

/-- A CAN FD frame on a channel without FD is counted and not received. -/
theorem exec_canFrameReceive (s : State) {n : Nat} (sof tec rec' dt : Nat) (f : CanFrame) (locked : Bool) (h : s.Running) (hn : n < 4)
    (hbus : (s.run.can n).onBus = true) :
    exec (.canFrameReceive n f sof locked tec rec' dt) s =
      .next (s.ran (if f.fdf && !(s.run.can n).fdEn then (s.run.pass dt).canCount n 7
        else ((s.run.pass dt).canReceive n f sof locked).canErrors n tec rec')) := by
  have hin : ¬ (4 ≤ n ∨ (!((s.run.pass dt).can n).onBus) = true) := by
    have hbus' : ((s.run.pass dt).can n).onBus = true := hbus
    simp [hbus', hn]
  change execCanFrameReceive n f sof locked tec rec' dt s = _
  rw [execCanFrameReceive, whenRunning_running s _ h]
  exact congrArg (fun r => Host.Outcome.next (s.ran r)) (if_neg hin)

theorem exec_canFrameEnd (s : State) {n b : Nat} (tec rec' dt : Nat) (e : CanEnd) (tdcv : Option Nat) {x : CanBuf} (h : s.Running) (hn : n < 4)
    (hbus : (s.run.can n).onBus = true) (hsends : (s.run.can n).listen = false) (hbuf : tabGet (s.run.can n).bufs b = some x)
    (hpending : x.pending = true) (hoffered : (s.run.can n).offered.contains b = true) :
    exec (.canFrameEnd n b e tec rec' tdcv dt) s =
      .next (s.ran (((s.run.pass dt).canFrameEnd n b e tdcv).canErrors n tec rec' (some b))) := by
  have hcan : (s.run.pass dt).can n = s.run.can n := rfl
  have hin : ¬ 4 ≤ n := Nat.not_le.mpr hn
  change execCanFrameEnd n b e tec rec' tdcv dt s = _
  rw [execCanFrameEnd, whenRunning_running s _ h]
  simp only [hcan, hbuf, hin, hbus, hsends, hpending, hoffered, Bool.not_true, Bool.false_eq_true, or_self, if_false]

theorem exec_canSlotInstant (s : State) (n cycle slot dt : Nat) (h : s.Running) :
    exec (.canSlotInstant n cycle slot dt) s = .next (s.ran ((s.run.pass dt).canSlot n cycle slot)) := by
  change execCanSlotInstant n cycle slot dt s = _
  exact whenRunning_running s _ h

theorem exec_canSlotWindowExpiry (s : State) (n cycle slot dt : Nat) (h : s.Running) :
    exec (.canSlotWindowExpiry n cycle slot dt) s = .next (s.ran ((s.run.pass dt).canSlotEnd n cycle slot)) := by
  change execCanSlotWindowExpiry n cycle slot dt s = _
  exact whenRunning_running s _ h

theorem exec_canSupervisionExpiry (s : State) (n b dt : Nat) (h : s.Running) :
    exec (.canSupervisionExpiry n b dt) s = .next (s.ran ((s.run.pass dt).canExpire n b)) := by
  change execCanSupervisionExpiry n b dt s = _
  exact whenRunning_running s _ h

theorem exec_canRecoveryDone (s : State) {n : Nat} (dt : Nat) (h : s.Running) (hn : n < 4) (hoff : (s.run.can n).state = 2)
    (hasked : (s.run.can n).recovering = true) (hinit : (s.run.can n).init = false) :
    exec (.canRecoveryDone n dt) s =
      .next (s.ran (((s.run.pass dt).modCan n fun c => CanChan.noteOffer
        { c with tec := 0, rec' := 0, state := 0, recov := 0, recovering := false, held := none }).canStateEvent n 2)) := by
  have hdue : n < 4 ∧ ((s.run.pass dt).can n).state = 2 ∧ ((s.run.pass dt).can n).recovering = true ∧ (!((s.run.pass dt).can n).init) = true :=
    ⟨hn, hoff, hasked, by rw [Bool.not_eq_true']; exact hinit⟩
  change execCanRecoveryDone n dt s = _
  rw [execCanRecoveryDone, whenRunning_running s _ h]
  exact congrArg (fun r => Host.Outcome.next (s.ran r)) (if_pos hdue)

/-- Settles O42, row by row. -/
theorem fieldBusEventsComplete : Obligations.FieldBusEventsComplete :=
  ⟨fun s _ sof tec rec' dt f locked => exec_canFrameReceive s sof tec rec' dt f locked,
    fun s _ _ tec rec' dt e tdcv _ => exec_canFrameEnd s tec rec' dt e tdcv, exec_canSlotInstant, exec_canSlotWindowExpiry,
    exec_canSupervisionExpiry, fun s _ => exec_canRecoveryDone s⟩

/-! ### Commands -/

theorem exec_fbBufSet (s : State) {c : Cmd} {a : Accepted} {n b : Nat} {x : CanRec}
    (h : s.Ready { op := 0x0E00, pf0 := true, buf := true, need := some 16 } c a) (hn : n < 4) (hb : b < 128) (hok : x.ok = true)
    (hfree : s.run.bufNamed n b = false) :
    exec (.fbBufSet c n b x) s =
      .next (s.done c ((if (match s.run.canBuf n b with | some y => y.pending | none => false) then s.run.canEnd n b 1 else s.run).modCan n
        fun c => { c with bufs := tabSet c.bufs b { record := x } }) {}) := by
  have hin : ¬ (128 ≤ b ∨ (!x.ok) = true) := by simp [hok, hb]
  change execFbBufSet c n b x s = _
  refine runCmd_done _ c s _ a _ {} h ?_ (.inl rfl)
  rw [if_neg (Nat.not_le.mpr hn), if_neg hin, hfree]
  rfl

theorem exec_fbSchedSet (s : State) {c : Cmd} {a : Accepted} {n len : Nat} (window : Nat) {cycles : List (List CanSlot)}
    (h : s.Ready { op := 0x0E01, pf0 := true, buf := true, need := some (128 * cycles.length) } c a) (hn : n < 4)
    (hidle : (s.run.can n).schedEn = false) (hok : schedOk cycles len = true) :
    exec (.fbSchedSet c n len window cycles) s =
      .next (s.done c (s.run.modCan n fun c => { c with matrix := cycles, cycleLen := len, window := window }) {}) := by
  change execFbSchedSet c n len window cycles s = _
  refine runCmd_done _ c s _ a _ {} h ?_ (.inl rfl)
  rw [if_neg (Nat.not_le.mpr hn), hidle, hok]
  rfl

/-- A command on a buffer that its function holds. -/
theorem onBuf_has {c : Cmd} {r : Run} {n b : Nat} {x : CanBuf} (f : CanBuf → Run × Answer) (hn : n < 4) (hb : b < 128)
    (hbuf : r.canBuf n b = some x) (hmine : c.fn = 0 ∨ x.record.inst + 1 = c.fn) : onBuf c n b r f = f x := by
  have hallowed : ¬ (c.fn ≠ 0 ∧ x.record.inst + 1 ≠ c.fn) := fun ⟨hvf, hother⟩ => hmine.elim hvf hother
  simp only [onBuf, Nat.not_le.mpr hn, Nat.not_le.mpr hb, or_self, if_false, hbuf, if_neg hallowed]

section OnBuf

variable (s : State) {c : Cmd} {a : Accepted} {n b : Nat} {x : CanBuf} (hn : n < 4) (hb : b < 128) (hbuf : s.run.canBuf n b = some x)
  (hmine : c.fn = 0 ∨ x.record.inst + 1 = c.fn)

include hn hb hbuf hmine

/-- Data shorter than the buffer's frame is filled with zeros. -/
theorem exec_fbTx {data : List Nat} (h : s.Ready { op := 0x0E02, pf0 := false, buf := true, need := some data.length } c a)
    (htx : x.record.tx = true) (hlen : data.length ≤ dlcLength x.record.fdf x.record.dlc) (hidle : x.pending = false)
    (hbus : (s.run.can n).state ≠ 2) :
    let whole := (data ++ List.replicate (dlcLength x.record.fdf x.record.dlc) 0).take (dlcLength x.record.fdf x.record.dlc)
    exec (.fbTx c n b data) s =
      .next (s.done c ((s.run.modBuf n b fun x => { x with content := some { x.txStore with data := whole } }).canRequest n b true) {}) := by
  intro whole
  have hin : ¬ ((!x.record.tx) = true ∨ dlcLength x.record.fdf x.record.dlc < data.length) := by simp [htx, hlen]
  change execFbTx c n b data s = _
  refine runCmd_done _ c s _ a _ {} h ?_ (.inl rfl)
  rw [onBuf_has _ hn hb hbuf hmine, if_neg hin, hidle, if_neg hbus]
  rfl

/-- A frame on the wire is cancelled at its end. -/
theorem exec_fbCancel (onWire : Bool) (h : s.Ready { op := 0x0E03, pf0 := false } c a) (hpending : x.pending = true) :
    exec (.fbCancel c n b onWire) s =
      .next (if onWire && (s.run.can n).state != 2 && (s.run.can n).offered.contains b then
          s.waits c (s.run.canCancel n b true (some (c.fn, c.cseq)))
        else s.done c (s.run.canCancel n b false none) { result := [1] }) := by
  have hasked : ¬ (!x.pending) = true := by simp [hpending]
  change execFbCancel c n b onWire s = _
  by_cases hwire : (onWire && (s.run.can n).state != 2 && (s.run.can n).offered.contains b) = true
  · rw [if_pos hwire]
    refine runCmd_wait _ c s _ a _ h ?_
    rw [onBuf_has _ hn hb hbuf hmine, if_neg hasked, if_pos hwire]
  · rw [if_neg hwire]
    refine runCmd_done _ c s _ a _ { result := [1] } h ?_ (.inl rfl)
    rw [onBuf_has _ hn hb hbuf hmine, if_neg hasked, if_neg hwire]

theorem exec_fbBufRead_full {y : CanBuf} {d : CanStore} (h : s.Ready { op := 0x0E04, pf0 := false } c a)
    (hsettled : (s.run.modBuf n b CanBuf.settle).canBuf n b = some y) (hcontent : y.content = some d)
    (hfit : d.data.length = 0 ∨ (d.data.length ≤ a.entry.bufLen ∧ c.bufErr = false)) :
    exec (.fbBufRead c n b) s =
      .next (s.done c (s.run.modBuf n b CanBuf.settle) {
        result := [(d.dlc : Int), d.flags, ((s.run.modBuf n b CanBuf.settle).can n).statusOf b y, d.ident, secOf d.time, nsOf d.time]
        buffer := d.data.map Int.ofNat
        bufLen := d.data.length }) := by
  change execFbBufRead c n b s = _
  refine runCmd_done _ c s _ a _ _ h ?_ hfit
  rw [onBuf_has _ hn hb hbuf hmine]
  simp only [hsettled, hcontent]

theorem exec_fbBufRead_empty {y : CanBuf} (h : s.Ready { op := 0x0E04, pf0 := false } c a)
    (hsettled : (s.run.modBuf n b CanBuf.settle).canBuf n b = some y) (hcontent : y.content = none) :
    exec (.fbBufRead c n b) s =
      .next (s.done c (s.run.modBuf n b CanBuf.settle) {
        result := [0, (storeFlags y.record.tx y.record.ide y.record.fdf y.record.brs : Int),
          ((s.run.modBuf n b CanBuf.settle).can n).statusOf b y, y.record.ident, 0, 0] }) := by
  change execFbBufRead c n b s = _
  refine runCmd_done _ c s _ a _ _ h ?_ (.inl rfl)
  rw [onBuf_has _ hn hb hbuf hmine]
  simp only [hsettled, hcontent]

end OnBuf

theorem exec_fbRecover (s : State) {c : Cmd} {a : Accepted} {n : Nat} (h : s.Ready { op := 0x0E05, pf0 := true } c a) (hn : n < 4)
    (hoff : (s.run.can n).state = 2) :
    exec (.fbRecover c n) s = .next (s.done c (s.run.modCan n fun c => { c with recovering := true }) {}) := by
  change execFbRecover c n s = _
  refine runCmd_done _ c s _ a _ {} h ?_ (.inl rfl)
  rw [if_neg (Nat.not_le.mpr hn), if_neg (not_not.mpr hoff)]
  rfl

/-- Settles O43, command by command. -/
theorem fieldBusCommandsComplete : Obligations.FieldBusCommandsComplete :=
  ⟨fun s _ _ _ _ _ => exec_fbBufSet s, fun s _ _ _ _ window _ => exec_fbSchedSet s window,
    fun s _ _ _ _ _ _ h hn hb hbuf hmine => exec_fbTx s hn hb hbuf hmine h,
    fun s _ _ _ _ onWire _ h hn hb hbuf hmine => exec_fbCancel s hn hb hbuf hmine onWire h,
    fun s _ _ _ _ _ _ _ h hn hb hbuf hmine => exec_fbBufRead_full s hn hb hbuf hmine h,
    fun s _ _ _ _ _ _ h hn hb hbuf hmine => exec_fbBufRead_empty s hn hb hbuf hmine h, fun s _ _ _ => exec_fbRecover s⟩

end Sys2Proof.Machine
end
